-- ==== Sys2Proof/Word.lean ====
section
/-!
DEFINITION. The word types of the YF-9840 Rindera model: bytes, 32-bit lanes and the index types that the
manual gives its numbered things (R3, R19, R31, R45).
-/
namespace Sys2Proof

/-- One byte; every multi-byte structure of the device is little-endian (R4). -/
abbrev Byte := BitVec 8

/-- One 32-bit lane or register word (R45). -/
abbrev Word := BitVec 32

/-- A byte string, byte 0 first. -/
abbrev Bytes := List Byte

/-- Site number 0 to 47 (R19). -/
abbrev SiteId := Fin 48

/-- Unit position of a patch, v * 5 + u (R28, R292). -/
abbrev PosId := Fin 25

/-- Unit index of a grid unit, 0 to 24 (R31). -/
abbrev UnitId := Fin 25

/-- Context of a tile control core (R38). -/
abbrev CtxId := Fin 16

/-- MSU of a tile (R27). -/
abbrev MsuId := Fin 8

/-- VXU of a tile (R27). -/
abbrev VxuId := Fin 16

/-- Paddock index (R435). -/
abbrev PadId := Fin 16

/-- Fabric link index, 2p + h (R332). -/
abbrev LinkId := Fin 16

/-- Mailbox number, 0 the administration mailbox (R404). -/
abbrev MbId := Fin 17

/-- UCIe module (R394). -/
abbrev ModId := Fin 2

/-- Yardmaster core (R501). -/
abbrev CoreId := Fin 4

/-- Number of carillon barrier (R253). -/
abbrev BarId := Fin 256

end Sys2Proof
end

