-- ==== Sys2Proof/Syntax.lean ====
section
/-!
DEFINITION. The commands of the block: one constructor of `Instr` per row of spec/opcode_table.json, with the
operands each row needs. A row that an outside agent sends carries what it sends (a host message, a frame, a packet,
a bus write, a pin or sensor value). A row that is an event of the device's own engines carries the engine's number,
and the outcome of a physical check where the manual names one (a parity, ECC, FEC or self-test result).
-/
namespace Sys2Proof

/-- Result of a SECDED or symbol code check at one access (R161, R211, R309, R331). -/
inductive Ecc where
  | clean | corrected | uncorrectable
  deriving DecidableEq, Repr

/-- What the symbol code of a DRAM codeword finds at one access: one of three or more bad symbols may also be corrected to
other data, or pass (R211). -/
inductive DramEcc where
  | clean | corrected | uncorrectable | miscorrected | passed
  deriving DecidableEq, Repr

/-- The command or address path of a DRAM channel: sound, failing its parity check once more, or failed outright (R495, R497). -/
inductive ChanPath where
  | sound | parity | failed
  deriving DecidableEq, Repr

/-- A side of a unit position, in the encoding of R55: N, E, S, W. -/
inductive Side where
  | n | e | s | w
  deriving DecidableEq, Repr

/-- Where a Worvis command arrives (R421 to R423); the fabric serves at most four at once. -/
inductive Port where
  | mailbox (n : MbId)
  | owner
  | fabric (k : Fin 4)
  deriving DecidableEq, Repr

/-- The two moves of a pass-through register (R50). -/
inductive PassMove where
  | intoReg | ontoLink
  deriving DecidableEq, Repr

/-- The 16-byte header of a host message as it arrives (R397). -/
structure HostHdr where
  bits : BitVec 128
  deriving DecidableEq, Repr

/-- Its fields (R397). -/
def HostHdr.mtype (h : HostHdr) : Byte := h.bits.extractLsb' 0 8
def HostHdr.len (h : HostHdr) : BitVec 13 := h.bits.extractLsb' 16 13
def HostHdr.tag (h : HostHdr) : BitVec 16 := h.bits.extractLsb' 32 16
def HostHdr.handle (h : HostHdr) : BitVec 16 := h.bits.extractLsb' 48 16
def HostHdr.addr (h : HostHdr) : BitVec 64 := h.bits.extractLsb' 64 64

/-- A reserved bit is set (R397). -/
def HostHdr.reserved (h : HostHdr) : Bool := h.bits.extractLsb' 8 8 != 0#8 || h.bits.extractLsb' 29 3 != 0#3

/-- A fabric packet: the 32-byte header of R366 field by field, the operand area and the payload. -/
structure FabPkt where
  laddr : BitVec 39
  dest : BitVec 14
  space : BitVec 3
  src : BitVec 14
  epoch : BitVec 1
  prio : BitVec 1
  brand : BitVec 16
  typ : BitVec 6
  cls : BitVec 2
  dl : BitVec 1
  len : BitVec 7
  hops : BitVec 6
  tag : BitVec 16
  seq : BitVec 16
  size : BitVec 13
  status : BitVec 8
  reserved : BitVec 93
  operand : Bytes
  payload : Bytes
  deriving DecidableEq, Repr

/-- A codeword's 20-bit header: CW_COUNT, LANE, MARK and SYNC (R337). -/
abbrev CwHdr := BitVec 20

/-- The FEC decode of a codeword: the 10-bit symbols that RS(544,514) corrected, at most 15; none where the codeword is
uncorrectable (R333). -/
abbrev FecResult := Option (Fin 16)

/-- A codeword that carries a link frame, as received (R333, R337, R340): the physical lane of the link, what the FEC decode
found, the codeword header, and the 640 bytes of the frame field by field: the ten reserved bytes as one field, those of bytes 26 to
31 first. -/
structure Frame where
  lane : Fin 8
  fec : FecResult
  hdr : CwHdr
  ftype : Byte
  flags : Byte
  flitMask : BitVec 16
  flitVc : BitVec 32
  seq : BitVec 32
  ack : BitVec 32
  credit : List (BitVec 16)
  txCount : BitVec 64
  reserved : BitVec 80
  slots : Bytes
  tag : Bytes
  crc : BitVec 32
  deriving DecidableEq, Repr

/-- DISCOVER (R359). -/
structure Discover where
  serial : BitVec 64
  role : Nat
  hitchSize : Nat
  hitchPos : Nat
  priority : Nat
  number : Option (BitVec 14)
  linkIdx : Fin 16
  deriving DecidableEq, Repr

/-- One entry of a TOPOLOGY_REPORT (R361). -/
structure TopoLink where
  idx : Fin 16
  peer : BitVec 64
  peerIdx : Fin 16
  width : Nat
  trusted : Bool
  deriving DecidableEq, Repr

/-- TOPOLOGY_REPORT (R361). -/
structure Topology where
  serial : BitVec 64
  pinned : Option (BitVec 14)
  hitchSize : Nat
  hitchPos : Nat
  number : Option (BitVec 14)
  links : List TopoLink
  deriving DecidableEq, Repr

/-- A handshake HELLO (R347). -/
structure Hello where
  version : BitVec 16
  serial : BitVec 64
  role : Byte
  reserved : Byte
  nonce : Bytes
  deriving DecidableEq, Repr

/-- Sensor readings of a governor check: junction sensors by site, and the core current averaged over 1 ms in
amperes (R525). Junction readings are in units of 0.125 °C (R529). -/
structure GovReading where
  junction : List (BitVec 16)
  amps : Nat
  deriving DecidableEq, Repr

/-- What the trip logic saw (R526): a junction sensor of a site or a layer sensor of a loft. -/
inductive TripSource where
  | junction (s : SiteId)
  | loft (l : SiteId)
  deriving DecidableEq, Repr

/-- Registers with offsets that a register access names (R42, R119, R152, R187, R200, R260, R354, R392, R404,
R501, R537). -/
inductive RegBlock where
  | tile (s : SiteId)
  | mxu (s : SiteId)
  | vxu (s : SiteId) (v : VxuId)
  | msu (s : SiteId) (m : MsuId)
  | carillon
  | fabric
  | yardmaster
  | window
  deriving DecidableEq, Repr

/-- Who accesses a register (R119, R152, R260, R312, R392): a tile's control core, the yardmaster or the host. -/
inductive Accessor where
  | core (s : SiteId)
  | yardmaster
  | host
  deriving DecidableEq, Repr

/-- Why a yardmaster core fails, where no invariant of its journal does: its watchdog, or an uncorrectable SRAM word (R499). -/
inductive CoreCause where
  | watchdog | sramWord
  deriving DecidableEq, Repr

/-- What a link lane did to be retired (R352). -/
inductive LaneCause where
  | symbolErrors | uncorrectable | lostSync
  deriving DecidableEq, Repr

/-- Which word of a tile's configuration the scrubber or a decoder met (R308, R311). -/
inductive CfgArea where
  | live | bank0 | bank1
  deriving DecidableEq, Repr

/-- What a router finds in the 64-bit words of a packet, 16 in a flit: single-bit errors in some of them, or an uncorrectable word in
the payload or the header (R317, R331). -/
inductive FlitEcc where
  | fine (corrected : Fin 529)
  | badPayload
  | badHeader
  deriving DecidableEq, Repr

/-- A port of a grid unit that fires (R58, R103, R176). -/
inductive FirePort where
  | whole | inp (n : Fin 4) | outp (n : Fin 4)
  deriving DecidableEq, Repr

/-- Contents of a firmware slot as the boot ROM reads it; empty when nothing readable stands there. -/
abbrev SlotImage := Bytes

/-- The commands, one per row of spec/opcode_table.json. -/
inductive Instr where
  | getIdentity (p : Port) (hwErr : Bool)
  | setEventRing (p : Port) (hwErr : Bool)
  | getFaultRecord (p : Port) (hwErr : Bool)
  | paddockCreate (p : Port) (hwErr : Bool)
  | paddockRelease (p : Port) (hwErr : Bool)
  | paddockGrant (p : Port) (hwErr : Bool)
  | paddockQuery (p : Port) (hwErr : Bool)
  | barrierSpan (p : Port) (hwErr : Bool)
  | imageLoad (p : Port) (hwErr : Bool)
  | runStart (p : Port) (hwErr : Bool)
  | checkpoint (p : Port) (hwErr : Bool)
  | seqOpen (p : Port) (hwErr : Bool)
  | seqSet (p : Port) (hwErr : Bool)
  | seqRead (p : Port) (hwErr : Bool)
  | seqClose (p : Port) (hwErr : Bool)
  | opQuery (p : Port) (hwErr : Bool)
  | suspendOp (p : Port) (hwErr : Bool)
  | resumeOp (p : Port) (hwErr : Bool)
  | cancelOp (p : Port) (hwErr : Bool)
  | copyOpen (p : Port) (hwErr : Bool)
  | copyClose (p : Port) (hwErr : Bool)
  | accountQuery (p : Port) (hwErr : Bool)
  | getAttestation (p : Port) (hwErr : Bool)
  | getCertChain (p : Port) (hwErr : Bool)
  | sessionOpen (p : Port) (hwErr : Bool)
  | sessionClose (p : Port) (hwErr : Bool)
  | beatTableSet (p : Port) (hwErr : Bool)
  | beatTableGet (p : Port) (hwErr : Bool)
  | scrub (p : Port) (hwErr : Bool)
  | dramTest (p : Port) (hwErr : Bool)
  | telemetryRead (p : Port) (hwErr : Bool)
  | routeRebuild (p : Port) (hwErr : Bool)
  | fabricStatus (p : Port) (hwErr : Bool)
  | fwStage (p : Port) (hwErr : Bool)
  | fwData (p : Port) (hwErr : Bool)
  | fwActivate (p : Port) (hwErr : Bool)
  | clearBootDiverge (p : Port) (hwErr : Bool)
  | settingWrite (p : Port) (hwErr : Bool)
  | settingRead (p : Port) (hwErr : Bool)
  | clearOwnerAlert (p : Port) (hwErr : Bool)
  | linkSet (p : Port) (hwErr : Bool)
  | provision (p : Port) (hwErr : Bool)
  | retire (p : Port) (hwErr : Bool)
  | entdaa (addr : BitVec 7)
  | setdasa (static : BitVec 7) (addr : BitVec 7)
  | rstdaa
  | getpid
  | getbcr
  | getdcr
  | getstatus
  | ownerCommandWrite (data : Bytes)
  | ownerResponseRelease (data : Bytes)
  | stepNop (s : SiteId) (c : CtxId)
  | stepIssue (s : SiteId) (c : CtxId)
  | stepPlan (s : SiteId) (c : CtxId)
  | stepPatch (s : SiteId) (c : CtxId)
  | stepWaitBell (s : SiteId) (c : CtxId)
  | stepBellAdd (s : SiteId) (c : CtxId)
  | stepSend (s : SiteId) (c : CtxId)
  | stepRecv (s : SiteId) (c : CtxId)
  | stepBarrier (s : SiteId) (c : CtxId)
  | stepClaim (s : SiteId) (c : CtxId)
  | stepCommit (s : SiteId) (c : CtxId)
  | stepSet (s : SiteId) (c : CtxId)
  | stepAdd (s : SiteId) (c : CtxId)
  | stepJumpLt (s : SiteId) (c : CtxId)
  | stepJump (s : SiteId) (c : CtxId)
  | stepPartial (s : SiteId) (c : CtxId)
  | stepSeqAdvance (s : SiteId) (c : CtxId)
  | stepEnd (s : SiteId) (c : CtxId)
  | contextWake (s : SiteId) (c : CtxId)
  | configPortServe (s : SiteId)
  | mxuDoneRead (s : SiteId)
  | msuDoneRead (s : SiteId) (m : MsuId)
  | msuMvDoneRead (s : SiteId) (m : MsuId)
  | tileRmDoneRead (s : SiteId)
  | tileQueuePop (s : SiteId) (n : Byte)
  | tileScrubKatCmd (s : SiteId) (by_ : Accessor) (seed : Word)
  | registerWrite (b : RegBlock) (off : Nat) (by_ : Accessor) (value : BitVec 64)
  | unitFire (s : SiteId) (u : UnitId) (port : FirePort)
  | tokenEmit (s : SiteId) (p : PosId) (out : Fin 4) (parityBad : Bool)
  | passThroughForward (s : SiteId) (p : PosId) (side : Side) (mv : PassMove) (parityBad : Bool)
  | linkQueueTransfer (s : SiteId) (p : PosId) (side : Side)
  | gridDeadlock (k : PadId)
  | phaseEnd (k : PadId)
  | fullCommit (s : SiteId)
  | reloadComplete (k : PadId)
  | rowSlotStart (s : SiteId)
  | weightSwap (s : SiteId)
  | mxuStepComplete (s : SiteId)
  | scratchpadGrant (s : SiteId) (sec : Fin 4) (ecc : Ecc)
  | readDelivery (s : SiteId) (m : MsuId)
  | panelZero (s : SiteId) (sec : Fin 4)
  | msuPatternComplete (s : SiteId) (m : MsuId) (write : Bool)
  | moverRequestIssue (s : SiteId) (m : MsuId)
  | loftRequestAccept (l : SiteId) (router : Bool)
  | mergeWindowClose (l : SiteId) (block : Nat)
  | loftReadReturn (l : SiteId) (found : List (Fin 32 × DramEcc))
  | dramWriteBurst (l : SiteId)
  | moverTransferComplete (s : SiteId) (m : MsuId)
  | updateComplete (s : SiteId) (m : MsuId)
  | patrolScrub (l : SiteId) (off : BitVec 33) (ecc : DramEcc)
  | refreshRateChange (l : SiteId) (layers : Vector (BitVec 16) 8)
  | claimWordUpdate (l : SiteId) (ecc : DramEcc)
  | barrierArrival (b : BarId)
  | releaseArrival (s : SiteId)
  | workCounterOp (c : Fin 256)
  | bellAddArrival (s : SiteId)
  | messageDelivery (s : SiteId)
  | messageResponse (s : SiteId)
  | backoffResend (s : SiteId) (ch : Fin 64)
  | channelStuck (s : SiteId) (ch : Fin 64)
  | beatBoundary
  | sampleRecordWrite (s : SiteId)
  | winRead (m : ModId) (h : HostHdr)
  | winWrite (m : ModId) (h : HostHdr) (data : Bytes)
  | copyWrite (m : ModId) (h : HostHdr) (data : Bytes)
  | credit (m : ModId) (h : HostHdr)
  | copyOutTransfer (copy : Fin 16) (m : ModId) (ecc : DramEcc)
  | mailboxDoorbell (n : MbId)
  | mailboxAck (n : MbId) (seq : BitVec 16)
  | eventConsume (n : MbId) (value : Word)
  | eventRingWrite (n : MbId)
  | eventVector (n : MbId)
  | ucieTraining (m : ModId) (x32 : Bool) (ok : Bool)
  | opStart (slot : Fin 64)
  | opPointReached (slot : Fin 64)
  | opComplete (slot : Fin 64) (code : BitVec 16)
  | loadHeaderCheck (slot : Fin 64)
  | sectionTableCheck (slot : Fin 64)
  | wrappedKeyCheck (slot : Fin 64)
  | signatureCheck (slot : Fin 64)
  | bodyCheck (slot : Fin 64) (sec : Nat)
  | tileCheck (slot : Fin 64) (tile : Nat)
  | imageCheck (slot : Fin 64)
  | imageCommit (slot : Fin 64) (hwErr : BitVec 16)
  | imageDeliveryEnd (slot : Fin 64)
  | hitchLoadBegin (slotLen : Nat) (jobId : Bytes)
  | hitchLoadData (data : Bytes)
  | hitchLoadEnd
  | hitchVerified (pos : Nat) (jobId : Bytes) (code : BitVec 16)
  | hitchVerifiedTimeout
  | hitchCommit (hwErr : BitVec 16)
  | hitchCommitted (pos : Nat)
  | hitchCommittedTimeout
  | hitchAbort
  | hitchRevert
  | hitchRelease
  | scrubberAccess (s : SiteId) (a : CfgArea) (word : Nat) (ecc : Ecc)
  | scrubberVote (s : SiteId) (copyA : Nat) (copyB : Nat) (copyC : Nat)
  | scrubberCheck (s : SiteId)
  | remountSelfTest (s : SiteId) (pass : Bool)
  | routerForward (s : SiteId) (k : Nat) (ecc : FlitEcc)
  | seamLinkRetired (col : Fin 6) (link : Fin 4)
  | alignCodeword (n : LinkId) (lane : Fin 8) (fec : FecResult) (hdr : CwHdr) (payload : Bytes)
  | laneLockTimeout (n : LinkId) (lane : Fin 8)
  | frameTransmit (n : LinkId)
  | idleFrame (n : LinkId) (f : Frame)
  | dataFrame (n : LinkId) (f : Frame)
  | nakFrame (n : LinkId) (f : Frame)
  | controlFrame (n : LinkId) (f : Frame)
  | replayTimeout (n : LinkId)
  | hello (n : LinkId) (h : Hello)
  | kemKey (n : LinkId) (key : Bytes)
  | kemCt (n : LinkId) (ct : Bytes)
  | cert (n : LinkId) (chain : Bytes)
  | sig (n : LinkId) (signature : Bytes)
  | finished (n : LinkId) (confirm : Bytes)
  | rekeyKey (n : LinkId) (key : Bytes)
  | rekeyCt (n : LinkId) (ct : Bytes)
  | rekeyReq (n : LinkId)
  | rekeyTrigger (n : LinkId)
  | handshakeTimeout (n : LinkId)
  | laneRetire (n : LinkId) (lane : Fin 8) (cause : LaneCause)
  | downRetry (n : LinkId)
  | packetSwitch (n : LinkId) (p : FabPkt)
  | fabLoad (n : LinkId) (p : FabPkt) (ecc : DramEcc)
  | fabStore (n : LinkId) (p : FabPkt)
  | fabAtomic (n : LinkId) (p : FabPkt) (ecc : DramEcc)
  | fabTreduce (n : LinkId) (p : FabPkt) (ecc : DramEcc)
  | fabMessage (n : LinkId) (p : FabPkt)
  | fabLoadRsp (n : LinkId) (p : FabPkt)
  | fabAck (n : LinkId) (p : FabPkt)
  | fabAtomicRsp (n : LinkId) (p : FabPkt)
  | remoteDescriptorComplete (s : SiteId)
  | remoteTimeout (s : SiteId) (tag : Fin 128)
  | discover (n : LinkId) (d : Discover)
  | candidate (n : LinkId) (serial : BitVec 64) (priority : Nat)
  | masterElectionTimeout
  | topologyReport (n : LinkId) (hops : BitVec 6) (t : Topology)
  | assign (n : LinkId) (hops : BitVec 6) (sender : BitVec 64) (target : BitVec 64) (number : BitVec 14)
  | routeWrite (n : LinkId) (sender : BitVec 64) (p : FabPkt)
  | routeAck (n : LinkId) (sender : BitVec 64) (p : FabPkt)
  | epochFlip (n : LinkId) (sender : BitVec 64) (p : FabPkt)
  | fabBarrierArrive (n : LinkId) (p : FabPkt)
  | fabBarrierRelease (n : LinkId) (p : FabPkt)
  | governorCheck (r : GovReading)
  | thermalTrip (src : TripSource)
  | pllLossOfLock
  | porstAssert
  | porstRelease (strap : BitVec 2)
  | pllLock
  | firmwareSlotChoice (slotA : SlotImage) (slotB : SlotImage) (unclean : List (Fin 3 × Nat)) (storeRead : Option Bytes) (entropyOk : Bool)
  | loftTrainingComplete (l : SiteId) (failedChannels : List (Fin 64))
  | siteSelfTest (s : SiteId) (pass : Bool)
  | mailboxReady
  | entropyFailed
  | tilePowerChange (s : SiteId)
  | tileWake (s : SiteId) (katPass : Bool)
  | watchdogExpiry (c : CoreId) (cause : CoreCause)
  | journalCheck (c : CoreId) (ok : Bool)
  | coreHandover
  | coreSelfTest (c : CoreId) (pass : Bool)
  | rowSpared (l : SiteId) (ch : Fin 64) (bank : Fin 16) (row : Fin 4096)
  | channelSpared (l : SiteId) (ch : Fin 64) (path : ChanPath)
  | windowZeroingComplete (l : SiteId) (base4k : Nat)
  | registerRead (b : RegBlock) (off : Nat) (by_ : Accessor)
  | remoteRequestSend (s : SiteId)
  | bellAddAcknowledgement (s : SiteId)
  | ucieLaneRepair (m : ModId) (repaired : Bool) (x32 : Bool)
  | pmdTrainingComplete (n : LinkId)
  | entropyTestsPass
  | powerOff
  deriving DecidableEq, Repr

end Sys2Proof
end

