-- ==== Sys2Proof/Decode.lean ====
section
/-!
DEFINITION. The command that a word spells by the opcode table's bits. No row of spec/opcode_table.json gives bits
(every row's "fields" is empty), so no word spells a command. The commands of R427 are spelled by bytes, and the
mailbox, owner port and fabric meanings read them from those bytes (Machine/Worvis.lean).
-/
namespace Sys2Proof

/-- The command a word of the table spells: none, since no row gives bits. -/
def decodeTableWord (_nbits _w : Nat) : Option Instr := none

end Sys2Proof
end

