-- ==== Sys2Proof/Config.lean ====
section
/-!
DEFINITION. What the manual leaves to the part or leaves open. Every value here is a constant WITHOUT a body: no
proof can see what it is, so a theorem holds whatever it is. The cryptographic functions are the published standards
the manual names (SHAKE256, Falcon-1024, ML-KEM-1024, AES-256-GCM) and are used as uninterpreted functions.
-/
namespace Sys2Proof.Config

/-- The n-th draw of a free value: entropy, generator seeds and STOCH rounding bits (R94, R115, R151, R480). FREE VALUE. -/
opaque freeBits : Nat → Nat

/-- SHAKE256 output of `n` bytes over a byte string (R295, R348, R453). -/
opaque shake256 : (n : Nat) → Bytes → Bytes

/-- Falcon-1024 verification: public key or its key ID, message, signature (R295, R458). -/
opaque falconVerify : Bytes → Bytes → Bytes → Bool

/-- Falcon-1024 signature by a device key: the key's seed, then the message (R453, R463). -/
opaque falconSign : Bytes → Bytes → Bytes

/-- ML-KEM-1024 decapsulation under a device key seed: none where it fails (R296, R433). -/
opaque kemDecaps : Bytes → Bytes → Option Bytes

/-- ML-KEM-1024 encapsulation: key, then randomness; answers ciphertext and shared secret (R347). -/
opaque kemEncaps : Bytes → Nat → Bytes × Bytes

/-- ML-KEM-1024 encapsulation key of a seed (R347, R453). -/
opaque kemPublic : Bytes → Bytes

/-- Falcon-1024 public key of a seed (R453). -/
opaque falconPublic : Bytes → Bytes

/-- AES-256-GCM opening: key, IV, associated data, ciphertext, tag; none where the tag fails (R296, R341). -/
opaque gcmOpen : Bytes → Bytes → Bytes → Bytes → Bytes → Option Bytes

/-- AES-256-GCM sealing: key, IV, associated data, plaintext; answers ciphertext and tag. -/
opaque gcmSeal : Bytes → Bytes → Bytes → Bytes → Bytes × Bytes

/-- The approximation units of a VXU on a finite input of the operation's domain: opcode, operand, second operand
(R141: the manual states a bound, not a value). FREE VALUE. -/
opaque approx : Nat → Word → Word → Word

/-- The statistics sums of the online softmax (R144 states a bound, not a value): opcode, segment inputs. FREE VALUE. -/
opaque osm : Nat → List Word → Word

/-- A codeword with three or more bad symbols may be passed with any data (R211). FREE VALUE. -/
opaque passedData : Nat → Bytes

/-- Provisioned ID, BCR, DCR and status of the owner port's I3C target; R544 names the CCCs and no value. FREE VALUES. -/
opaque i3cPid : BitVec 48
opaque i3cBcr : Byte
opaque i3cDcr : Byte
opaque i3cStatus : Nat → BitVec 16

/-- Device-unique secret, fused at manufacture (R453). -/
opaque uds : Bytes

/-- The Yeloham root key of the boot ROM, the keys and signatures of its MFG_CA certificates and the number of the last of them;
which of them signed the device's DEVID certificate, and that signature (R456, R457). -/
opaque romRootKey : Bytes
opaque mfgCaKey : Nat → Bytes
opaque mfgCaSignature : Nat → Bytes
opaque mfgCaLast : Fin 4
opaque devidIssuer : Fin 4
opaque devidSignature : Bytes

/-- Firmware signature verification by the boot ROM (R533) over a slot's bytes. -/
opaque fwSignatureValid : Bytes → Bool

/-- Security version and version held in a firmware slot header; R478 and R533 name them and give no layout. -/
opaque fwSecurityVersion : Bytes → Nat
opaque fwVersion : Bytes → Nat

/-- Identification code of the test access port; R477 names it and gives no value. FREE VALUE. -/
opaque testIdCode : Word

/-- Telemetry page 4 (supplies and sensors): R433 names the page and gives no layout. FREE VALUE. -/
opaque telemetrySensors : Nat → Bytes

/-- Telemetry page 0 outside the blocks that chapters place: R516 and R537 give its contents in part. FREE VALUE. -/
opaque telemetrySummary : Nat → Bytes

/-- PAYLOAD of an event whose chapter says what it names and gives no layout (R551, R355, R393): the event's code and
what it names. FREE VALUE. -/
opaque eventPayload : Nat → List Nat → Bytes

/-- Payload of a management message that the manual describes and gives no layout: its MCODE and what it carries
(R359 to R362, R304). FREE VALUE. -/
opaque mgmtPayload : Nat → List Nat → Bytes

/-- In an NCLK cycle, every mapped link of the hitch's other positions has passed its check (R358): no message of the manual
tells a device so. FREE VALUE. -/
opaque hitchElsewhere : Nat → Bool

/-- Route entry that a fabric master writes into a device for a destination, over the links it knows (R372, R376: the
manual leaves the routes to the master). FREE VALUE. -/
opaque masterRoute : List Nat → Nat → Nat → BitVec 16

end Sys2Proof.Config
end

