-- ==== Sys2Proof/Machine/Flags.lean ====
section
/-!
DEFINITION. The sticky arithmetic flags of the MXU and the VXUs (R93, R150): their layout and how they combine; fields that
a read clears, with the events of the cycle of the read (R9); FIFOs of completion records (R121, R187, R200, R381).
-/
namespace Sys2Proof.Machine

/-- ARITH_FLAGS in the layout of R93; the VXU's VXU_FLAGS uses the same layout (R150). -/
abbrev AFlags := BitVec 8

namespace AFlags

/-- No flag. -/
def none : AFlags := 0#8
/-- Bit 0: an integer addition, result or conversion was clamped. -/
def saturated : AFlags := 0x01#8
/-- Bit 1: an integer result left its range and wrapped. -/
def wrapped : AFlags := 0x02#8
/-- Bit 2: a NaN was produced. -/
def nan : AFlags := 0x04#8
/-- Bit 3: an infinity was produced. -/
def inf : AFlags := 0x08#8
/-- Bit 4: a non-zero FP32 result below 2^-126 became +0 (R550). -/
def flushed : AFlags := 0x10#8

/-- Flags of several columns or elements combine with OR (R93). -/
def orAll (l : List AFlags) : AFlags := l.foldl (· ||| ·) 0#8

/-- The flag `f` where `b` holds. -/
def when (b : Bool) (f : AFlags) : AFlags := if b then f else 0#8

end AFlags

/-! ### Saturating counts and fields that a read clears (R9, R10) -/

/-- One more, saturating at the width (R10). -/
def satInc {w : Nat} (x : BitVec w) : BitVec w := if x.toNat + 1 < 2 ^ w then x + 1 else x

/-- More, saturating at the width (R10). -/
def satAdd {w : Nat} (x : BitVec w) (n : Nat) : BitVec w :=
  if x.toNat + n < 2 ^ w then BitVec.ofNat w (x.toNat + n) else BitVec.ofNat w (2 ^ w - 1)

/-- A saturating counter that a read clears: its value before the events of NCLK cycle `at_`, and those events. A read in
the cycle of an event returns the value before it, and the event stays counted (R9). -/
structure Rc (w : Nat) where
  old : BitVec w := 0#w
  at_ : Nat := 0
  new : Nat := 0
  deriving DecidableEq, Repr

def Rc.val {w : Nat} (x : Rc w) : BitVec w := satAdd x.old x.new

/-- Count `n` events in cycle `now`. -/
def Rc.add {w : Nat} (x : Rc w) (now n : Nat) : Rc w :=
  if x.at_ == now then { x with new := x.new + n } else { old := x.val, at_ := now, new := n }

def Rc.inc {w : Nat} (x : Rc w) (now : Nat) : Rc w := x.add now 1

/-- What a read in cycle `now` returns. -/
def Rc.seen {w : Nat} (x : Rc w) (now : Nat) : BitVec w := if x.at_ == now then x.old else x.val

/-- The counter after a read in cycle `now`. -/
def Rc.taken {w : Nat} (x : Rc w) (now : Nat) : Rc w := { old := 0#w, at_ := now, new := if x.at_ == now then x.new else 0 }

/-- Sticky flags that a read clears, in the same form. -/
structure RcFlags where
  old : AFlags := 0#8
  at_ : Nat := 0
  new : AFlags := 0#8
  deriving DecidableEq, Repr

def RcFlags.val (x : RcFlags) : AFlags := x.old ||| x.new

/-- Set flags in cycle `now`. -/
def RcFlags.set (x : RcFlags) (now : Nat) (f : AFlags) : RcFlags :=
  if x.at_ == now then { x with new := x.new ||| f } else { old := x.val, at_ := now, new := f }

def RcFlags.seen (x : RcFlags) (now : Nat) : AFlags := if x.at_ == now then x.old else x.val

def RcFlags.taken (x : RcFlags) (now : Nat) : RcFlags := { old := 0#8, at_ := now, new := if x.at_ == now then x.new else 0#8 }

/-- A largest value seen that a read clears, in the same form. -/
structure RcMax (w : Nat) where
  old : BitVec w := 0#w
  at_ : Nat := 0
  new : BitVec w := 0#w
  deriving DecidableEq, Repr

def RcMax.val {w : Nat} (x : RcMax w) : BitVec w := if x.old.ult x.new then x.new else x.old

/-- A value of cycle `now`, saturating at the width. -/
def RcMax.note {w : Nat} (x : RcMax w) (now n : Nat) : RcMax w :=
  let v : BitVec w := BitVec.ofNat w (min n (2 ^ w - 1))
  if x.at_ == now then { x with new := if x.new.ult v then v else x.new } else { old := x.val, at_ := now, new := v }

def RcMax.seen {w : Nat} (x : RcMax w) (now : Nat) : BitVec w := if x.at_ == now then x.old else x.val

def RcMax.taken {w : Nat} (x : RcMax w) (now : Nat) : RcMax w :=
  { old := 0#w, at_ := now, new := if x.at_ == now then x.new else 0#w }

/-! ### FIFOs of completion records (R121, R187, R200, R381) -/

/-- A 4-entry FIFO of completion records that overwrites its oldest: the records, oldest first, and LOST; and the NCLK cycle
of the last push with the FIFO before the pushes of that cycle and those pushes (R9). -/
structure DoneFifo where
  recs : List (BitVec 64) := []
  lost : Bool := false
  at_ : Nat := 0
  recs0 : List (BitVec 64) := []
  lost0 : Bool := false
  pushed : List (BitVec 64) := []
  deriving DecidableEq, Repr

/-- The FIFO before the pushes of cycle `now`, LOST, and those pushes. -/
def DoneFifo.start (f : DoneFifo) (now : Nat) : List (BitVec 64) × Bool × List (BitVec 64) :=
  if f.at_ == now then (f.recs0, f.lost0, f.pushed) else (f.recs, f.lost, [])

/-- The last four of a list of records, and LOST where there were more. -/
def DoneFifo.hold (l : List (BitVec 64)) (lost : Bool) : List (BitVec 64) × Bool :=
  (l.drop (l.length - 4), lost || decide (4 < l.length))

/-- Push a record in cycle `now`. -/
def DoneFifo.push (f : DoneFifo) (now : Nat) (r : BitVec 64) : DoneFifo :=
  let (l, x, p) := f.start now
  let (recs, lost) := DoneFifo.hold (f.recs ++ [r]) f.lost
  { recs := recs, lost := lost, at_ := now, recs0 := l, lost0 := x, pushed := p ++ [r] }

/-- What a read in cycle `now` returns: the record that was oldest before the pushes of the cycle, with LOST in bit `lo`, or
zero. -/
def DoneFifo.value (f : DoneFifo) (now lo : Nat) : Nat :=
  let (l, x, _) := f.start now
  match l with
  | [] => 0
  | r :: _ => r.toNat + (if x then 2 ^ lo else 0)

/-- The FIFO after a read in cycle `now`: the record read is gone, and LOST with it. -/
def DoneFifo.taken (f : DoneFifo) (now : Nat) : DoneFifo :=
  let (l, _, p) := f.start now
  match l with
  | [] => f
  | _ :: rest =>
    let (recs, lost) := DoneFifo.hold (rest ++ p) false
    { recs := recs, lost := lost, at_ := now, recs0 := rest, lost0 := false, pushed := p }

end Sys2Proof.Machine
end

