-- ==== Sys2Proof/Machine/Operands.lean ====
section
/-!
DEFINITION. The operand forms: element formats (R78 to R81), their limbs (R82), exact values, rounding and
conversion (R94 to R96, R550), and the packing of elements into tokens (R80). Values are exact: a sign, a natural
magnitude and a power of two. Every result of a unit is an exact value rounded once where the manual rounds.
-/
namespace Sys2Proof.Machine

/-- An exact operand or result: NaN, an infinity, or plus or minus `m * 2 ^ e`. The sign of a zero is kept. -/
inductive Val where
  | nan
  | inf (neg : Bool)
  | fin (neg : Bool) (m : Nat) (e : Int)
  deriving DecidableEq, Repr

/-- Format codes of R78 that are formats (codes 14 and 15 are malformed, R5). -/
def fmtValid (c : Nat) : Bool := c ≤ 13

/-- Element width in bits (R78); the scale of an MX format lies outside the element (R81). -/
def fmtWidth (c : Nat) : Nat :=
  match c with
  | 0 => 4 | 1 => 8 | 2 => 16 | 3 => 32 | 4 => 8 | 5 => 8 | 6 => 16 | 7 => 16 | 8 => 32
  | 9 => 8 | 10 => 8 | 11 => 8 | 12 => 4 | 13 => 2 | _ => 32

/-- INT4 to INT32 (R78). -/
def fmtIsInt (c : Nat) : Bool := c ≤ 3

/-- MXINT8, MXFP8 and MXFP4: formats with a shared scale (R79). -/
def fmtIsMx (c : Nat) : Bool := 9 ≤ c && c ≤ 12

/-- Exponent bits of a float format's layout (R78). -/
def fmtExpBits (c : Nat) : Nat :=
  match c with
  | 4 => 4 | 5 => 5 | 6 => 8 | 7 => 5 | 8 => 8 | 10 => 4 | 11 => 5 | 12 => 2 | _ => 0

/-- Exponent bias (R78). -/
def fmtBias (c : Nat) : Int :=
  match c with
  | 4 => 7 | 5 => 15 | 6 => 127 | 7 => 15 | 8 => 127 | 10 => 7 | 11 => 15 | 12 => 1 | _ => 0

/-- Significand bits P (R78). -/
def fmtP (c : Nat) : Nat :=
  match c with
  | 4 => 4 | 5 => 3 | 6 => 8 | 7 => 11 | 8 => 24 | 10 => 4 | 11 => 3 | 12 => 2 | _ => 0

/-- Two's complement value of the low `w` bits. -/
def signedOf (w x : Nat) : Int :=
  let y := x % 2 ^ w
  if y < 2 ^ (w - 1) then (y : Int) else (y : Int) - (2 ^ w : Nat)

/-- The low `w` bits of an integer, two's complement. -/
def unsignedOf (w : Nat) (v : Int) : Nat := (v % ((2 ^ w : Nat) : Int)).toNat

/-- An integer as an exact value; integer zero is +0. -/
def Val.ofInt (v : Int) : Val := .fin (decide (v < 0)) v.natAbs 0

/-- A float element as an exact value (R78): the fields, the specials of its format, subnormals exact. -/
def decodeFloat (c x : Nat) : Val :=
  let p := fmtP c
  let eb := fmtExpBits c
  let fr := x % 2 ^ (p - 1)
  let ex := x / 2 ^ (p - 1) % 2 ^ eb
  let neg := x / 2 ^ (p - 1 + eb) % 2 == 1
  let top := ex == 2 ^ eb - 1
  if (c == 4 || c == 10) && top && fr == 2 ^ (p - 1) - 1 then .nan
  else if (c == 5 || c == 6 || c == 7 || c == 8 || c == 11) && top then (if fr == 0 then .inf neg else .nan)
  else if ex == 0 then .fin neg fr (1 - fmtBias c - ((p : Int) - 1))
  else .fin neg (fr + 2 ^ (p - 1)) ((ex : Int) - fmtBias c - ((p : Int) - 1))

/-- The exact value of an element `x` of format `c`, without any block scale (R78). -/
def decodeEl (c x : Nat) : Val :=
  if fmtIsInt c then .ofInt (signedOf (fmtWidth c) x)
  else if c == 9 then
    let v := signedOf 8 x
    .fin (decide (v < 0)) v.natAbs (-6)
  else if c == 13 then
    (match x % 4 with
     | 1 => .fin false 1 0
     | 3 => .fin true 1 0
     | _ => .fin false 0 0)
  else decodeFloat c x

/-- A value times 2 ^ (X - 127) under an E8M0 scale; scale 0xFF is NaN (R79). -/
def Val.scaled (v : Val) (x : Nat) : Val :=
  if x == 255 then .nan
  else match v with
    | .fin s m e => .fin s m (e + (x : Int) - 127)
    | w => w

/-- Rounding modes of R94. -/
inductive Round where
  | rne | rtz | stoch
  deriving DecidableEq, Repr

/-- The 2-bit ROUND field; code 3 is malformed and reads as RTZ only in fields the loader refused. -/
def Round.ofCode (c : Nat) : Round := match c % 4 with | 0 => .rne | 2 => .stoch | _ => .rtz

/-- Magnitude `m * 2 ^ e` as a multiple of `2 ^ q`, rounded under the mode (R94); `rnd` is the 16-bit value of STOCH. -/
def roundTo (r : Round) (rnd : Nat) (m : Nat) (e q : Int) : Nat :=
  if q ≤ e then m * 2 ^ (e - q).toNat
  else
    let sh := (q - e).toNat
    let lo := m % 2 ^ sh
    let hi := m / 2 ^ sh
    match r with
    | .rtz => hi
    | .rne => if 2 * lo > 2 ^ sh then hi + 1 else if 2 * lo == 2 ^ sh then hi + hi % 2 else hi
    | .stoch => hi + (lo * 2 ^ 16 / 2 ^ sh + rnd % 2 ^ 16) / 2 ^ 16

/-- Binary exponent of a non-zero magnitude: the weight of its most significant bit. -/
def magExp (m : Nat) (e : Int) : Int := (Nat.log2 m : Int) + e

/-- A non-zero magnitude rounded to `p` significand bits with no lower exponent limit: the pair (significand,
exponent) with the significand below 2 ^ p (R550.1). -/
def roundSig (r : Round) (rnd p m : Nat) (e : Int) : Nat × Int :=
  let q := magExp m e - ((p : Int) - 1)
  let n := roundTo r rnd m e q
  if n == 2 ^ p then (2 ^ (p - 1), q + 1) else (n, q)

/-- Largest finite magnitude of a float target as significand and exponent (R78). -/
def fmtMax (c : Nat) : Nat × Int :=
  match c with
  | 4 => (14, 5) | 10 => (14, 5) | 5 => (7, 13) | 11 => (7, 13) | 6 => (255, 120) | 7 => (2047, 5) | 8 => (2 ^ 24 - 1, 104)
  | 12 => (3, 1) | _ => (0, 0)

/-- `a * 2 ^ x > b * 2 ^ y` exactly. -/
def magGt (a : Nat) (x : Int) (b : Nat) (y : Int) : Bool :=
  if x ≤ y then a > b * 2 ^ (y - x).toNat else a * 2 ^ (x - y).toNat > b

/-- Sign bit of a float element of format `c`. -/
def signBit (c : Nat) (neg : Bool) : Nat := if neg then 2 ^ (fmtWidth c - 1) else 0

/-- The canonical NaN of a float target (R95). -/
def fmtNan (c : Nat) : Nat :=
  match c with
  | 4 => 0x7F | 10 => 0x7F | 5 => 0x7E | 11 => 0x7E | 6 => 0x7FC0 | 7 => 0x7E00 | 8 => 0x7FC00000 | _ => 0

/-- Infinity of a float target that has one; FP8_E4M3 has none and gives its NaN (R95). -/
def fmtInf (c : Nat) (neg : Bool) : Nat :=
  match c with
  | 4 => 0x7F | 10 => 0x7F
  | 5 => 0x7C + signBit c neg | 11 => 0x7C + signBit c neg
  | 6 => 0x7F80 + signBit c neg | 7 => 0x7C00 + signBit c neg | 8 => 0x7F800000 + signBit c neg | _ => 0

/-- Bits of a finite magnitude `n * 2 ^ q` that the target holds exactly. -/
def packFloat (c : Nat) (neg : Bool) (n : Nat) (q : Int) : Nat :=
  let p := fmtP c
  if n == 0 then signBit c neg
  else
    let ex := magExp n q
    let emin := 1 - fmtBias c
    if ex < emin then
      signBit c neg + roundTo .rtz 0 n q (emin - ((p : Int) - 1))
    else
      let sig := roundTo .rtz 0 n q (ex - ((p : Int) - 1))
      signBit c neg + (ex + fmtBias c).toNat * 2 ^ (p - 1) + sig % 2 ^ (p - 1)

/-- The largest finite element of a float target. -/
def fmtMaxBits (c : Nat) (neg : Bool) : Nat := packFloat c neg (fmtMax c).1 (fmtMax c).2

/-- What an overflow of a float target gives (R95), with its flags. -/
def overflowFloat (c : Nat) (sat neg : Bool) : Nat × AFlags :=
  if sat then (fmtMaxBits c neg, AFlags.saturated)
  else (fmtInf c neg, if c == 4 || c == 10 then AFlags.nan else AFlags.inf)

/-- Conversion of an exact value to a float target (R94, R95, R550), with its flags. -/
def encodeFloat (c : Nat) (r : Round) (sat : Bool) (rnd : Nat) (v : Val) : Nat × AFlags :=
  match v with
  | .nan => (fmtNan c, AFlags.nan)
  | .inf neg =>
    if sat then (fmtMaxBits c neg, AFlags.saturated)
    else (fmtInf c neg, if c == 4 || c == 10 then AFlags.nan else AFlags.inf)
  | .fin neg m e =>
    if m == 0 then (signBit c neg, AFlags.none)
    else
      let p := fmtP c
      let emin := 1 - fmtBias c
      if c == 8 then
        let (n, q) := roundSig r rnd p m e
        if magExp n q < emin then (0, AFlags.flushed)
        else if magGt n q (fmtMax c).1 (fmtMax c).2 then overflowFloat c sat neg
        else (packFloat c neg n q, AFlags.none)
      else
        let q := max (magExp m e) emin - ((p : Int) - 1)
        let n := roundTo r rnd m e q
        if n != 0 && magGt n q (fmtMax c).1 (fmtMax c).2 then overflowFloat c sat neg
        else (packFloat c neg n q, AFlags.none)

/-- Least and greatest value of an integer format of width `w`. -/
def intMin (w : Nat) : Int := -((2 ^ (w - 1) : Nat) : Int)
def intMax (w : Nat) : Int := ((2 ^ (w - 1) : Nat) : Int) - 1

/-- Clamp to the range of width `w`; true where it changed the value. -/
def clampInt (w : Nat) (v : Int) : Int × Bool :=
  if v < intMin w then (intMin w, true) else if v > intMax w then (intMax w, true) else (v, false)

/-- Conversion of an exact value to an integer target: rounded, then clamped whatever the overflow mode (R95, R139). -/
def encodeInt (w : Nat) (r : Round) (rnd : Nat) (v : Val) : Nat × AFlags :=
  match v with
  | .nan => (0, AFlags.none)
  | .inf neg => (unsignedOf w (if neg then intMin w else intMax w), AFlags.saturated)
  | .fin neg m e =>
    let n := roundTo r rnd m e 0
    let (x, cl) := clampInt w (if neg then -(n : Int) else (n : Int))
    (unsignedOf w x, AFlags.when cl AFlags.saturated)

/-- TERN2 from a value (R139): the sign, and 0 for zeros and NaN. -/
def encodeTern (v : Val) : Nat :=
  match v with
  | .nan => 0
  | .inf neg => if neg then 3 else 1
  | .fin neg m _ => if m == 0 then 0 else if neg then 3 else 1

/-- Conversion of an exact value to any element format of R78 without a scale; MX elements are converted as their
element format (R96). -/
def encodeEl (c : Nat) (r : Round) (sat : Bool) (rnd : Nat) (v : Val) : Nat × AFlags :=
  if fmtIsInt c then encodeInt (fmtWidth c) r rnd v
  else if c == 13 then (encodeTern v, AFlags.none)
  else if c == 9 then
    encodeInt 8 r rnd (match v with | .fin s m e => .fin s m (e + 6) | w => w)
  else encodeFloat c r sat rnd v

/-- Exact sum (R88, R137): IEEE zero signs for round to nearest and toward zero. -/
def Val.add (a b : Val) : Val :=
  match a, b with
  | .nan, _ => .nan
  | _, .nan => .nan
  | .inf s, .inf t => if s == t then .inf s else .nan
  | .inf s, .fin _ _ _ => .inf s
  | .fin _ _ _, .inf t => .inf t
  | .fin s m e, .fin t n f =>
    let g := min e f
    let x : Int := (m * 2 ^ (e - g).toNat : Nat)
    let y : Int := (n * 2 ^ (f - g).toNat : Nat)
    let z := (if s then -x else x) + (if t then -y else y)
    if z == 0 then .fin (s && t && m == 0 && n == 0) 0 0
    else .fin (decide (z < 0)) z.natAbs g

def Val.neg : Val → Val
  | .nan => .nan
  | .inf s => .inf (!s)
  | .fin s m e => .fin (!s) m e

def Val.abs : Val → Val
  | .nan => .nan
  | .inf _ => .inf false
  | .fin _ m e => .fin false m e

/-- Exact product; an infinity times zero is NaN (R137). -/
def Val.mul (a b : Val) : Val :=
  match a, b with
  | .nan, _ => .nan
  | _, .nan => .nan
  | .inf s, .inf t => .inf (s != t)
  | .inf s, .fin t n _ => if n == 0 then .nan else .inf (s != t)
  | .fin s m _, .inf t => if m == 0 then .nan else .inf (s != t)
  | .fin s m e, .fin t n f => .fin (s != t) (m * n) (e + f)

/-- Is the value a zero of either sign? -/
def Val.isZero : Val → Bool
  | .fin _ m _ => m == 0
  | _ => false

def Val.isNan : Val → Bool
  | .nan => true
  | _ => false

def Val.isNeg : Val → Bool
  | .nan => false
  | .inf s => s
  | .fin s m _ => s && m != 0

/-- Signed integer at a common exponent, for comparing. -/
def Val.scaleTo (g : Int) : Val → Int
  | .fin s m e => let x : Int := (m * 2 ^ (e - g).toNat : Nat); if s then -x else x
  | _ => 0

/-- IEEE `a < b`; false with a NaN, and the zeros are equal (R138). -/
def Val.lt (a b : Val) : Bool :=
  match a, b with
  | .nan, _ => false
  | _, .nan => false
  | .inf s, .inf t => s && !t
  | .inf s, .fin _ _ _ => s
  | .fin _ _ _, .inf t => !t
  | .fin s m e, .fin t n f =>
    let g := min e f
    decide (Val.scaleTo g (.fin s m e) < Val.scaleTo g (.fin t n f))

/-- IEEE `a = b` (R138). -/
def Val.eq (a b : Val) : Bool :=
  match a, b with
  | .nan, _ => false
  | _, .nan => false
  | .inf s, .inf t => s == t
  | .inf _, .fin _ _ _ => false
  | .fin _ _ _, .inf _ => false
  | .fin s m e, .fin t n f =>
    let g := min e f
    decide (Val.scaleTo g (.fin s m e) = Val.scaleTo g (.fin t n f))

/-- `a` below `b` in the order of MIN and MAX, where −0 is below +0 (R137). -/
def Val.below (a b : Val) : Bool :=
  if Val.eq a b then
    (match a, b with
     | .fin s 0 _, .fin t 0 _ => s && !t
     | _, _ => false)
  else Val.lt a b

/-- MIN and MAX of R137: NaN if any operand is NaN. -/
def Val.min (a b : Val) : Val := if a.isNan || b.isNan then .nan else if Val.below b a then b else a
def Val.max (a b : Val) : Val := if a.isNan || b.isNan then .nan else if Val.below a b then b else a

/-! ### MX blocks (R96) -/

/-- The E8M0 scale of a block of 32 values for an element format with e_max (R96). -/
def mxScale (emax : Int) (vs : List Val) : Nat :=
  if vs.any (fun v => match v with | .fin _ _ _ => false | _ => true) then 0xFF
  else if vs.all Val.isZero then 0
  else
    let top := vs.foldl (fun acc v => match v with
      | .fin _ m e => if m == 0 then acc else (match acc with
          | none => some (magExp m e)
          | some x => some (max x (magExp m e)))
      | _ => acc) (none : Option Int)
    match top with
    | none => 0
    | some x => (min 254 (max 0 (x - emax + 127))).toNat

/-- e_max of an MX element format (R96). -/
def mxEmax (c : Nat) : Int := match c with | 10 => 8 | 11 => 15 | 12 => 2 | _ => 0

/-- A block of 32 values quantised: the scale byte, the elements and their flags (R96). DESIGN CHOICE (log entry 76): a block
with the scale 0xFF sets no flag. -/
def mxBlock (c : Nat) (r : Round) (rnd : Nat → Nat) (vs : List Val) : Nat × List (Nat × AFlags) :=
  let x := mxScale (mxEmax c) vs
  if x == 0xFF then (x, vs.map fun _ => (0, AFlags.none))
  else if vs.all Val.isZero then (0, vs.map fun _ => (0, AFlags.none))
  else (x, (vs.zip (List.range vs.length)).map fun (v, i) =>
    encodeEl c r true (rnd i) (match v with | .fin s m e => .fin s m (e - (x : Int) + 127) | w => w))

/-! ### Tokens and packing -/

/-- A token: its kind (R46) and its 64 lanes (R45). -/
structure Token where
  kind : BitVec 3
  lanes : Vector Word 64
  deriving DecidableEq, Repr

/-- Lane `n` of a token. -/
def Token.lane (t : Token) (n : Nat) : Word := (t.lanes[n]?).getD 0#32

/-- A token from its kind and a function of the lane number. -/
def Token.ofFn (k : BitVec 3) (f : Nat → Word) : Token := ⟨k, Vector.ofFn fun i => f i.val⟩

/-- A DATA token of zeros. -/
def Token.zero : Token := ⟨0#3, Vector.replicate 64 0#32⟩

/-- Element `j` of width `w` of a token (R80). -/
def Token.elem (t : Token) (w j : Nat) : Nat :=
  (t.lane (j / (32 / w))).toNat / 2 ^ (w * (j % (32 / w))) % 2 ^ w

/-- Element `j` of width `w` of a sequence of tokens. -/
def elemAt (ts : List Token) (w j : Nat) : Nat :=
  let per := 64 * (32 / w)
  match ts[j / per]? with
  | some t => t.elem w (j % per)
  | none => 0

/-- A lane from its elements of width `w`, element 0 lowest (R80). -/
def laneOf (w : Nat) (es : List Nat) : Word :=
  BitVec.ofNat 32 ((es.zip (List.range es.length)).foldl (fun acc (e, i) => acc + (e % 2 ^ w) * 2 ^ (w * i)) 0)

/-- Elements of width `w` packed into whole DATA tokens, the last zero-filled (R80). -/
def packTokens (w : Nat) (es : List Nat) : List Token :=
  let per := 64 * (32 / w)
  let r := 32 / w
  (List.range ((es.length + per - 1) / per)).map fun t =>
    let tes := (es.drop (t * per)).take per
    Token.ofFn 0#3 fun n => laneOf w ((tes.drop (n * r)).take r)

/-- The elements of one token, in order. -/
def Token.elems (t : Token) (w : Nat) : List Nat := (List.range (64 * (32 / w))).map (t.elem w)

/-- The 256 bytes of a token, lane 0 first, little-endian (R45, R4). -/
def Token.bytes (t : Token) : Bytes :=
  (List.range 256).map fun i => BitVec.ofNat 8 ((t.lane (i / 4)).toNat / 2 ^ (8 * (i % 4)))

/-- The DATA token of 256 bytes; missing bytes read as zero. -/
def Token.ofBytes (k : BitVec 3) (bs : Bytes) : Token :=
  Token.ofFn k fun n => BitVec.ofNat 32
    (((bs.drop (4 * n)).take 4).foldr (fun b acc => acc * 256 + b.toNat) 0)

/-! ### Limbs of the matrix unit (R82, R83) -/

/-- An MXU operand element as the array sees it: special, or signed limbs with their exponents. A product of two
limbs is an integer and an exponent. -/
inductive Limbs where
  | nan
  | inf (neg : Bool)
  | fin (ls : List (Int × Int))
  deriving DecidableEq, Repr

/-- The signed limbs and limb exponents of an element (R82); `x` is the block scale of an MX element. INT16 limbs
carry their own pass weight as exponent 8 and 0 (R83). -/
def limbsOf (c el : Nat) (x : Nat) : Limbs :=
  let off : Int := if fmtIsMx c then (x : Int) - 127 else 0
  if fmtIsMx c && x == 255 then .nan
  else if c == 0 || c == 1 then .fin [(signedOf (fmtWidth c) el, 0)]
  else if c == 2 then .fin [(signedOf 8 (el / 256), 8), (((el % 256 : Nat) : Int), 0)]
  else if c == 9 then .fin [(signedOf 8 el, off - 6)]
  else match decodeFloat c el with
    | .nan => .nan
    | .inf s => .inf s
    | .fin s m e =>
      let p := fmtP c
      let n := if c == 7 then 2 else if c == 8 then 3 else 1
      let just := m * 2 ^ (8 * n - p)
      let ex := e + ((p : Int) - 1)
      .fin ((List.range n).map fun j =>
        let l : Int := ((just / 2 ^ (8 * (n - 1 - j)) % 256 : Nat) : Int)
        (if s then -l else l, ex - 7 - 8 * (j : Int) + off))

/-- Passes of an operand pair in order (R83), or none where the pair is not in the table (R84). -/
def passesOf (a w : Nat) : Option (List (Nat × Nat)) :=
  let one (c : Nat) := c == 4 || c == 5 || c == 6 || (9 ≤ c && c ≤ 12)
  if (a == 0 || a == 1) && (w == 0 || w == 1) then some [(0, 0)]
  else if one a && one w then some [(0, 0)]
  else if a == 7 && w == 7 then some [(0, 0), (0, 1), (1, 0)]
  else if a == 2 && w == 2 then some [(0, 0), (0, 1), (1, 0), (1, 1)]
  else if a == 8 && w == 8 then some [(0, 0), (0, 1), (1, 0), (0, 2), (1, 1), (2, 0)]
  else none

/-- INT4 by INT4 and MXFP4 by MXFP4 run in dual-half-cell mode (R83). -/
def dualHalf (a w : Nat) : Bool := (a == 0 && w == 0) || (a == 12 && w == 12)

/-- The accumulator type of a pair: true for F32, false for INT32 (R83). -/
def pairIsFloat (a _w : Nat) : Bool := !(fmtIsInt a)

/-- Special products of one group (R90). -/
def limbsZero : Limbs → Bool
  | .fin ls => ls.all fun l => l.1 == 0
  | _ => false

/-- The sign of a special product. -/
def limbsNeg : Limbs → Bool
  | .inf s => s
  | .fin ls => match ls.find? (fun l => l.1 != 0) with
    | some l => decide (l.1 < 0)
    | none => false
  | .nan => false

/-- The product of two operands as the side path sees it (R90): none where it is finite. -/
def specialProduct (a b : Limbs) : Option Val :=
  match a, b with
  | .nan, _ => some .nan
  | _, .nan => some .nan
  | .fin _, .fin _ => none
  | x, y => if limbsZero x || limbsZero y then some .nan else some (.inf (limbsNeg x != limbsNeg y))

/-- The special result of a group, if any (R90): the first row of the table that applies. -/
def groupSpecial (ps : List (Limbs × Limbs)) : Option Val :=
  let sp := ps.filterMap fun (a, b) => specialProduct a b
  if sp.isEmpty then none
  else if sp.contains .nan then some .nan
  else if sp.contains (.inf false) && sp.contains (.inf true) then some .nan
  else sp.head?

/-- The limb product of pass (i, j) of two finite operands; a special operand contributes zero (R91). -/
def limbProduct (i j : Nat) (a b : Limbs) : Int × Int :=
  match a, b with
  | .fin xs, .fin ys =>
    (match xs[i]?, ys[j]? with
     | some (x, e), some (y, f) => (x * y, e + f)
     | _, _ => (0, 0))
  | _, _ => (0, 0)

/-- Truncation of a product to multiples of 2 ^ q, toward zero (R86). -/
def truncTo (q : Int) (s e : Int) : Int :=
  let m := roundTo .rtz 0 s.natAbs e q
  if s < 0 then -(m : Int) else (m : Int)

/-- The finite group sum of one pass (R86, R87): exact for integers; for floats aligned to the group's largest
exponent with six guard bits. -/
def groupSum (isFloat : Bool) (i j : Nat) (ps : List (Limbs × Limbs)) : Val :=
  let prods := ps.map fun (a, b) => limbProduct i j a b
  if isFloat then
    let nz := prods.filter fun p => p.1 != 0
    match nz with
    | [] => .fin false 0 0
    | p :: rest =>
      let top := rest.foldl (fun acc q => max acc q.2) p.2
      let q := top - 6
      let sum := nz.foldl (fun acc p => acc + truncTo q p.1 p.2) 0
      .fin (decide (sum < 0)) sum.natAbs q
  else
    let sum := prods.foldl (fun acc p => acc + p.1 * ((2 ^ p.2.toNat : Nat) : Int)) 0
    .ofInt sum

/-- The result of one group in one pass: the side path decides in pass (0,0) only (R90, R91). -/
def groupResult (isFloat : Bool) (i j : Nat) (ps : List (Limbs × Limbs)) : Val :=
  if isFloat && i == 0 && j == 0 then (groupSpecial ps).getD (groupSum isFloat i j ps)
  else groupSum isFloat i j ps

/-- One addition of a group result into an F32 entry (R88, R92), with its flags. A flag is raised by the addition
that makes the entry NaN or infinite. -/
def accAddF32 (entry : Nat) (g : Val) : Nat × AFlags :=
  let old := decodeEl 8 entry
  let v := Val.add old g
  let v := (match v with | .fin _ 0 _ => .fin false 0 0 | x => x)
  let (bits, fl) := encodeFloat 8 .rtz false 0 v
  let was := (match old with | .nan => AFlags.nan | .inf _ => AFlags.inf | _ => 0#8)
  (bits, fl &&& ~~~was)

/-- One addition into an INT32 entry (R89): WRAP keeps the low 32 bits, SATURATE clamps. -/
def accAddInt (saturate : Bool) (entry : Nat) (g : Val) : Nat × AFlags :=
  let gi := Val.scaleTo 0 g
  let v := signedOf 32 entry + gi
  let (c, cl) := clampInt 32 v
  if saturate then (unsignedOf 32 c, AFlags.when cl AFlags.saturated)
  else (unsignedOf 32 v, AFlags.when cl AFlags.wrapped)

end Sys2Proof.Machine
end

