-- ==== Sys2Proof/Machine/GridParts.lean ====
section
/-!
DEFINITION. State of the unit grid of one tile: unit positions with their queues (R49 to R55), the vector units
(R125, R135, R150) and the matrix unit (R101, R109, R119 to R121), as plain data. Every default value is the value
right after reset.
-/
namespace Sys2Proof.Machine

/-- A token in a link queue or on the link before it: the ACLK cycle from which it can be used (R50), and whether it
failed its parity check and is held (R65). -/
structure LinkTok where
  tok : Token
  avail : Nat
  bad : Bool := false
  deriving DecidableEq, Repr

/-- One unit position of a patch (R28): its link switch word, its unit's configuration and its token storage. -/
structure Pos where
  /-- Link switch word (R52). -/
  switch : BitVec 16 := 0#16
  /-- The unit's configuration record: grid firing header first (R55), the VXU record (R125) or the MSU record. -/
  cfg : BitVec 1024 := 0#1024
  /-- Firings completed in the phase (R76, R152). -/
  fired : Nat := 0
  /-- ACLK cycle of the last firing, for the initiation interval (R58). -/
  lastFire : Option Nat := none
  /-- Link queues by incoming side N, E, S, W: at most 4 tokens, oldest first, in flight ones included (R49). -/
  linkQ : Vector (List LinkTok) 4 := Vector.replicate 4 []
  /-- Cycles from which freed link queue entries are credits of the sender again (R51). -/
  freed : Vector (List Nat) 4 := Vector.replicate 4 []
  /-- Cycle of the last move out of each link queue (R51). -/
  lastMove : Vector (Option Nat) 4 := Vector.replicate 4 none
  /-- Unit input queues IN[0..3], at most 8 tokens (R49). -/
  inQ : Vector (List Token) 4 := Vector.replicate 4 []
  /-- Entries consumed in the named cycle, free from its end (R51). -/
  inFreed : Vector (Nat × Nat) 4 := Vector.replicate 4 (0, 0)
  /-- Pass-through registers by outgoing side (R50). -/
  passReg : Vector (Option LinkTok) 4 := Vector.replicate 4 none
  /-- Cycle in which each pass-through register emptied last (R50). -/
  passEmptied : Vector (Option Nat) 4 := Vector.replicate 4 none
  /-- Committed and buffered output tokens with the cycle each is due (R59, R60). -/
  outQ : Vector (List (Nat × Token)) 4 := Vector.replicate 4 []
  /-- Tokens emitted from each output in the named cycle: their room is free from its end (R59). -/
  outFreed : Vector (Nat × Nat) 4 := Vector.replicate 4 (0, 0)
  /-- Cycle of the last token sent on each outgoing side (R49). -/
  lastSent : Vector (Option Nat) 4 := Vector.replicate 4 none
  /-- Link parity errors counted (R65). -/
  parityErrs : Nat := 0
  deriving DecidableEq, Repr

/-- A vector unit's state beside its configuration (R135, R150, R152). -/
structure Vxu where
  regs : Vector Token 8 := Vector.replicate 8 Token.zero
  preds : Vector (BitVec 256) 2 := Vector.replicate 2 0#256
  /-- Constant store, 64 entries of 256 B (R135). -/
  consts : Vector Token 64 := Vector.replicate 64 Token.zero
  flags : RcFlags := {}
  /-- Vectors of each stage since the row start (R131). -/
  tcount : Vector Nat 6 := Vector.replicate 6 0
  /-- Its generator has been seeded since the commit (R151, R480). -/
  seeded : Bool := false
  deriving DecidableEq, Repr

/-- An MXU step that is running or pending (R120): its descriptor and the context that issued it. -/
structure MxuStep where
  desc : BitVec 256
  ctx : CtxId
  deriving DecidableEq, Repr

/-- A block whose values wait to drain (R110, R114). -/
structure DrainBlk where
  /-- Accumulator row of the block's first row. -/
  base : Nat
  rows : Nat
  n0 : Nat
  width : Nat
  /-- Half of the store that the block uses in DOUBLE and THIN (R109). -/
  half : Nat
  /-- Cycle of the block's last accumulator update (R108). -/
  ready : Nat
  /-- Tokens emitted so far on drain 0 and drain 1. -/
  sent0 : Nat := 0
  sent1 : Nat := 0
  deriving DecidableEq, Repr

/-- The matrix unit (R101 to R121). -/
structure Mxu where
  running : Option MxuStep := none
  pending : Option MxuStep := none
  /-- Cycle in which the running step became the running step (R121). -/
  since : Nat := 0
  /-- Number of the chunk whose weights are active plus one; 0 before the first swap of the step. -/
  active : Nat := 0
  /-- Next row of that chunk (R102). -/
  row : Nat := 0
  /-- Weight tokens of the active and the shadow store, with their place in the block's sequence (R101, R105). -/
  activeToks : List (Nat × Token) := []
  shadow : List (Nat × Token) := []
  /-- Weight tokens taken by the weight port, and by the A port in THIN, for the block in the shadow (R107, R118). -/
  wTaken : Nat := 0
  wTakenA : Nat := 0
  /-- A tokens taken for the chunk whose next row slot comes (R104). -/
  aToks : List Token := []
  /-- The A hold of a THIN step (R118). -/
  hold : List Token := []
  /-- Cycle in which the next row slot may start (R102, R107). -/
  slotFree : Nat := 0
  /-- Last accumulator update of the step so far (R108). -/
  lastUpdate : Nat := 0
  /-- Blocks waiting to drain, oldest first (R112). -/
  drains : List DrainBlk := []
  /-- Blocks of the running step that have been handed to the drain. -/
  blocksDone : Nat := 0
  /-- Accumulator entries that are not zero, by entry number, in rising order (R109). -/
  acc : List (Nat × Word) := []
  /-- Cycle of the step's first port firing (R119), and of its last drain emission (R121). -/
  firstFire : Option Nat := none
  /-- Cycle of the pending step's first port firing: its first weights load early (R113, R119). -/
  pendFire : Option Nat := none
  lastDrain : Nat := 0
  /-- Sticky flags of the running step (R93). -/
  flags : AFlags := 0#8
  heldFold : BitVec 2 := 0#2
  heldType : Bool := false
  /-- Completion records, at most four, oldest first (R121). -/
  done : DoneFifo := {}
  /-- Steps completed in the phase, against FIRE_COUNT (R103). -/
  stepCount : Word := 0#32
  /-- The drain generators have been seeded for the running step (R115, R480). -/
  seeded : Bool := false
  /-- A fault has stopped the unit (R124). -/
  stopped : Bool := false
  /-- ACLK cycle of the last weight swap (R107). -/
  swapAt : Option Nat := none
  /-- ACLK cycle of the last row slot's start, and of each port's last firing: A, weight, drain 0, drain 1. -/
  slotAt : Option Nat := none
  portLast : Vector (Option Nat) 4 := Vector.replicate 4 none
  deriving DecidableEq, Repr

end Sys2Proof.Machine
end

