-- ==== Sys2Proof/Machine/MemoryParts.lean ====
section
/-!
DEFINITION. State of a tile's scratchpad and memory stream units (R155 to R190), of its loft movers and update paths
(R197 to R200, R273 to R285), and of a loft controller (R191 to R214), as plain data. Every default value is the
value right after reset.
-/
namespace Sys2Proof.Machine

/-- Byte-addressed memory in canonical form: addresses strictly rising, no entry equal to what an unlisted address
reads as, which is zero (R166, R532). -/
abbrev Mem := List Host.Cell

/-- A descriptor that a generator, mover or update path holds: its bytes as a number and the context that issued it. -/
structure Issued where
  desc : Nat
  ctx : CtxId
  /-- Clock cycle of the issue, for samples (R517). -/
  at_ : Nat := 0
  deriving DecidableEq, Repr

/-- A read or write generator of an MSU (R177 to R187). -/
structure Gen where
  running : Option Issued := none
  pending : Option Issued := none
  /-- ACLK cycle in which the running descriptor became the running one (R185). -/
  since : Nat := 0
  /-- Next primary run of the pattern, and accesses of it already granted (R159, R178). -/
  run : Nat := 0
  part : Nat := 0
  /-- Primary bytes requested or consumed, padding included (R180). -/
  bytes : Nat := 0
  /-- Index tokens taken, and the one in the index buffer with its number (R176, R181). -/
  idxTaken : Nat := 0
  idxBuf : Option (Nat × Token) := none
  /-- Secondary runs done, runs of the current secondary token done, and secondary tokens requested (R182, R183). -/
  secRun : Nat := 0
  secIn : Nat := 0
  secPart : Nat := 0
  secTok : Nat := 0
  /-- Primary and secondary tokens emitted on OUT[0]; the ACLK cycle of the last emission (R187). -/
  outPrim : Nat := 0
  outSec : Nat := 0
  lastAt : Nat := 0
  /-- Header of the record being read, with the cycle from which it is known (R173). -/
  recHdr : Option (BitVec 64 × Nat) := none
  /-- A wrap's SKIP record has been written for the record in progress (R172). -/
  skipped : Bool := false
  accesses : Nat := 0
  /-- Scratchpad address or region offset of the pattern's first primary access (R517). -/
  first : Option Nat := none
  stopped : Bool := false
  deriving DecidableEq, Repr

/-- Bytes that wait for the MSU's write port: the job they belong to, and the scratchpad address, or the offset in the
mover's stream for a write at HEAD of region `region`. -/
structure InWrite where
  seq : Nat
  at_ : Nat
  region : Option Nat := none
  bytes : Bytes
  deriving DecidableEq, Repr

/-- A transfer that a mover has begun and that has not completed (R200). -/
structure MvJob where
  issued : Issued
  seq : Nat
  since : Nat
  /-- 64-byte units moved to or from DRAM, and bytes still outstanding. -/
  units : Nat := 0
  outstanding : Nat := 0
  /-- Its last request has been issued. -/
  sent : Bool := false
  deriving DecidableEq, Repr

/-- A loft mover (R197 to R200). -/
structure Mover where
  running : Option Issued := none
  pending : Option Issued := none
  /-- Number of the running descriptor, and the transfers not yet complete, oldest first. -/
  seq : Nat := 0
  jobs : List MvJob := []
  /-- Row and byte within the row of the next DRAM request (R198, R199). -/
  row : Nat := 0
  off : Nat := 0
  /-- Row and byte within the row of the next scratchpad read of a STORE. -/
  rdRow : Nat := 0
  rdOff : Nat := 0
  /-- Index list bytes read so far (R198). -/
  idx : Bytes := []
  /-- Outbound buffer: bytes read from the scratchpad and not yet issued (R199). -/
  outBuf : Bytes := []
  /-- Inbound writes waiting for the scratchpad's grant. -/
  inBuf : List InWrite := []
  /-- Stream bytes requested and written at HEAD, over all transfers. -/
  strIssued : Nat := 0
  strDone : Nat := 0
  /-- Reads in flight, 0 to 256 (R199). -/
  inFlight : Nat := 0
  /-- NCLK cycle of the last DRAM request (R199). -/
  lastIssue : Option Nat := none
  done : DoneFifo := {}
  bytesMoved : Nat := 0
  stopped : Bool := false
  deriving DecidableEq, Repr

/-- Stage of an update descriptor's walk (R275). -/
inductive UpdStage where
  | idle
  | group            -- the group entry is being read
  | curve            -- the breakpoints are being read
  | walk             -- the next chunk, block or vote write is considered
  | chunk            -- a sign chunk is being read
  | zero             -- the chunk read is to be zeroed, in the scratchpad
  | record           -- a record block is being read
  | write            -- a record block is to be written
  | vote             -- votes are to be written
  | finish           -- every request has been issued
  deriving DecidableEq, Repr

/-- Values of a parameter group at step t, FP32 bits (R283). -/
structure UpdVals where
  lr : Nat := 0
  wd : Nat := 0
  b1 : Nat := 0
  b2 : Nat := 0
  stoch : Bool := false
  seed : Nat := 0
  deriving DecidableEq, Repr

/-- The update path of an MSU (R273 to R286). -/
structure Upd where
  running : Option Issued := none
  pending : Option Issued := none
  /-- Number of the running descriptor, and the descriptors not yet complete, oldest first. -/
  seq : Nat := 0
  jobs : List MvJob := []
  stage : UpdStage := .idle
  /-- A read is out and its bytes have not returned. -/
  asked : Bool := false
  /-- Bytes read so far in the stage. -/
  buf : Bytes := []
  count : Nat := 0
  vals : UpdVals := {}
  /-- Bytes of the sign array read, and sign bytes of the coming blocks (R270, R275). -/
  signOff : Nat := 0
  carry : Bytes := []
  /-- Next record block, the block to write, and votes that wait to be written with their offset. -/
  block : Nat := 0
  outBlock : Bytes := []
  votes : Bytes := []
  voteOff : Nat := 0
  lastIssue : Option Nat := none
  blocks : Word := 0#32
  skipped : Word := 0#32
  repeat_ : Rc 32 := {}
  flags : RcFlags := {}
  stopped : Bool := false
  deriving DecidableEq, Repr

/-- A memory stream unit (R174 to R187). Its 32-byte configuration is that of its unit position. -/
structure Msu where
  rd : Gen := {}
  wr : Gen := {}
  /-- Granted reads on their way: cycle due, secondary stream, bytes (R164). -/
  flight : List (Nat × Bool × Bytes) := []
  /-- Read assembly buffer, primary and secondary bytes (R176, R182). -/
  asmP : Bytes := []
  asmS : Bytes := []
  /-- Write buffer and the secondary token of the write generator (R176, R183). -/
  wbuf : Bytes := []
  wsec : Option Token := none
  done : DoneFifo := {}
  rdTokens : Word := 0#32
  wrTokens : Word := 0#32
  /-- Descriptors completed in the phase, against FIRE_COUNT (R176, R273). -/
  complete : Nat := 0
  /-- Round-robin pointers of the shared read and write port (R162). -/
  rdTurn : Nat := 0
  wrTurn : Nat := 0
  /-- ACLK cycle of the last access granted to the unit (R515). -/
  grantAt : Option Nat := none
  /-- ELASTIC: tokens waiting to be written to the region, with the bytes of the first already written; bytes read of the
  next token, and tokens on their way back (R189). -/
  elWrite : List Token := []
  elDone : Nat := 0
  elBack : Bytes := []
  elFlight : Nat := 0
  portLast : Vector (Option Nat) 5 := Vector.replicate 5 none
  mv : Mover := {}
  upd : Upd := {}
  deriving DecidableEq, Repr

/-- A circular or linear region of a tile (R167 to R172). -/
structure Region where
  desc : BitVec 128 := 0#128
  head : Word := 0#32
  tail : Word := 0#32
  /-- Non-SKIP records written (R171). -/
  seq : Word := 0#32
  /-- ACLK cycles of the last advance of HEAD and of TAIL, and what each was at the start of that cycle (R169). -/
  headAt : Nat := 0
  head0 : Word := 0#32
  tailAt : Nat := 0
  tail0 : Word := 0#32
  deriving DecidableEq, Repr

/-- The scratchpad of a tile (R155 to R166, R188). -/
structure Spad where
  mem : Mem := []
  valid : BitVec 768 := 0#768
  /-- Panels queued for zeroing by section, each with its next row (R165). -/
  zeroQ : Vector (List (Nat × Nat)) 4 := Vector.replicate 4 []
  /-- Last requester granted in each section; 16 is the tile port (R162). -/
  lastReq : Vector Nat 4 := Vector.replicate 4 16
  /-- ACLK cycle of each section's last grant (R158). -/
  lastGrant : Vector (Option Nat) 4 := Vector.replicate 4 none
  /-- Words that read as uncorrectable until a write covers them (R161). -/
  badWords : List Nat := []
  ecc : Rc 32 := {}
  deriving DecidableEq, Repr

/-- Who made a loft request (R196, R202). -/
inductive Requester where
  | mover (s : SiteId) (m : MsuId) (seq : Nat)
  | update (s : SiteId) (m : MsuId) (seq : Nat)
  deriving DecidableEq, Repr

/-- A loft request on its way to a controller (R199, R201): where its bytes go when it is a read. -/
structure LoftReq where
  who : Requester
  /-- Paddock index that every request carries (R196). -/
  pad : Nat
  write : Bool
  addr : Nat
  len : Nat
  data : Bytes := []
  /-- A read that zeroes what it reads (R272). -/
  clear : Bool := false
  /-- Scratchpad address of a LOAD's bytes, or their offset in the mover's stream for region `region`. -/
  dest : Nat := 0
  region : Option Nat := none
  /-- NCLK cycle from which the controller can accept it (R204). -/
  arrive : Nat := 0
  /-- NCLK cycle of its issue, and whether it joined a merge window (R517, R518). -/
  issued : Nat := 0
  merged : Bool := false
  /-- Priority of its packets (R197, R318). -/
  prio : Bool := false
  /-- Codewords of a read that were uncorrectable when the controller performed it (R205, R212). -/
  bad : List Nat := []
  /-- Of a read-and-zero: its block as it stands if that does not zero it (R286). -/
  shadow : Option Mem := none
  deriving DecidableEq, Repr

/-- A read held by a tag (R202): the block and each requester's own bytes. -/
structure LoftTag where
  block : Nat
  /-- The merge window is still open until this NCLK cycle (R203). -/
  openUntil : Option Nat
  reqs : List LoftReq
  accepted : Nat
  /-- Codewords of the block written since a read of the tag was performed (R205). -/
  redone : List Nat := []
  deriving DecidableEq, Repr

/-- A write entry (R202): its block, its open window's end, and the 64-byte units written (R203). -/
structure LoftWr where
  block : Nat
  openUntil : Option Nat
  units : List Nat
  deriving DecidableEq, Repr

/-- A loft: its DRAM column and its controller (R191, R202 to R214). -/
structure Loft where
  mem : Mem := []
  /-- Uncorrectable 16-byte codewords by index, until a write covers them (R192, R211 to R213, R486). -/
  badWords : List Nat := []
  direct : List LoftReq := []
  router : List LoftReq := []
  tags : List LoftTag := []
  writes : List LoftWr := []
  /-- Requests accepted in the current NCLK cycle: cycle, direct, router (R201). -/
  acceptCyc : Nat := 0
  acceptDirect : Nat := 0
  acceptRouter : Nat := 0
  ce : Rc 32 := {}
  ue : Rc 32 := {}
  ceAddr : BitVec 64 := 0#64
  /-- The eight layer sensors (R209), and the hottest of them. -/
  layers : Vector (BitVec 16) 8 := Vector.replicate 8 0#16
  temp : BitVec 16 := 0#16
  refresh : Byte := 0#8
  merged : Rc 32 := {}
  /-- Corrected codewords: row, codeword, time; uncorrectable ones: row, time. A row is named by channel, bank and row number
  together (R495). -/
  ceHist : List (Nat × Nat × Nat) := []
  ueHist : List (Nat × Nat) := []
  /-- Parity failures of channels' command and address paths: channel and time (R495). -/
  pathErrs : List (Nat × Nat) := []
  /-- Rows, one entry for each spare used, and channels spared, channels lost, and channels whose command or address path failed (R495 to R497). -/
  sparedRows : List Nat := []
  sparedChans : List Nat := []
  lostChans : List Nat := []
  deadChans : List Nat := []
  trained : Bool := false
  /-- Read data on the direct path with the NCLK cycle in which they reach the MSU (R204). -/
  back : List (Nat × LoftReq × Bytes) := []
  /-- The current 12-hour pass of patrol scrub, and the codewords it has read (R213). -/
  patrolPass : Nat := 0
  patrolled : List Nat := []
  /-- Lofts whose windows are being zeroed: 4 KiB base and size (R442). -/
  zeroing : List (Nat × Nat) := []
  deriving DecidableEq, Repr

end Sys2Proof.Machine
end

