-- ==== Sys2Proof/Machine/TileParts.lean ====
section
/-!
DEFINITION. State of one tile beside its grid and memory: contexts, configuration store, channels and queues, remote
engine, scrubber, router, counters and power (R38 to R44, R216 to R222, R247 to R268, R307 to R314, R330, R378 to
R381, R505 to R519, R527 to R529), and of the packets of the on-die mesh (R317), as plain data. Every default value
is the value right after reset.
-/
namespace Sys2Proof.Machine

/-- State of a context (R43). -/
inductive CtxState where
  | idle | ready | running | waitBell | waitQueue | waitTransfer | faulted
  deriving DecidableEq, Repr

/-- What a descheduled context waits for (R40). -/
inductive WaitFor where
  | nothing
  | bell (b n : Nat)
  | queue (q : Nat)
  | barrier (b : Nat) (e : BitVec 2)
  | work (xdst limit target : Nat)
  | claim (xdst : Nat)
  | port
  /-- Its accesses of the scratchpad through the tile port (R162). -/
  | tilePort
  | channel (ch : Nat)
  | acks
  deriving DecidableEq, Repr

/-- A hardware context of the control core (R38, R221). -/
structure Ctx where
  state : CtxState := .idle
  pc : Nat := 0
  x : Vector (BitVec 64) 8 := Vector.replicate 8 0#64
  wait : WaitFor := .nothing
  /-- The condition waited for has held in an earlier NCLK cycle (R40). -/
  met : Bool := false
  /-- Issue slots that the step it stands at has taken (R220). -/
  slots : Nat := 0
  /-- Remote bell adds and messages not yet acknowledged (R252). -/
  bellAcks : Nat := 0
  msgs : Nat := 0
  deriving DecidableEq, Repr

/-- A word of the scrub test area: what was encoded, and the data bits inverted after it (R313). -/
structure TestWord where
  data : BitVec 64
  flipped : List Nat := []
  deriving DecidableEq, Repr

/-- A configuration bank as loaded (R216, R307). -/
structure Bank where
  phases : List (BitVec 512) := []
  steps : List (BitVec 128) := []
  pool : List (BitVec 1024) := []
  plans : List (BitVec 256) := []
  patches : List (BitVec 128) := []
  configs : List (Nat × Bytes) := []
  partials : List (Nat × Bytes) := []
  channels : Bytes := []
  rank : BitVec 16 := 0#16
  tag : BitVec 64 := 0#64
  /-- The scrub test area: words of the known-answer scan (R307, R313). -/
  scrubTest : List TestWord := []
  deriving DecidableEq, Repr

/-- A field of a working pool entry that a PLAN or PATCH writes (R234, R236). -/
structure FieldSet where
  entry : Nat
  lo : Nat
  len : Nat
  value : Nat
  deriving DecidableEq, Repr

/-- A FIRE_COUNT that a PLAN or PATCH writes: unit, value, and the patch record (R236, R237). -/
structure FireSet where
  unit : Nat
  value : Nat
  record : Nat
  deriving DecidableEq, Repr

/-- A request that waits for the configuration port (R230): a PARTIAL step, or the writes of a PLAN or PATCH step with the
record that a fault names; TILE_PLAN_LAST comes with a PLAN's. -/
inductive PortReq where
  | partialCommit (c : CtxId) (idx : Nat)
  | writes (c : CtxId) (record : Nat) (sets : List FieldSet) (fires : List FireSet) (last : Option (BitVec 64))
  deriving DecidableEq, Repr

/-- State of a channel (R267). -/
inductive ChanState where
  | idle | inFlight | backoff | stuck
  deriving DecidableEq, Repr

/-- A message in a send entry: the context that sent it and its bytes. -/
structure SendEntry where
  ctx : CtxId
  bytes : Bytes
  deriving DecidableEq, Repr

/-- An outbound channel (R261, R265, R267). -/
structure Chan where
  cfg : BitVec 64 := 0#64
  state : ChanState := .idle
  tries : Nat := 0
  acked : BitVec 16 := 0#16
  current : Option SendEntry := none
  waiting : Option SendEntry := none
  /-- Timer values (R444) at the last transmission and at the next resend in BACKOFF, and the NCLK cycle in which the message was
  first sent. -/
  sentAt : Nat := 0
  firstAt : Nat := 0
  resendAt : Nat := 0
  /-- Use count of the channel's tag, carried by MESSAGE packets as SEQ (R366, R369). -/
  seq : BitVec 16 := 0#16
  deriving DecidableEq, Repr

/-- An inbound queue (R263). -/
structure MsgQueue where
  cfg : BitVec 16 := 0#16
  entries : List Bytes := []
  /-- Head entries that RECV steps are writing to the scratchpad (R264). -/
  taking : Nat := 0
  deriving DecidableEq, Repr

/-- A message that met a full queue: it is accepted where an entry is removed in the same NCLK cycle, and refused at its end
(R264). It came from a channel of a tile, or in a fabric packet. -/
structure FullMsg where
  queue : Nat
  bytes : Bytes
  sender : SiteId × Nat × Bool
  pkt : Option FabPkt := none
  deriving DecidableEq, Repr

/-- The accesses of a SEND or a RECV through the tile port, one word each (R158, R162, R264, R265). -/
structure CoreJob where
  ctx : CtxId
  recv : Bool
  /-- Queue of a RECV, channel of a SEND. -/
  no : Nat
  addr : Nat
  len : Nat
  /-- Bytes accessed so far. -/
  done : Nat := 0
  /-- The 64 bytes that a RECV writes, or the bytes that a SEND has read. -/
  bytes : Bytes := []
  /-- The queue entry that a RECV takes. -/
  entry : Bytes := []
  deriving DecidableEq, Repr

/-- What arrives at the ports of an MSU from outside the tile (R162, R263, R386). -/
inductive ArrKind where
  | write | read | bell
  deriving DecidableEq, Repr

/-- Work that has arrived at an MSU's ports: a record of a RING queue (R263), a STORE or a LOAD of the scratchpad, or a bell
add of the fabric, which waits for its turn behind them (R386, R387). -/
structure Arr where
  msu : Nat
  kind : ArrKind
  /-- Next address to access, or the bell. -/
  addr : Nat
  /-- Bytes still to access, or the amount of a bell add. -/
  left : Nat
  /-- Bytes still to write, or those read so far. -/
  bytes : Bytes := []
  /-- RECORD region whose HEAD the access advances: by `skip` bytes for a SKIP record, else by its own bytes (R172). -/
  region : Option Nat := none
  skip : Nat := 0
  /-- The request that is answered at the end (R385). -/
  req : Option FabPkt := none
  deriving DecidableEq, Repr

/-- Responses to a message (R266). -/
inductive MsgResp where
  | ack | nakFull | nakRank | nakNoQueue
  deriving DecidableEq, Repr

/-- What a mesh packet carries (R318): the endpoint operation. -/
inductive MeshMsg where
  | bellAdd (bell amount : Nat) (src : SiteId) (ctx : CtxId)
  | bellAck (ctx : CtxId)
  | message (queue : Nat) (rank : BitVec 16) (bytes : Bytes) (src : SiteId) (ch : Nat) (prio : Bool)
  | msgResp (ch : Nat) (r : MsgResp)
  | arrive (bar : Nat) (tag : BitVec 2) (src : SiteId)
  | workReq (counter : Nat) (src : SiteId) (ctx : CtxId)
  | workRsp (ctx : CtxId) (gen : BitVec 16) (index : BitVec 64)
  | claimReq (addr : Nat) (gen : BitVec 16) (tile : Nat) (src : SiteId) (ctx : CtxId)
  | claimRsp (ctx : CtxId) (result : Nat)
  | loft (r : LoftReq)
  | loftData (r : LoftReq) (data : Bytes)
  | loftAck (r : Requester) (n : Nat)
  /-- Fabric, host or yardmaster traffic that its row has performed (R327 to R329). -/
  | carried
  deriving DecidableEq, Repr

/-- A mesh packet on its way (R317): the router that holds it and its header fields. -/
structure MeshPkt where
  /-- Site of the router that holds the packet. -/
  at_ : SiteId
  /-- Destination sites (DEST_MAP), empty when the destination is a periphery router. -/
  dests : List SiteId
  /-- Injected with more than one destination (R322, R327). -/
  multi : Bool := false
  pr : Option (Fin 8) := none
  /-- Endpoint: false TILE, true LOFT. -/
  loftEp : Bool := false
  vc : Fin 4
  prio : Bool
  /-- Source index: a site's number, or 48 + k for periphery router k (R322). -/
  src : Nat
  flits : Nat := 1
  paddock : Option PadId := none
  body : MeshMsg
  /-- NCLK cycle in which its head flit reaches the head of its class buffer, and its input port: 0 to 3 N, E, S, W; 4 TILE,
  5 LOFT, 6 AUX; 8 + i link i of the seam side (R315, R322, R325). -/
  since : Nat := 0
  inPort : Nat := 4
  /-- NCLK cycle in which its first flit left, while flits of it are still in the buffer (R324). -/
  left : Option Nat := none
  deriving DecidableEq, Repr

/-- One use of a remote tag (R380). -/
structure RmUse where
  issued : Issued
  row : Nat
  sentAt : Nat
  /-- Timer value at its sending (R382, R444). -/
  timer : Nat
  dest : BitVec 14
  epoch : BitVec 1
  msu : Nat
  brand : BitVec 16
  deriving DecidableEq, Repr

/-- A remote tag (R380). -/
structure RmTag where
  seq : BitVec 16 := 0#16
  held : Option RmUse := none
  deriving DecidableEq, Repr

/-- Bytes returned by a GET or an ATOMIC that wait for an MSU's write port (R379). -/
structure RmIn where
  addr : Nat
  bytes : Bytes
  msu : Nat
  ctx : CtxId
  step : Nat
  deriving DecidableEq, Repr

/-- The remote engine of a tile (R378 to R382). -/
structure Remote where
  running : Option Issued := none
  pending : Option Issued := none
  since : Nat := 0
  row : Nat := 0
  lastSend : Option Nat := none
  tags : Vector RmTag 128 := Vector.replicate 128 {}
  /-- Bytes read from the scratchpad for the row to send (R379). -/
  outBuf : Bytes := []
  inBuf : List RmIn := []
  /-- Descriptors whose requests are all sent: the descriptor and its rows answered. -/
  tail : List (Issued × Nat) := []
  answered : Nat := 0
  done : DoneFifo := {}
  stale : Rc 32 := {}
  stopped : Bool := false
  deriving DecidableEq, Repr

/-- What the voted copies hold at the start (R312): enable set, an access every 2 NCLK cycles, 37,286 live words, and the
393,216 words of a bank (R307 to R309). -/
def scrubStart : Nat := 2 ^ 74 + 2 * 2 ^ 75 + 37286 * 2 ^ 83 + 393216 * 2 ^ 103

/-- The scrubber (R308 to R314). Its protected state stands in three copies (R312): heartbeat in bits [31:0], live
walker in [51:32], bank walker in [72:52], bank in [73], enable in [74], NCLK cycles from one access to the next in [82:75],
words of the live walk in [102:83] and of a bank in [123:103]. -/
structure Scrubber where
  copyA : Nat := scrubStart
  copyB : Nat := scrubStart
  copyC : Nat := scrubStart
  /-- NCLK cycle of the last access, and whether it was the live walker's (R309). -/
  lastAt : Nat := 0
  lastLive : Bool := false
  /-- Seed of a known-answer scan that has been asked for and not yet carried out (R313). -/
  katSeed : Option Word := none
  halted : Bool := false
  ce : Rc 32 := {}
  vote : Rc 32 := {}
  ueLoc : Word := 0#32
  kat : BitVec 64 := 0#64
  /-- Heartbeat at the yardmaster's previous check (R313). -/
  lastBeat : Word := 0#32
  /-- NCLK cycle of that check. -/
  checkedAt : Nat := 0
  /-- Live words that a configuration port write must replace (R311): unit positions fenced for that reason. -/
  badPos : List Nat := []
  deriving DecidableEq, Repr

/-- An output of a router (R324): NCLK cycles from which it is free of high-priority and of low-priority flits, and the
(input, class) pairs granted last. -/
structure RtrOut where
  hiTo : Nat := 0
  loTo : Nat := 0
  hiTurn : Nat := 0
  loTurn : Nat := 0
  deriving DecidableEq, Repr

/-- The router of a site: its registers (R330) and its outputs, numbered as the input ports are. -/
structure Router where
  outs : Vector RtrOut 12 := Vector.replicate 12 {}
  flits : Rc 64 := {}
  hiWait : RcMax 16 := {}
  loYield : Rc 32 := {}
  ce : Rc 32 := {}
  ue : Rc 32 := {}
  discard : Rc 32 := {}
  deriving DecidableEq, Repr

/-- Performance counters and the sample unit of a tile (R505 to R519). -/
structure Pmc where
  fixed : Vector (BitVec 64) 8 := Vector.replicate 8 0#64
  prog : Vector (BitVec 64) 16 := Vector.replicate 16 0#64
  sel : Vector Word 16 := Vector.replicate 16 0#32
  meas : BitVec 64 := 0#64
  /-- Value of each counter's event in the previous counted cycle (R511), and NAK_FULL responses of the current NCLK cycle
  (R512). -/
  prev : Vector Nat 16 := Vector.replicate 16 0
  naks : Nat := 0
  /-- What the fixed counters gain at the end of the current NCLK cycle (R509). -/
  fixedNow : Vector Nat 8 := Vector.replicate 8 0
  /-- TILE_SLOT counts that are not zero: unit index times 4 plus the slot (R510). -/
  slots : List (Nat × BitVec 64) := []
  /-- Qualifying occurrences, and those of an NCLK cycle, which a read in it does not see yet (R509, R520). -/
  smpCount : Nat := 0
  smpNow : Nat × Nat := (0, 0)
  smpWritten : Rc 32 := {}
  smpLost : Rc 32 := {}
  /-- A record that waits for room, and the word writes through the tile port of one that has been placed: address, bytes,
  and by how much the grant advances HEAD (R162, R519). -/
  smpHeld : Option Bytes := none
  smpWrites : List (Nat × Bytes × Nat) := []
  deriving DecidableEq, Repr

/-- KIND of a site (R42). -/
inductive SiteKind where
  | inService | darkRemount | usedRemount | retired
  deriving DecidableEq, Repr

/-- The encoding of KIND (R42). -/
def SiteKind.code : SiteKind → Nat
  | .inService => 0
  | .darkRemount => 1
  | .usedRemount => 2
  | .retired => 3

/-- Registers of the tile control block that the yardmaster, the configuration port and the steps write (R42, R194,
R222, R253, R314, R392, R446). -/
structure TileCtl where
  bound : Option (PadId × Nat) := none
  cfgGen : BitVec 16 := 0#16
  ctxFault : BitVec 16 := 0#16
  /-- NCLK cycle in which contexts last raised faults, and their bits (R9, R43). -/
  faultSet : Nat × BitVec 16 := (0, 0#16)
  faultCode : BitVec 16 := 0#16
  phase : Word := 0#32
  phaseState : Byte := 0#8
  claimDup : Rc 32 := {}
  claimStale : Rc 32 := {}
  planLast : BitVec 64 := 0#64
  param : Vector (BitVec 64) 64 := Vector.replicate 64 0#64
  seqLen : Vector Word 16 := Vector.replicate 16 0#32
  stripeCfg : BitVec 64 := 0#64
  stripeList : BitVec 384 := 0#384
  carMap : BitVec 64 := 0#64
  rank : BitVec 16 := 0#16
  barEpisode : BitVec 512 := 0#512
  fabCfg : Word := 0#32
  hold : Byte := 0#8
  heldNclk : BitVec 64 := 0#64
  cfgBank : Byte := 0#8
  imageTag : BitVec 64 := 0#64
  deriving DecidableEq, Repr

/-- A tile of a site (R27). -/
structure Tile where
  ctl : TileCtl := {}
  ctxs : Vector Ctx 16 := Vector.replicate 16 {}
  /-- Context that issued last, and the NCLK cycle of the last issue (R39). -/
  lastCtx : Nat := 15
  lastIssue : Option Nat := none
  /-- Context 0 has a full commit to perform, and has arrived at the commit barrier (R226). -/
  commitDue : Bool := false
  commitWait : Bool := false
  /-- A RESTORE has written the phase: the next full commit is of its NEXT (R448). -/
  restored : Bool := false
  /-- The release of the commit barrier has reached the tile in this NCLK cycle (R226). -/
  startDue : Bool := false
  grid : Vector Pos 25 := Vector.replicate 25 {}
  mxu : Mxu := {}
  vxus : Vector Vxu 16 := Vector.replicate 16 {}
  msus : Vector Msu 8 := Vector.replicate 8 {}
  spad : Spad := {}
  regions : Vector Region 16 := Vector.replicate 16 {}
  bells : Vector Word 48 := Vector.replicate 48 0#32
  chans : Vector Chan 64 := Vector.replicate 64 {}
  queues : Vector MsgQueue 32 := Vector.replicate 32 {}
  drops : Rc 32 := {}
  banks : Vector Bank 2 := Vector.replicate 2 {}
  pool : List (BitVec 1024) := []
  /-- Words written so far into a descriptor register and not yet issued: register and word together, and the word. -/
  descBuf : List (Nat × Word) := []
  portQ : List PortReq := []
  /-- NCLK cycle in which the configuration port last wrote (R309). -/
  portAt : Option Nat := none
  /-- Packets delivered to the tile that its control core has not yet taken (R315). -/
  inbox : List MeshMsg := []
  /-- NCLK cycle of the last message answered, and one that met a full queue in this cycle (R263, R264). -/
  msgAt : Option Nat := none
  fullMsg : Option FullMsg := none
  /-- Bell increments of the current NCLK cycle, and those that take effect in the next: bell and amount (R248, R249). -/
  bellNow : List (Nat × Nat) := []
  bellNext : List (Nat × Nat) := []
  /-- The tile port's work (R162), and remote data at the ports of the MSUs (R263, R386). -/
  core : List CoreJob := []
  arr : List Arr := []
  rm : Remote := {}
  scrub : Scrubber := {}
  router : Router := {}
  pmc : Pmc := {}
  power : Byte := 0x03#8
  jctTemp : BitVec 16 := 0#16
  deriving DecidableEq, Repr

end Sys2Proof.Machine
end

