-- ==== Sys2Proof/Machine/DeviceParts.lean ====
section
/-!
DEFINITION. State of the device outside its tiles: carillon (R253 to R260), fabric links (R336 to R354), fabric
addressing (R356 to R392), host port, mailboxes and event rings (R394 to R416), paddocks, beats and accounting (R435
to R449), as plain data. Every default value is the value right after reset.
-/
namespace Sys2Proof.Machine

/-! ### Carillon -/

/-- A carillon barrier (R260). -/
structure CarBarrier where
  cfg : BitVec 128 := 0#128
  state : BitVec 64 := 0#64
  /-- Children that have arrived in the current episode (R258). -/
  children : List (BitVec 14) := []
  /-- The episode has been overrun: it is not released and its counts stay (R255, R268). -/
  stuck : Bool := false
  deriving DecidableEq, Repr

/-- A carillon work counter: VALUE, GEN, PADDOCK and ENABLED as in CAR_WORK (R260). -/
structure CarWork where
  value : BitVec 64 := 0#64
  gen : BitVec 16 := 0#16
  paddock : PadId := 0
  enabled : Bool := false
  /-- NCLK cycle of the last operation (R259). -/
  lastOp : Option Nat := none
  deriving DecidableEq, Repr

/-- The carillon (R253 to R260). -/
structure Carillon where
  bars : Vector CarBarrier 256 := Vector.replicate 256 {}
  works : Vector CarWork 256 := Vector.replicate 256 {}
  /-- Child lists of the spanning slots (R260). -/
  spans : Vector (List (BitVec 14)) 16 := Vector.replicate 16 []
  /-- Packets delivered through AUX and not yet taken, with the NCLK cycle of their arrival. -/
  inbox : List (Nat × MeshMsg) := []
  /-- Releases on the release tree: site, barrier, new episode, cycle of completion (R256). -/
  releases : List (SiteId × Nat × BitVec 2 × Nat) := []
  /-- Operations served in the NCLK cycle named (R259). -/
  opCycle : Nat := 0
  opCount : Nat := 0
  deriving DecidableEq, Repr

/-! ### Fabric links -/

/-- Link states (R336). -/
inductive LinkState where
  | disabled | training | handshake | up | retrain | down | quarantined
  deriving DecidableEq, Repr

/-- Frame types (R340). -/
inductive FrameType where
  | idle | data | nak | control
  deriving DecidableEq, Repr

/-- A DATA or CONTROL frame of the replay buffer (R343): what it carries, its SEQ, and how often it was sent. -/
structure SentFrame where
  ftype : FrameType
  seq : BitVec 32
  /-- Flits by slot: VC and 64 bytes; a CONTROL frame carries its fragment in `frag`. -/
  flits : List (Nat × Bytes)
  frag : Bytes := []
  times : Nat := 0
  deriving DecidableEq, Repr

/-- A codeword sent on a lane of the link: its header and its 640 bytes, a frame or an ALIGN payload (R333, R337, R340). -/
structure Codeword where
  lane : Nat
  hdr : CwHdr
  payload : Bytes
  deriving DecidableEq, Repr

/-- Handshake messages sent and received, in order (R347). -/
inductive HsMsg where
  | hello | kemKey | kemCt | cert | sig | finished | rekeyKey | rekeyCt | rekeyReq
  deriving DecidableEq, Repr

/-- A handshake message that arrives in fragments: MSG, FRAGS and LENGTH of its first fragment, the FRAG awaited, and the bytes so
far (R347). -/
structure Fragments where
  msg : Nat := 0
  next : Nat := 0
  count : Nat := 0
  len : Nat := 0
  bytes : Bytes := []
  deriving DecidableEq, Repr

/-- Handshake and rekey progress of a link (R347, R348, R350). -/
structure Handshake where
  initiator : Bool := false
  peerSerial : BitVec 64 := 0#64
  peerRole : Byte := 0#8
  myHello : Bytes := []
  peerHello : Bytes := []
  kemKey : Bytes := []
  kemCt : Bytes := []
  myCert : Bytes := []
  peerCert : Bytes := []
  /-- Seed of the own KEM key, and the shared secret. -/
  seed : Bytes := []
  secret : Bytes := []
  digest : Bytes := []
  got : List HsMsg := []
  sent : List HsMsg := []
  frag : Fragments := {}
  /-- NCLK cycle in which the handshake or the rekey began (R348, R350). -/
  since : Nat := 0
  deriving DecidableEq, Repr

/-- A fabric lane (R352, R354). -/
structure Lane where
  locked : Bool := false
  retired : Bool := false
  bad : Bool := false
  symCorr : Rc 64 := {}
  uncorr : Rc 32 := {}
  /-- CW_COUNT of the lane's last codeword (R337, R338). -/
  cw : Byte := 0#8
  /-- Codewords of the last second: cycle, and symbols corrected, none where it was uncorrectable (R352). -/
  recent : List (Nat × Option Nat) := []
  deriving DecidableEq, Repr

/-- A flit that waits to be sent (R371): its VC, the switch input its packet came in by, 16 for the device's own, the VC
of that input's receive buffer which holds it, and PRIO. -/
structure TxFlit where
  vc : Nat
  input : Nat := 16
  inVc : Nat := 0
  prio : Bool := false
  data : Bytes
  deriving DecidableEq, Repr

/-- A fabric link (R336 to R354). -/
structure Link where
  cfg : Word := 0#32
  state : LinkState := .disabled
  keyEpoch : Bool := false
  width : Nat := 0
  mask : Byte := 0#8
  peer : BitVec 64 := 0#64
  txFrames : BitVec 64 := 0#64
  rxFrames : BitVec 64 := 0#64
  crcErr : Rc 32 := {}
  replays : Rc 32 := {}
  naks : Rc 32 := {}
  tagFail : Rc 32 := {}
  retrains : Rc 32 := {}
  rekeys : Rc 32 := {}
  lanes : Vector Lane 8 := Vector.replicate 8 {}
  /-- NCLK cycle in which the state was entered. -/
  since : Nat := 0
  /-- PMD training done, ALIGN codewords sent and received with equal masks (R338). -/
  pmdDone : Bool := false
  alignSent : Nat := 0
  alignSeen : Nat := 0
  peerMask : Option Byte := none
  peerWidth : Nat := 0
  /-- Sequence numbers: next to send, last acknowledged by the peer, next expected, last received in order (R342). -/
  nextSeq : BitVec 32 := 1#32
  acked : BitVec 32 := 0#32
  expected : BitVec 32 := 1#32
  replay : List SentFrame := []
  /-- SEQ from which a replay in progress resends (R345). -/
  replayFrom : Option (BitVec 32) := none
  /-- A replay is asked for and starts with the next slot (R345). -/
  replayWait : Bool := false
  lastAckAt : Nat := 0
  nakDue : Bool := false
  nakAt : Option Nat := none
  /-- Credits: last received, flits sent and flits freed, per VC (R346). -/
  creditRx : Vector (BitVec 16) 5 := Vector.replicate 5 0#16
  flitsSent : Vector Nat 5 := Vector.replicate 5 0
  flitsFreed : Vector Nat 5 := Vector.replicate 5 0
  /-- A RETRAIN that was entered from HANDSHAKE, and goes back there (R345, R352). -/
  fromHs : Bool := false
  /-- CW_COUNT of the slot that is sent (R337). -/
  cwTx : Byte := 0#8
  /-- Frames sent and frames taken in order since the alignment; they give the lane of the next one (R339). -/
  frameNo : Nat := 0
  rxNo : Nat := 0
  /-- CW_COUNT of the slot of the next frame in order, none before the first frame after the alignment; frames that have come
  before their turn, with their numbers in the order (R338, R339). -/
  rxSlot : Option Byte := none
  rxHeld : List (Nat × FrameType × Frame) := []
  txCount : Nat := 0
  txKey : Bytes := []
  rxKey : Bytes := []
  /-- The link sends encrypted frames: from its FINISHED on (R347). -/
  txOn : Bool := false
  /-- Transmit key that a responder takes after its REKEY_CT is sent, and the receive key of the other epoch while a
  rekey is open (R350). -/
  txNew : Option Bytes := none
  rxNew : Option Bytes := none
  rxEpoch : Bool := false
  keySince : Nat := 0
  rxCount : Nat := 0
  rekeying : Bool := false
  hs : Handshake := {}
  /-- Flits and CONTROL fragments that wait to be sent, and received flits by VC. -/
  txFlits : List TxFlit := []
  /-- Switch input served last, by class (R371). -/
  lastIn : Vector Nat 3 := Vector.replicate 3 16
  txFrags : List Bytes := []
  rxFlits : List (Nat × Bytes) := []
  wire : List Codeword := []
  tagFailAt : List Nat := []
  backoff : Nat := 1
  deriving DecidableEq, Repr

/-! ### Fabric addressing -/

/-- Hitch load messages (R304). -/
inductive HitchMsg where
  | loadBegin | data | loadEnd | verified | commit | committed | abort | revert | release
  deriving DecidableEq, Repr

/-- A packet the device sends: management messages are kept by name, those of the tree with the HOPS they leave with (R373), and
those that go DOWN with their TARGET_SERIAL (R389). -/
inductive OutPkt where
  | packet (p : FabPkt)
  | discover (d : Discover)
  | candidate (serial : BitVec 64) (priority : Nat)
  | topology (hops : BitVec 6) (t : Topology)
  | assign (hops : BitVec 6) (target : BitVec 64) (number : BitVec 14)
  | routeAck (status : Nat) (tag seq : BitVec 16)
  | routeWrite (target : BitVec 64) (version : BitVec 1) (first : Nat) (entries : List (BitVec 16))
  | epochFlip (target : BitVec 64) (epoch : BitVec 1)
  | hitch (msg : HitchMsg) (jobId : Bytes) (code : BitVec 16) (data : Bytes)
  deriving DecidableEq, Repr

/-- A packet that waits in the switch for its output link (R371): the input it came in by, 16 for the device's own, and
the VC of that input's receive buffer which holds it; the cycle from which its head flit may be sent. -/
structure OutEntry where
  link : LinkId
  input : Nat := 16
  inVc : Nat := 0
  ready : Nat := 0
  /-- INJ_EPOCH at its injection, for a packet kept by name (R376). -/
  epoch : BitVec 1 := 0#1
  pkt : OutPkt
  deriving DecidableEq, Repr

/-- Fabric addressing and routing state (R356 to R392). -/
structure Fabric where
  devCfg : Word := 0#32
  master : BitVec 64 := 0#64
  /-- Device number of the master, where a message of its has shown it (R389). -/
  masterDev : Option (BitVec 14) := none
  brands : Vector Word 16 := Vector.replicate 16 0#32
  dropBrand : Rc 32 := {}
  dropMalformed : Rc 32 := {}
  dropTtl : Rc 32 := {}
  dropRoute : Rc 32 := {}
  dropMgmt : Rc 32 := {}
  /-- Route entries that are not zero, by version and device, rising (R374). -/
  routes0 : List (Nat × BitVec 16) := []
  routes1 : List (Nat × BitVec 16) := []
  /-- NCLK cycle in which each version stopped being the injection version (R376). -/
  leftAt : Vector Nat 2 := Vector.replicate 2 0
  /-- Best candidate, PARENT and when the candidacy last changed (R360). -/
  best : Option (BitVec 64 × Nat) := none
  parent : Option LinkId := none
  bestSince : Nat := 0
  /-- Link recorded for each serial whose UP message was forwarded (R361). -/
  records : List (BitVec 64 × LinkId) := []
  topology : List Topology := []
  /-- Neighbours' DISCOVER by link (R358). -/
  neighbours : List (LinkId × Discover) := []
  hitchOk : List LinkId := []
  /-- Last time a brand refusal of a source device was reported (R383). -/
  rejects : List (BitVec 14 × Nat) := []
  /-- A route rebuild's acknowledgements still awaited, and whether EPOCH_FLIP was sent (R376). -/
  rebuildAcks : List (BitVec 14) := []
  /-- NCLK cycle of the last flip acknowledgement (R376). -/
  flipAckAt : Nat := 0
  flipped : Bool := false
  /-- Packets that wait for a link, oldest first. -/
  out : List OutEntry := []
  /-- Packets addressed to the device itself (R375), delivered over the on-die network. -/
  loop : List FabPkt := []
  deriving DecidableEq, Repr

/-! ### Host port -/

/-- Messages the device sends to the host (R398). -/
inductive HostMsg where
  | winData (m : ModId) (tag : BitVec 16) (addr : BitVec 64) (data : Bytes)
  | memWrite (m : ModId) (addr : BitVec 64) (data : Bytes)
  | doorbell (m : ModId) (vector : Nat)
  | error (m : ModId) (code : BitVec 16) (mtype : Nat) (tag : BitVec 16) (addr : BitVec 64)
  | credit (m : ModId) (p np cpl : BitVec 16)
  deriving DecidableEq, Repr

/-- A UCIe module (R394, R395) and its credits (R399). -/
structure Module where
  /-- 0 down, 1 x32, 2 x64, as HOST_PORT_STATUS encodes it. -/
  width : Nat := 0
  fails : Nat := 0
  stayDown : Bool := false
  /-- Counts of the host's last CREDIT, and what the device has sent of each class since the module trained. -/
  gotCredit : Bool := false
  hostP : BitVec 16 := 0#16
  hostNp : BitVec 16 := 0#16
  hostCpl : BitVec 16 := 0#16
  sentP : Nat := 0
  sentCpl : Nat := 0
  /-- P slots that the host has returned beyond its first grant. -/
  hostRet : Nat := 0
  /-- Slots and requests the host has sent, and how many of them the device's last CREDIT returned. -/
  rcvdP : Nat := 0
  rcvdNp : Nat := 0
  retP : Nat := 0
  retNp : Nat := 0
  /-- Messages generated that wait for credit, oldest first (R401). -/
  queue : List HostMsg := []
  deriving DecidableEq, Repr

/-- Mailbox response state (R406). -/
inductive MbState where
  | empty | pending | ready
  deriving DecidableEq, Repr

/-- A command carrier: a mailbox, the owner port or a fabric slot (R404 to R409, R421 to R423). -/
structure Mailbox where
  state : MbState := .empty
  cfg : Word := 0#32
  refused : Rc 32 := {}
  /-- Bytes of the command buffer that are not zero. -/
  cmdBuf : Mem := []
  /-- The copied command, and the response. -/
  cmd : Bytes := []
  rsp : Bytes := []
  /-- OPCODE and SEQ of the current or last command, and of the last acknowledged response. -/
  op : BitVec 16 := 0#16
  seq : BitVec 16 := 0#16
  ackOp : BitVec 16 := 0#16
  ackSeq : BitVec 16 := 0#16
  /-- Source of a fabric command (R422). -/
  src : Option FabPkt := none
  deriving DecidableEq, Repr

/-- An event record before it is laid out (R411). -/
structure EventRec where
  kind : Nat
  index : Nat
  seq : Word
  time : BitVec 64
  typ : BitVec 16
  payload : Bytes
  deriving DecidableEq, Repr

/-- An event ring (R411 to R414). -/
structure Ring where
  cfg : Word := 0#32
  base : BitVec 64 := 0#64
  prodAddr : BitVec 64 := 0#64
  prod : Word := 0#32
  cons : Word := 0#32
  lost : Rc 32 := {}
  /-- Records waiting inside the device, and the count the next EVENT_LOST carries. -/
  waiting : List EventRec := []
  lostPending : Nat := 0
  /-- SEQ of the next record of each source that has generated one: KIND, INDEX, SEQ (R412). -/
  seqs : List (Nat × Nat × Word) := []
  /-- NCLK cycle of the last vector, and whether one is due (R410). -/
  lastVector : Option Nat := none
  vectorDue : Bool := false
  deriving DecidableEq, Repr

/-- Types of long operation (R431). -/
inductive OpType where
  | imageLoad | run | checkpoint | scrub | dramTest | fwStage | routeRebuild
  deriving DecidableEq, Repr

/-- States of a long operation (R411, R417). -/
inductive OpState where
  | queued | running | suspending | suspended | cancelling | done | failed | cancelled
  deriving DecidableEq, Repr

/-- A slot of the operation table (R416). -/
structure Op where
  gen : BitVec 16 := 0#16
  held : Bool := false
  mailbox : Nat := 0
  typ : OpType := .imageLoad
  state : OpState := .queued
  paddock : Option PadId := none
  progress : Nat := 0
  result : Nat := 0
  code : BitVec 16 := 0#16
  /-- Command parameters the operation needs: mode, address, limit, loft mask, slot, bytes. -/
  args : List Nat := []
  /-- A second slot that a RESTORE reserves (R448). -/
  reserve : Option (Fin 64) := none
  /-- Work done since the last suspend or cancel point (R419). -/
  point : Nat := 0
  /-- Hitch position that a failed hitch load names (R305). -/
  position : Option Nat := none
  /-- The bytes that a SAVE writes, fixed when it starts (R448, R474), and the scratchpad word that cannot be read (R486). -/
  data : Bytes := []
  bad : Option (SiteId × Nat) := none
  deriving DecidableEq, Repr

/-- Kind of a copy handle (R403, R432). -/
inductive CopyKind where
  | stream | copyIn | copyOut
  deriving DecidableEq, Repr

/-- An open copy (R403, R432). -/
structure Copy where
  id : Nat := 0
  open_ : Bool := false
  mailbox : Nat := 0
  paddock : PadId := 0
  kind : CopyKind := .copyIn
  addr : Nat := 0
  bytes : Nat := 0
  ranges : List (BitVec 64 × Nat) := []
  moved : Nat := 0
  /-- IN and STREAM bytes received, as ranges of offsets, rising and apart. -/
  got : List (Nat × Nat) := []
  /-- On each module used, the P slots sent when the copy's last message left: the host must return them before
  COPY_DONE (R432). -/
  owed : List (ModId × Nat) := []
  /-- Session that the copy was opened under, with the copy's key and number (R471, R472). -/
  session : Option Nat := none
  key : Bytes := []
  copyNo : Nat := 0
  /-- The encrypted unit of an OUT copy whose bytes are being sent (R472). -/
  unitBuf : Bytes := []
  ended : Bool := false
  code : BitVec 16 := 0#16
  op : Option (Fin 64) := none
  deriving DecidableEq, Repr

/-! ### Paddocks -/

/-- Paddock states (R441). -/
inductive PadState where
  | empty | loading | ready | running | suspended | stopped
  deriving DecidableEq, Repr

/-- A loft window (R438). -/
structure Window where
  loft : SiteId
  base4k : Nat
  size4k : Nat
  deriving DecidableEq, Repr

/-- What the yardmaster keeps of a committed image (R254, R293, R302). -/
structure ImageInfo where
  tag : BitVec 64 := 0#64
  digest : Bytes := []
  jobId : Bytes := []
  sealed_ : Bool := false
  signer : Bytes := []
  svn : Nat := 0
  barriers : List (Nat × Bool) := []
  workCounters : Nat := 0
  /-- Pass sites with the tile that hosts each (R293). -/
  pass : List (SiteId × Nat) := []
  /-- The image key, which only the security processor and the crypto engines hold (R450, R474). -/
  key : Bytes := []
  hitchPart : Bool := false
  deriving DecidableEq, Repr

/-- The fault record of a paddock (R429). -/
structure FaultRec where
  kind : Nat
  code : BitVec 16
  time : BitVec 64
  data : Bytes
  deriving DecidableEq, Repr

/-- Who detected a fault (R31, R32) and what its event names. -/
structure FaultInfo where
  code : Nat
  site : Option SiteId := none
  unit : Option Nat := none
  side : Nat := 0
  addr : Nat := 0
  area : Nat := 0xFF
  /-- Further fields that the raising chapter gives: STEP_ID, row, region, bell, channel ... -/
  extra : List Nat := []
  deriving DecidableEq, Repr

/-- A fault of the NCLK cycle in which a paddock stops (R41, R75). -/
structure DueStop where
  fault : FaultInfo
  /-- One of the grid conditions of R77. -/
  grid : Bool
  /-- The stop is made under R74 or in its manner. -/
  snap : Bool
  /-- ACLK cycle and idle counter at detection (R75, R76). -/
  aclk : Nat
  idle : Nat
  /-- The 32 bytes of its fault event, for a fault record of KIND 2 (R429). -/
  event : Bytes := []
  deriving DecidableEq, Repr

/-- A paddock (R435 to R448). -/
structure Paddock where
  state : PadState := .empty
  owner : Nat := 0
  /-- Site that holds tile n, none while it is vacant (R435, R490). -/
  tiles : List (Option SiteId) := []
  pass : List SiteId := []
  brand : BitVec 16 := 0#16
  /-- TILE_CAR_MAP of its tiles: its blocks of barriers and work counters (R437). -/
  carMap : BitVec 64 := 0#64
  windows : List Window := []
  image : Option ImageInfo := none
  /-- Image that stands RETAINED in the shadow banks (R302). -/
  retained : Option ImageInfo := none
  faultRec : Option FaultRec := none
  /-- Idle counter (R72). -/
  idle : Nat := 0
  fired : Bool := false
  /-- NCLK cycle of the stop, for the faults of a stop (R41), and the code that stopped it. -/
  stopAt : Option Nat := none
  /-- The faults of that cycle so far, oldest first; the paddock is stopped at its end. -/
  due : List DueStop := []
  run : Option (Fin 64) := none
  load : Option (Fin 64) := none
  /-- The run's parameters wait for the reload (R223). -/
  params : List (BitVec 64) := []
  reloading : Bool := false
  suspendDue : Bool := false
  /-- NCLK cycle in which the last load, run, checkpoint or copy ended (R528). -/
  quietSince : Nat := 0
  held : Bool := false
  holdAt : Nat := 0
  /-- NCLK cycles of its holds that have ended: its back-off and no-response timers stand behind by so many (R444). -/
  frozen : Nat := 0
  /-- Spanning barriers that BARRIER_SPAN has configured (R430). -/
  spanned : List (Nat × Nat) := []
  deriving DecidableEq, Repr

/-- A sequence slot (R240). -/
structure SeqSlot where
  bound : Option PadId := none
  length : Nat := 0
  deriving DecidableEq, Repr

/-- Accounting counts of a client (R449). -/
structure Account where
  wait : BitVec 64 := 0#64
  preempt : Word := 0#32
  beats : Word := 0#32
  tileNclk : BitVec 64 := 0#64
  deriving DecidableEq, Repr

/-- The beat table (R443). -/
structure Beats where
  entries : List (Option PadId × Nat) := []
  /-- Timestamp at which the current entry 0 began, and the current entry. -/
  t0 : Nat := 0
  current : Nat := 0
  pending : Option (List (Option PadId × Nat)) := none
  deriving DecidableEq, Repr

end Sys2Proof.Machine
end

