-- ==== Sys2Proof/Machine/SystemParts.lean ====
section
/-!
DEFINITION. State of the fuses and boot flash (R21, R451 to R461, R478, R493, R533, R534), sessions (R464 to R472),
the yardmaster (R499 to R504, R525, R537), the host port, the owner port (R423, R544) and bring-up (R532), and `Dev`,
everything of the device that power-on reset clears (R531). Every default value is the value right after reset.
-/
namespace Sys2Proof.Machine

/-! ### Fuses and boot flash: kept through power-on reset (R531) -/

/-- Lifecycle state (R451). -/
inductive Lifecycle where
  | manufacture | unprovisioned | provisioned | retired
  deriving DecidableEq, Repr

/-- The lifecycle code of R451. -/
def Lifecycle.code : Lifecycle → Nat
  | .manufacture => 0
  | .unprovisioned => 1
  | .provisioned => 2
  | .retired => 3

/-- A repair fuse row (R493): a tile with the remount that took it, a DRAM channel spare, or a yardmaster core. -/
inductive Repair where
  | tile (site : SiteId) (remount : Option SiteId)
  | channel (loft : SiteId) (ch : Nat)
  | core (c : CoreId)
  deriving DecidableEq, Repr

/-- Trust store in the boot flash (R455, R459): owner key, signer keys by slot, KEM certificate. -/
structure TrustStore where
  owner : Option Bytes := none
  signers : Vector (Option Bytes) 8 := Vector.replicate 8 none
  kemCert : Bytes := []
  deriving DecidableEq, Repr

/-- The fuses and the boot flash. `serial`, `variantL` and `remounts` are fused at manufacture. -/
structure Fuse where
  serial : BitVec 64 := 0#64
  /-- Ordering code: false YF-9840-A1-44N, true YF-9840-A1-40L (R15). -/
  variantL : Bool := false
  /-- Sites that hold remounts (R21). -/
  remounts : List SiteId := [5, 23, 30, 42]
  lifecycle : Lifecycle := .unprovisioned
  /-- Key ID of the owner key; none before PROVISIONED and after RETIRE (R452, R459). -/
  ownerId : Option Bytes := none
  ownerEpoch : BitVec 32 := 0#32
  trustDigest : Bytes := []
  store : TrustStore := {}
  /-- Signer slots whose fuses RETIRE has blown (R452). -/
  signersBlown : Bool := false
  /-- FW_SVN_FLOOR, 0 to 255 (R478). -/
  svnFloor : Nat := 0
  /-- The three setting banks: rows written, oldest first (R461, R534). -/
  banks : Vector (List (Nat × BitVec 64)) 3 := Vector.replicate 3 []
  /-- Firmware slots A and B as this device has staged them; none while the slot holds what was there before. -/
  slots : Vector (Option Bytes) 2 := Vector.replicate 2 none
  deriving DecidableEq, Repr

/-! ### Sessions -/

/-- An open session (R465 to R471). -/
structure Session where
  id : Nat
  mailbox : Nat
  pad : PadId
  /-- K: command, IN and OUT key (R465). -/
  key : Bytes
  fp : Bytes
  cmdCount : Nat := 0
  copyNo : Nat := 0
  deriving DecidableEq, Repr

/-- What sealing and granting add to a paddock: windows that a session owns (R464, R469). -/
structure SealState where
  sealed_ : Bool := false
  /-- Windows granted under a session, each by its place in the paddock's list, and the session. -/
  owned : List (Nat × Nat) := []
  paramDigest : Bytes := []
  deriving DecidableEq, Repr

/-! ### Yardmaster -/

/-- State of a yardmaster core, in the encoding of R501. -/
inductive CoreState where
  | active | standby | resetting | retired
  deriving DecidableEq, Repr

/-- Windows of a site's retirement conditions (R488): device timestamps, newest first. -/
structure SiteHist where
  parity : List Nat := []
  /-- NCLK cycle of the last self-test (R488). -/
  testedAt : Nat := 0
  spadUe : List Nat := []
  /-- Scratchpad words corrected: word and time. -/
  words : List (Nat × Nat) := []
  cfgUe : List Nat := []
  votes : List Nat := []
  deriving DecidableEq, Repr

/-- A tile retired in this YCLK cycle: its site, and its control block as it stood (R490, R491). -/
structure RetireDue where
  site : SiteId
  ctl : TileCtl := {}
  /-- The paddock that the retirement has stopped with TILE_RETIRED, whose fault event waits for the remount (R485, R493). -/
  stops : Option PadId := none
  deriving DecidableEq, Repr

/-- The yardmaster's health, clock and boot registers (R501, R537) and what stands behind them. -/
structure Yard where
  cores : Vector CoreState 4 := Vector.replicate 4 .active
  duties : Vector (BitVec 4) 4 := Vector.replicate 4 0#4
  /-- NCLK cycle of the last check of each core's journal by another core (R499). -/
  checkedAt : Vector Nat 4 := Vector.replicate 4 0
  handovers : Word := 0#32
  lastHandover : Word := 0#32
  degrade : Word := 0#32
  replace : Word := 0#32
  failed : Bool := false
  /-- Worvis has been started since reset (R532, R533). -/
  started : Bool := false
  /-- Cores whose duties wait for a handover, each with the NCLK cycle of its failure, oldest first (R500). -/
  handover : List (CoreId × Nat) := []
  step : Nat := 3
  cap : Nat := 3
  /-- Step required by each governor, and NCLK cycle since which every check was below its limit (R525). -/
  thermal : Nat := 0
  power : Nat := 0
  thermalCool : Option Nat := none
  /-- NCLK cycle of the last check of the governors. -/
  govAt : Option Nat := none
  powerCool : Option Nat := none
  clkSteps : Rc 32 := {}
  hotJct : BitVec 16 := 0#16
  hotSite : Nat := 0
  /-- Boot facts (R533, R537). -/
  slotB : Bool := false
  validA : Bool := false
  validB : Bool := false
  diverge : Bool := false
  safeSettings : Bool := false
  /-- Version and security version of the firmware that runs (HOST_ID_FW); security version and digest of the booted
  slot (R453). -/
  fwVersion : Word := 0#32
  runSvn : Word := 0#32
  fwSvn : Word := 0#32
  fwDigest : Bytes := []
  readyTime : BitVec 64 := 0#64
  hist : Vector SiteHist 48 := Vector.replicate 48 {}
  /-- Tiles retired in this YCLK cycle, whose remounts are not yet chosen (R491). -/
  retireDue : List RetireDue := []
  /-- Packets dropped as uncorrectable by each mesh link: link number and time (R498). -/
  meshDrops : List (Nat × Nat) := []
  deriving DecidableEq, Repr

/-! ### Bring-up -/

/-- Where bring-up stands (R523, R526, R532, R533). -/
inductive BootStage where
  | inReset      -- PORST_N is asserted
  | pll          -- the root PLL locks
  | rom          -- the boot ROM reads fuses and slots
  | recovery     -- no valid slot (R533)
  | blocks       -- modules, links, lofts and sites are brought up
  | ready        -- MAILBOX_READY has been set
  | tripped      -- THERMTRIP_N is asserted (R526)
  | lost         -- the PLL has lost lock (R523)
  deriving DecidableEq, Repr

/-- Clocks of the device (R522, R524). `root` counts periods of the 13.2 GHz root. -/
structure Clocks where
  root : Nat := 0
  nclk : Nat := 0
  aclk : Nat := 0
  /-- Root periods since the last ACLK edge, and the divider of ACLK, which changes at an NCLK edge (R524). -/
  phase : Nat := 0
  div : Nat := 8
  deriving DecidableEq, Repr

/-- The host port (R394 to R404). -/
structure HostPort where
  mods : Vector Module 2 := Vector.replicate 2 {}
  refused : Rc 32 := {}
  copyBytes : BitVec 64 := 0#64
  /-- Messages that have left for the host, oldest first. -/
  out : List HostMsg := []
  deriving DecidableEq, Repr

/-- Firmware staging in progress (R434): slot, bytes announced, data so far, and its operation. -/
structure Staging where
  slot : Nat
  bytes : Nat
  data : Bytes := []
  op : Fin 64
  deriving DecidableEq, Repr

/-- A rebuild of routes in progress (R376). -/
structure Rebuild where
  op : Fin 64
  full : Bool
  written : Nat := 0
  deriving DecidableEq, Repr

/-- A hitch load on a member or the lead (R304, R305). -/
structure HitchLoad where
  jobId : Bytes := []
  /-- On a member: the paddock that loads, the sub-image's length and its bytes so far. -/
  pad : Option PadId := none
  slotLen : Nat := 0
  data : Bytes := []
  ended : Bool := false
  verified : Bool := false
  committed : Bool := false
  /-- On the lead: positions whose LOAD_END was sent, with the NCLK cycle; when COMMIT was sent. -/
  ends : List (Nat × Nat) := []
  since : Nat := 0
  peersVerified : List Nat := []
  peersCommitted : List Nat := []
  deriving DecidableEq, Repr

/-- An image load in progress (R290 to R301): the bytes delivered and how far the checks have come. -/
structure ImageLoad where
  op : Fin 64
  copy : Nat
  pad : PadId
  bytes : Nat
  /-- Delivered bytes in order from byte 0, and later pieces by offset. -/
  data : Bytes := []
  later : List (Nat × Bytes) := []
  ended : Bool := false
  /-- Checks passed: header, table, wrapped key, signature, image; bodies and tiles by number (R298). -/
  passed : List Nat := []
  bodies : List (Nat × Bytes) := []
  tiles : List Nat := []
  imageKey : Option Bytes := none
  /-- First failure: stage, byte and code (R299). -/
  failure : Option (Nat × Nat × BitVec 16) := none
  /-- IMAGE_COMMIT has been sent (R302). -/
  committing : Bool := false
  /-- The delivery is a hitch container, for a hitch of `count` devices (R303). -/
  hitch : Bool := false
  count : Nat := 0
  deriving DecidableEq, Repr

/-- Kinds of the sites as the remount fuses give them (R21, R42). -/
def fusedKinds (remounts : List SiteId) : Vector SiteKind 48 :=
  Vector.ofFn fun s : Fin 48 => if remounts.contains s then .darkRemount else .inService

/-- Everything of the device outside the fuses and the flash. PORST_N clears it, but for the repair rows, the repair
tables and REPLACE_N (R493, R496, R531, R546). -/
structure Dev where
  /-- Repair fuse rows written, oldest first; 64 rows exist (R493). -/
  repairs : List Repair := []
  /-- Row spares of the per-loft repair tables in the boot flash: loft, channel, bank, row (R496). -/
  rowSpares : List (Nat × Nat × Nat × Nat) := []
  stage : BootStage := .inReset
  clk : Clocks := {}
  /-- Number of the next free value (the model's own, not the manual's). -/
  freeCtr : Nat := 0
  /-- What the last register read, or I3C read of a CCC, returned (the model's own output). -/
  readout : Nat := 0
  /-- Events awaited in bring-up: sites tested. -/
  tested : List SiteId := []
  entropyOk : Bool := true
  /-- STRAP_ROLE as sampled (R356), owner settings in force (R534). -/
  strap : BitVec 2 := 0#2
  settings : List (Nat × BitVec 64) := []
  trustBad : Bool := false
  /-- Owner alerts held, by the number of `Alert` (R546). -/
  alerts : Word := 0#32
  replaceN : Bool := false
  i3cAddr : Option (BitVec 7) := none
  kinds : Vector SiteKind 48 := Vector.replicate 48 .inService
  tiles : Vector Tile 48 := Vector.replicate 48 {}
  lofts : Vector Loft 48 := Vector.replicate 48 {}
  mesh : List MeshPkt := []
  /-- Input links of each site's router from outside the mesh, by port: the cycle from which each is free (R315, R317). -/
  meshIn : Vector (Vector Nat 8) 48 := Vector.replicate 48 (Vector.replicate 8 0)
  /-- Packets on their way out of a router into an endpoint, each with the NCLK cycle in which it is there (R325). -/
  landing : List (Nat × MeshPkt) := []
  /-- Claim and commit requests that wait at a loft (R243). -/
  claims : Vector (List MeshMsg) 48 := Vector.replicate 48 []
  /-- Seam links in service by column, one bit per link (R323). -/
  seam : Vector (BitVec 4) 6 := Vector.replicate 6 0xF#4
  car : Carillon := {}
  links : Vector Link 16 := Vector.replicate 16 {}
  fab : Fabric := {}
  host : HostPort := {}
  mbs : Vector Mailbox 17 := Vector.replicate 17 {}
  owner : Mailbox := {}
  fabMbs : Vector Mailbox 4 := Vector.replicate 4 {}
  rings : Vector Ring 17 := Vector.replicate 17 {}
  ops : Vector Op 64 := Vector.replicate 64 {}
  copies : Vector Copy 16 := Vector.replicate 16 {}
  pads : Vector (Option Paddock) 16 := Vector.replicate 16 none
  seals : Vector SealState 16 := Vector.replicate 16 {}
  sessions : List Session := []
  /-- Digests of the last 4,096 ciphertexts accepted (R464). -/
  digests : List Bytes := []
  seqs : Vector SeqSlot 16 := Vector.replicate 16 {}
  accounts : Vector Account 17 := Vector.replicate 17 {}
  beats : Option Beats := none
  ym : Yard := {}
  loads : List ImageLoad := []
  hitch : Option HitchLoad := none
  hitchFormed : Bool := false
  hitchFailed : Bool := false
  staging : Option Staging := none
  staged : Option Nat := none
  rebuild : Option Rebuild := none
  deriving DecidableEq, Repr

end Sys2Proof.Machine
end

