-- ==== Sys2Proof/Machine/State.lean ====
section
/-!
DEFINITION. The state of the block: fuses and flash, the device, and the queue of waiting commands; the reasons a step
could stop; the state right after reset.
-/
namespace Sys2Proof.Machine

/-- The state of the block. -/
structure State where
  /-- Fuses and boot flash (R451 to R461, R478, R531, R545). -/
  fuse : Fuse := {}
  /-- Everything else (R531). -/
  dev : Dev := {}
  /-- Commands that wait, first in, first out. -/
  pending : List Instr := []
  deriving DecidableEq, Repr

/-- Faults of the model. The device's own faults (R482) are effects on its state, never an end of the run, and no
command of the table is without an effect; so no meaning raises one. -/
inductive Fault where
  /-- Raised by nothing: the device's faults are next states. Safe. -/
  | halted
  deriving DecidableEq, Repr

/-- Refusals of the model. -/
inductive Refusal where
  /-- Raised by an arm of `exec` whose command has no meaning yet. Safe: nothing is claimed of such a command. -/
  | notModelled (mnemonic : String)
  deriving DecidableEq, Repr

/-- The machine right after reset: PORST_N is asserted, every block is stopped and only fuses and flash hold
something (R530, R531); the registers that the fuses give show them (R42, R404). The fused values are those of log entries 1
and 2. -/
def State.reset : State := { dev := { kinds := fusedKinds [5, 23, 30, 42] } }

end Sys2Proof.Machine
end

