-- ==== Sys2Proof/Machine/Approx.lean ====
section
/-!
DEFINITION. The approximation operations of the vector units (R141, R144). The manual states a bound on the error and
no value: the result is a free value of Config wherever that value meets the bound, and the value nearest the exact
result otherwise. The exact result is enclosed in fixed point with 120 fractional bits (an error below 2^-100, far
inside every bound). DESIGN CHOICE, assumption 10.
-/
namespace Sys2Proof.Machine

/-- Fractional bits of the fixed-point enclosures. -/
def fxBits : Nat := 120
def fxOne : Nat := 2 ^ fxBits
def fxLn2 : Nat := 921350637599661305226344307672478454
def fxLog2e : Nat := 1917670637729674084946755258930051709
def fxPi : Nat := 4175892906503776358826876457663557747

/-- e^x for 0 ≤ x < 1 in fixed point, by its series. -/
def fxExp (x : Nat) : Nat :=
  ((List.range 40).foldl (fun (acc : Nat × Nat) i =>
    let term := acc.2 * x / fxOne / (i + 1)
    (acc.1 + term, term)) (fxOne, fxOne)).1

/-- sin x for 0 ≤ x ≤ π/2 in fixed point, by its series. -/
def fxSin (x : Nat) : Int :=
  let x2 : Int := ((x * x / fxOne : Nat) : Int)
  ((List.range 24).foldl (fun (acc : Int × Int) (i : Nat) =>
    let k : Int := (2 * (i : Int) + 2) * (2 * (i : Int) + 3)
    let term := -(acc.2 * x2 / (fxOne : Int)) / k
    (acc.1 + term, term)) (((x : Nat) : Int), ((x : Nat) : Int))).1

/-- Integer square root by bits from bit `n` down. -/
def isqrtBits (x : Nat) : Nat → Nat → Nat
  | 0, r => r
  | n + 1, r => let c := r + 2 ^ n; isqrtBits x n (if c * c ≤ x then c else r)

/-- A finite value as a fixed-point integer, floor. -/
def Val.toFx : Val → Int
  | .fin s m e =>
    let x : Int := if 0 ≤ e + fxBits then ((m * 2 ^ (e + fxBits).toNat : Nat) : Int)
                   else ((m / 2 ^ (-(e + fxBits)).toNat : Nat) : Int)
    if s then -x else x
  | _ => 0

/-- 2^t for a fixed-point t, as an exact value close to it; arguments beyond ±1024 are held there. -/
def exp2Fx (t : Int) : Val :=
  let t := max (-(1024 * (fxOne : Int))) (min (1024 * (fxOne : Int)) t)
  let n := t / (fxOne : Int)
  let f := (t % (fxOne : Int)).toNat
  .fin false (fxExp (f * fxLn2 / fxOne)) (n - fxBits)

/-- log2 of a positive magnitude: 80 bits of fraction by repeated squaring. -/
def log2Mag (m : Nat) (e : Int) : Val :=
  let k := Nat.log2 m
  let x0 := m * 2 ^ fxBits / 2 ^ k
  let (fr, _) := (List.range 80).foldl (fun (acc : Nat × Nat) _ =>
    let y := acc.2 * acc.2 / fxOne
    if y ≥ 2 * fxOne then (2 * acc.1 + 1, y / 2) else (2 * acc.1, y)) (0, x0)
  let v : Int := ((k : Int) + e) * (2 ^ 80 : Nat) + (fr : Int)
  .fin (decide (v < 0)) v.natAbs (-80)

/-- Reciprocal of a non-zero magnitude. -/
def recipMag (m : Nat) (e : Int) : Nat × Int :=
  let k := Nat.log2 m
  (2 ^ (fxBits + k) / m, -e - fxBits - k)

/-- Square root of a magnitude. -/
def sqrtMag (m : Nat) (e : Int) : Nat × Int :=
  let (m, e) := if e % 2 == 0 then (m, e) else (2 * m, e - 1)
  (isqrtBits (m * 2 ^ 240) (Nat.log2 m / 2 + 122) 0, e / 2 - 120)

/-- `|y - c| * 2^k ≤ num * b`, with `b = |c|` for a relative bound and 1 for an absolute one. -/
def withinBound (y c : Val) (num k : Nat) (rel : Bool) : Bool :=
  match y, c with
  | .fin _ _ e, .fin _ m f =>
    let d := Val.add y c.neg
    (match d with
     | .fin _ dm de =>
       let b : Nat × Int := if rel then (m, f) else (1, 0)
       !(magGt dm (de + k) (num * b.1) b.2)
     | _ => false) && decide (e ≥ -1100)
  | _, _ => false

/-- The free value `y` where it meets the bound around `c`, the nearest FP32 value to `c` otherwise; overflow and
flushing as R141 gives. -/
def approxResult (sat : Bool) (y : Word) (c : Val) (num k : Nat) (rel : Bool) : Nat × AFlags :=
  let yv := decodeEl 8 y.toNat
  if withinBound yv c num k rel then encodeFloat 8 .rne sat 0 yv
  else encodeFloat 8 .rne sat 0 c

/-- sin(π r) of an exact FP32 argument plus `half` quarter-turn steps of 1/2; the argument is reduced modulo 2
exactly (R141). -/
def sinPi (s : Bool) (m : Nat) (e : Int) (half : Nat) : Val :=
  let u := 2 ^ 160
  let x : Int := if 0 ≤ e + 160 then ((m * 2 ^ (e + 160).toNat : Nat) : Int) else 0
  let x := (if s then -x else x) + (half * (u / 2) : Nat)
  let r := (x % (2 * u : Nat)).toNat
  let (neg, r) := if r ≥ u then (true, r - u) else (false, r)
  let r := if 2 * r > u then u - r else r
  let v := fxSin (r * fxPi / u)
  .fin neg v.toNat (-(fxBits : Int))

/-- An approximation opcode on FP32 bits (R141). A special input gives the result of the table, an infinity too whatever
SAT; SAT acts on a result that overflows. -/
def approxOp (op : Nat) (sat : Bool) (a b : Nat) : Nat × AFlags :=
  let y := Config.approx op (BitVec.ofNat 32 a) (BitVec.ofNat 32 b)
  let av := decodeEl 8 a
  let bv := decodeEl 8 b
  let enc (v : Val) := encodeFloat 8 .rne sat 0 v
  let special (v : Val) := encodeFloat 8 .rne false 0 v
  match op, av with
  | 0x2D, _ =>
    (match av, bv with
     | .nan, _ => enc .nan
     | _, .nan => enc .nan
     | x, .inf t => enc (Val.mul x (.fin t 0 0))
     | x, .fin t 0 _ => enc (Val.mul x (.inf t))
     | .inf s, .fin t _ _ => enc (.inf (s != t))
     | .fin s m e, .fin t n f =>
       if m == 0 then enc (.fin (s != t) 0 0)
       else
         let (q, g) := recipMag n f
         approxResult sat y (.fin (s != t) (m * q) (e + g)) 1 22 true)
  | _, .nan => enc .nan
  | 0x28, .inf s => special (if s then .fin false 0 0 else .inf false)
  | 0x28, .fin s m e =>
    if !s && magGt m e 127 0 && !(magGt 128 0 m e) then enc (.inf false)
    else approxResult sat y (if magGt m e 1024 0 then exp2Fx (if s then -(1024 * (fxOne : Int)) else 1024 * (fxOne : Int))
      else exp2Fx (Val.toFx (.fin s m e))) 1 22 true
  | 0x29, .inf s => special (if s then .nan else .inf false)
  | 0x29, .fin s m e =>
    if m == 0 then special (.inf true)
    else if s then enc .nan
    else
      let near := !(magGt 1 (-1) m e) && magGt 2 0 m e
      approxResult sat y (log2Mag m e) 1 22 (!near)
  | 0x2A, .inf s => enc (.fin s 0 0)
  | 0x2A, .fin s m e =>
    if m == 0 then special (.inf s)
    else
      let (q, g) := recipMag m e
      approxResult sat y (.fin s q g) 1 23 true
  | 0x2B, .inf s => enc (if s then .nan else .fin false 0 0)
  | 0x2B, .fin s m e =>
    if m == 0 then special (.inf s)
    else if s then enc .nan
    else
      let (q, g) := sqrtMag m e
      let (r, h) := recipMag q g
      approxResult sat y (.fin false r h) 1 22 true
  | 0x2C, .inf s => special (if s then .nan else .inf false)
  | 0x2C, .fin s m e =>
    if m == 0 then enc (.fin s 0 0)
    else if s then enc .nan
    else
      let (q, g) := sqrtMag m e
      approxResult sat y (.fin false q g) 1 23 true
  | 0x2E, .inf s => enc (.fin s 1 0)
  | 0x2E, .fin s m e =>
    if !(magGt 9 0 m e) then enc (.fin s 1 0)
    else
      let t := Val.toFx (.fin false m e)
      let w := Val.toFx (exp2Fx (2 * t * (fxLog2e : Int) / (fxOne : Int)))
      let q := ((w - fxOne) * (fxOne : Int) / (w + fxOne)).toNat
      approxResult sat y (.fin s q (-(fxBits : Int))) 1 22 false
  | 0x2F, .inf s => enc (if s then .fin false 0 0 else .fin false 1 0)
  | 0x2F, .fin s m e =>
    let big := magGt m e 512 0
    let t := if big then (if s then -(512 * (fxOne : Int)) else 512 * (fxOne : Int)) else Val.toFx (.fin s m e)
    (match exp2Fx (-(t * (fxLog2e : Int) / (fxOne : Int))) with
     | .fin _ wm we =>
       (match Val.add (.fin false wm we) (.fin false 1 0) with
        | .fin _ sm se =>
          let (q, g) := recipMag sm se
          approxResult sat y (.fin false q g) 1 23 false
        | v => enc v)
     | v => enc v)
  | 0x30, .inf _ => enc .nan
  | 0x30, .fin s m e => if m == 0 then enc (.fin s 0 0) else approxResult sat y (sinPi s m e 0) 1 22 false
  | 0x31, .inf _ => enc .nan
  | 0x31, .fin s m e => approxResult sat y (sinPi s m e 1) 1 22 false
  | _, v => enc v

/-! ### Online softmax statistics (R144) -/

/-- 2^(x - m) of two values as R144 uses it; NaN where the difference is. -/
def exp2Diff (x m : Val) : Val :=
  match Val.add x m.neg with
  | .nan => .nan
  | .inf true => .fin false 0 0
  | .inf false => .inf false
  | .fin s a e =>
    if magGt a e 1024 0 then exp2Fx (if s then -(1024 * (fxOne : Int)) else 1024 * (fxOne : Int))
    else exp2Fx (Val.toFx (.fin s a e))

/-- A statistics sum: the exact sum `c` of `n + 1` terms within (2^-22 + n 2^-23) of it (R144). -/
def osmSum (sat : Bool) (y : Word) (c : Val) (n : Nat) : Nat × AFlags :=
  match c with
  | .fin _ 0 _ => encodeFloat 8 .rne sat 0 c
  | _ => approxResult sat y c (2 + n) 23 true

/-- m and l of a segment's active values (R144, OSM_STAT). -/
def osmStat (sat : Bool) (xs : List Nat) : (Nat × AFlags) × (Nat × AFlags) :=
  let vs := xs.map (decodeEl 8)
  if vs.any Val.isNan then (encodeFloat 8 .rne sat 0 .nan, encodeFloat 8 .rne sat 0 .nan)
  else if vs.all (fun v => match v with | .fin _ _ _ => false | _ => true) then
    ((fmtInf 8 true, AFlags.inf), (0, AFlags.none))
  else
    let m := vs.foldl (fun acc v => Val.max acc v) (.inf true)
    let l := vs.foldl (fun acc v => Val.add acc (exp2Diff v m)) (.fin false 0 0)
    (encodeFloat 8 .rne false 0 m, osmSum sat (Config.osm 0x50 (xs.map (BitVec.ofNat 32))) l (xs.length - 1))

/-- Combination of statistics pairs (R144, OSM_COMB). -/
def osmComb (sat : Bool) (ps : List (Nat × Nat)) : (Nat × AFlags) × (Nat × AFlags) :=
  let vs := ps.map fun (m, l) => (decodeEl 8 m, decodeEl 8 l)
  if vs.any (fun (m, l) => m.isNan || l.isNan) then (encodeFloat 8 .rne sat 0 .nan, encodeFloat 8 .rne sat 0 .nan)
  else
    let m := vs.foldl (fun acc v => Val.max acc v.1) (.inf true)
    if m == .inf true then ((fmtInf 8 true, AFlags.inf), (0, AFlags.none))
    else
      let l := vs.foldl (fun acc v =>
        Val.add acc (if v.2.isZero then .fin false 0 0 else Val.mul v.2 (exp2Diff v.1 m))) (.fin false 0 0)
      (encodeFloat 8 .rne false 0 m,
       osmSum sat (Config.osm 0x51 (ps.flatMap fun p => [BitVec.ofNat 32 p.1, BitVec.ofNat 32 p.2])) l (ps.length - 1))

/-- 2^(A - m) / l (R144, OSM_NORM): NaN for a segment with no active value, within 2^-21. -/
def osmNorm (sat : Bool) (a m l : Nat) : Nat × AFlags :=
  let av := decodeEl 8 a
  let mv := decodeEl 8 m
  let lv := decodeEl 8 l
  if mv == .inf true && lv.isZero then encodeFloat 8 .rne sat 0 .nan
  else
    let y := Config.osm 0x52 [BitVec.ofNat 32 a, BitVec.ofNat 32 m, BitVec.ofNat 32 l]
    match exp2Diff av mv, lv with
    | .fin s x e, .fin t n f =>
      if n == 0 then encodeFloat 8 .rne sat 0 (Val.mul (.fin s x e) (.inf t))
      else if x == 0 then encodeFloat 8 .rne sat 0 (.fin (s != t) 0 0)
      else
        let (q, g) := recipMag n f
        approxResult sat y (.fin (s != t) (x * q) (e + g)) 1 21 true
    | v, .fin t n _ => encodeFloat 8 .rne sat 0 (if n == 0 then Val.mul v (.inf t) else Val.mul v (.fin t n 0))
    | v, .inf t => encodeFloat 8 .rne sat 0 (Val.mul v (.fin t 0 0))
    | _, .nan => encodeFloat 8 .rne sat 0 .nan

/-- 2^(m_old - m_new); +0 when m_old is −∞ (R144, OSM_RESCALE), within the bound of EXP2. -/
def osmRescale (sat : Bool) (old new : Nat) : Nat × AFlags :=
  let o := decodeEl 8 old
  let n := decodeEl 8 new
  if o == .inf true then (0, AFlags.none)
  else
    let c := exp2Diff o n
    match c with
    | .fin _ 0 _ => encodeFloat 8 .rne sat 0 c
    | .fin _ _ _ => approxResult sat (Config.osm 0x53 [BitVec.ofNat 32 old, BitVec.ofNat 32 new]) c 1 22 true
    | v => encodeFloat 8 .rne sat 0 v

end Sys2Proof.Machine
end

