-- ==== Sys2Proof/Machine/VxuOps.lean ====
section
/-!
DEFINITION. What a vector unit computes in one firing (R126 to R151): the six stages over the firing's vectors, the
operand sources, broadcasts, masks, registers, predicates, steering and output tokens.
-/
namespace Sys2Proof.Machine

/-- Bits `lo` to `lo + len - 1` of a number. -/
def fld (x lo len : Nat) : Nat := x / 2 ^ lo % 2 ^ len

/-- Write bits into a number. -/
def setFld (x lo len v : Nat) : Nat := x - fld x lo len * 2 ^ lo + v % 2 ^ len * 2 ^ lo

/-- Weight of bit `i` where it is set. -/
def bit (b : Bool) (i : Nat) : Nat := if b then 2 ^ i else 0

/-- Bit `i` of a number. -/
def bitOf (x i : Nat) : Bool := fld x i 1 == 1

/-! ### Fields of the grid firing header (R55) -/

def hdrInRate (c n : Nat) : Nat := fld c (4 * n) 4
def hdrOutRate (c n : Nat) : Nat := fld c (16 + 4 * n) 4
def hdrInSide (c n : Nat) : Nat := fld c (32 + 2 * n) 2
def hdrOutSide (c n : Nat) : Nat := fld c (40 + 2 * n) 2
def hdrInCtrl (c n : Nat) : Bool := bitOf c (48 + n)
def hdrFireCount (c : Nat) : Nat := fld c 64 32
def hdrCfgGen (c : Nat) : Nat := fld c 96 16

/-! ### VXU control words (R126), as fields of the whole record -/

def vxCkind (c n : Nat) : Nat := fld c (128 + 2 * n) 2
def vxOsrc (c n : Nat) : Nat := fld c (136 + 3 * n) 3
def vxFwdIn (c : Nat) : Nat := fld c 148 2
def vxSteer (c : Nat) : Nat := fld c 150 2
def vxSeg (c : Nat) : Nat := fld c 152 4
def vxColBase (c : Nat) : Nat := fld c 156 6
def vxColLen (c : Nat) : Nat := fld c 162 7
def vxResetMask (c : Nat) : Nat := fld c 176 8
def vxRowFirings (c : Nat) : Nat := fld c 192 32
/-- Stage operation word `s` (R125, R130). -/
def vxStage (c s : Nat) : Nat := fld c (256 + 128 * s) 128

/-! ### Stage operation word fields (R130) -/

def swOp (w : Nat) : Nat := fld w 0 8
def swLfmt (w : Nat) : Nat := fld w 8 4
def swSrcA (w : Nat) : Nat := fld w 12 4
def swSrcB (w : Nat) : Nat := fld w 16 4
def swSrcC (w : Nat) : Nat := fld w 20 4
def swDst (w : Nat) : Nat := fld w 24 4
def swMaskSel (w : Nat) : Nat := fld w 28 2
def swMaskInv (w : Nat) : Bool := bitOf w 30
def swMaskZero (w : Nat) : Bool := bitOf w 31
def swRound (w : Nat) : Nat := fld w 32 2
def swSat (w : Nat) : Bool := bitOf w 34
def swQdst (w : Nat) : Nat := fld w 35 1
def swBcast (w : Nat) : Nat := fld w 36 2
def swXfmt (w : Nat) : Nat := fld w 40 4
def swAux (w : Nat) : Nat := fld w 48 8
def swImm (w : Nat) : Nat := fld w 64 32

/-- Stage latency λ (R136). -/
def opLatency (op : Nat) : Nat :=
  if op == 0x21 || op == 0x23 || (0x38 ≤ op && op ≤ 0x3B) then 2
  else if (0x28 ≤ op && op ≤ 0x31) || (0x50 ≤ op && op ≤ 0x53) then 3
  else 1

/-- Width ratio of a packing or unpacking stage (R127, R139, R140). -/
def stageRatio (w : Nat) : Nat := max 1 (fmtWidth (swLfmt w) / max 1 (fmtWidth (swXfmt w)))

/-- Opcodes whose stage leaves one vector (R127). -/
def opToOne (op : Nat) : Bool := (0x3C ≤ op && op ≤ 0x3E) || op == 0x50 || op == 0x51

/-- The count leaving a stage that `v` vectors enter (R127). -/
def stageCount (w v : Nat) : Nat :=
  let op := swOp w
  if op == 0x21 || op == 0x23 then v / stageRatio w
  else if op == 0x22 || op == 0x24 then v * stageRatio w
  else if opToOne op then 1
  else v

/-- The vector count that enters S0 (R127). -/
def vxV0 (c : Nat) : Nat :=
  if vxSteer c == 2 then ((List.range 4).filter fun n => hdrInRate c n != 0 && !(hdrInCtrl c n)).length
  else max 1 ((List.range 4).foldl (fun a n => max a (hdrInRate c n)) 0)

/-- Counts V0 to V6 (R127). -/
def vxCounts (c : Nat) : List Nat :=
  (List.range 6).foldl (fun acc s => acc ++ [stageCount (vxStage c s) (acc.getLastD 1)]) [vxV0 c]

/-- The initiation interval (R129). -/
def vxII (c : Nat) : Nat := ((vxCounts c).take 6).foldl max 1

/-- The firing latency L = D + II − 1 (R129). -/
def vxLatency (c : Nat) : Nat :=
  (List.range 6).foldl (fun a s => a + opLatency (swOp (vxStage c s))) 0 + vxII c - 1

/-! ### Element operations -/

/-- An integer result of width `w` under SAT (R137). -/
def intResult (w : Nat) (sat : Bool) (v : Int) : Nat × AFlags :=
  let (x, cl) := clampInt w v
  if sat then (unsignedOf w x, AFlags.when cl AFlags.saturated)
  else (unsignedOf w v, AFlags.when cl AFlags.wrapped)

/-- ADD to CLAMP on one element (R136, R137). -/
def arithOp (op lf : Nat) (r : Round) (sat : Bool) (rnd a b c : Nat) : Nat × AFlags :=
  let w := fmtWidth lf
  if fmtIsInt lf then
    let x := signedOf w a
    let y := signedOf w b
    let z := signedOf w c
    match op with
    | 0x01 => intResult w sat (x + y)
    | 0x02 => intResult w sat (x - y)
    | 0x03 => intResult w sat (x * y)
    | 0x04 => intResult w sat (x * y + z)
    | 0x05 => (unsignedOf w (min x y), AFlags.none)
    | 0x06 => (unsignedOf w (max x y), AFlags.none)
    | 0x07 => intResult w sat (x.natAbs : Int)
    | 0x08 => intResult w sat (-x)
    | _ => (unsignedOf w (min (max x y) z), AFlags.none)
  else
    let x := decodeFloat lf a
    let y := decodeFloat lf b
    let z := decodeFloat lf c
    let v := match op with
      | 0x01 => Val.add x y
      | 0x02 => Val.add x y.neg
      | 0x03 => Val.mul x y
      | 0x04 => Val.add (Val.mul x y) z
      | 0x05 => Val.min x y
      | 0x06 => Val.max x y
      | 0x07 => x.abs
      | 0x08 => x.neg
      | _ => if z.isNan then .nan else Val.min (Val.max x y) z
    encodeFloat lf r sat rnd v

/-- Bitwise operations and shifts, which move bits only (R143). -/
def bitsOp (op w a b : Nat) : Nat :=
  let sh := b % w
  match op with
  | 0x0A => a &&& b
  | 0x0B => a ||| b
  | 0x0C => a ^^^ b
  | 0x0D => (2 ^ w - 1) - a % 2 ^ w
  | 0x0E => a * 2 ^ sh % 2 ^ w
  | 0x0F => a / 2 ^ sh
  | _ => unsignedOf w (signedOf w a / (2 ^ sh : Nat))

/-- Compares (R138). -/
def cmpOp (op lf a b : Nat) : Bool :=
  let x := decodeEl lf a
  let y := decodeEl lf b
  match op with
  | 0x18 => Val.eq x y
  | 0x19 => !(Val.eq x y)
  | 0x1A => Val.lt x y
  | _ => Val.lt x y || Val.eq x y

/-- One rounded addition of a reduction (R142), with integers under R137. -/
def addEl (lf : Nat) (r : Round) (sat : Bool) (rnd a b : Nat) : Nat × AFlags := arithOp 0x01 lf r sat rnd a b 0

/-- MAX or MIN of two elements as RMAX, RMIN, BMAX and BMIN use them (R142). -/
def maxMinEl (isMax : Bool) (lf : Nat) (r : Round) (sat : Bool) (a b : Nat) : Nat × AFlags :=
  arithOp (if isMax then 0x06 else 0x05) lf r sat 0 a b 0

/-- A reduction of one element is still a VXU result: a float goes through the rounding, flush and NaN rules (R137,
R550) and an integer stays. -/
def loneEl (lf : Nat) (r : Round) (sat : Bool) (a : Nat) : Nat × AFlags :=
  if fmtIsInt lf then (a, AFlags.none) else encodeFloat lf r sat 0 (decodeFloat lf a)

/-- One level of a balanced pairwise tree; an element left out combines as nothing. -/
def treeLevel (f : Nat → Nat → Nat → Nat × AFlags) : Nat → List (Option Nat) → List (Option Nat) × AFlags
  | _, [] => ([], AFlags.none)
  | _, [x] => ([x], AFlags.none)
  | k, x :: y :: rest =>
    let (z, fl) := match x, y with
      | some a, some b => let (v, g) := f k a b; (some v, g)
      | some a, none => (some a, AFlags.none)
      | none, b => (b, AFlags.none)
    let (zs, fl') := treeLevel f (k + 1) rest
    (z :: zs, fl ||| fl')

/-- The balanced pairwise tree over `n` levels (R142). -/
def treeReduce (f : Nat → Nat → Nat → Nat × AFlags) : Nat → List (Option Nat) → AFlags → Option Nat × AFlags
  | 0, l, fl => (l.head?.join, fl)
  | n + 1, l, fl => let (l', g) := treeLevel f (64 * n) l; treeReduce f n l' (fl ||| g)

/-- Identity of a reduction without active elements (R134). -/
def reduceIdentity (op lf : Nat) : Nat :=
  if op == 0x38 then 0
  else if fmtIsInt lf then unsignedOf (fmtWidth lf) (if op == 0x39 then intMin (fmtWidth lf) else intMax (fmtWidth lf))
  else fmtInf lf (op == 0x39)

/-- An integer sum: exact, then one result under R137 (R142). -/
def intSum (lf : Nat) (sat : Bool) (xs : List Nat) : Nat × AFlags :=
  intResult (fmtWidth lf) sat (xs.foldl (fun s x => s + signedOf (fmtWidth lf) x) 0)

/-- A segment reduction RSUM, RMAX or RMIN over its active elements (R134, R142). -/
def segReduce (op lf seg : Nat) (r : Round) (sat : Bool) (rnd : Nat → Nat) (xs : List (Option Nat)) : Nat × AFlags :=
  if op == 0x38 && fmtIsInt lf then intSum lf sat (xs.filterMap id) else
  let f (k a b : Nat) := if op == 0x38 then addEl lf r sat (rnd k) a b else maxMinEl (op == 0x39) lf r sat a b
  match treeReduce f seg xs AFlags.none with
  | (some v, fl) => let (x, g) := loneEl lf r sat v; (x, fl ||| g)
  | (none, _) => (reduceIdentity op lf, AFlags.none)

/-- Inclusive prefix sums of one segment over its active elements: integers exactly, floats left to right (R134, R142). An
inactive element sets no flag. -/
def segScan (lf : Nat) (r : Round) (sat : Bool) (rnd : Nat → Nat) (xs : List (Option Nat)) : List (Nat × AFlags) :=
  if fmtIsInt lf then
    (xs.zip (List.range xs.length)).map fun (x, j) =>
      let s := intSum lf sat ((xs.take (j + 1)).filterMap id)
      if x.isSome then s else (s.1, AFlags.none)
  else
  (xs.foldl (fun (acc : Option Nat × List (Nat × AFlags) × Nat) x =>
    let (cur, out, k) := acc
    match cur, x with
    | none, none => (none, out ++ [(0, AFlags.none)], k + 1)
    | none, some a => (some a, out ++ [loneEl lf r sat a], k + 1)
    | some s, none => (some s, out ++ [((loneEl lf r sat s).1, AFlags.none)], k + 1)
    | some s, some a => let (v, fl) := addEl lf r sat (rnd k) s a; (some v, out ++ [(v, fl)], k + 1))
    (none, [], 0)).2.1

/-- Cut a list into pieces of `n` (fuelled by the list's length). -/
def chunksOf (n : Nat) (l : List α) : List (List α) :=
  (List.range ((l.length + n - 1) / max n 1)).map fun i => (l.drop (i * n)).take n

/-- A DATA vector from elements of width `w`. -/
def vecOf (w : Nat) (es : List Nat) : Token := ((packTokens w es).head?).getD Token.zero

/-! ### One stage on one vector -/

/-- What the stages share in a firing: input tokens by port, the COL entries, the PAD_MARK lanes, the registers before
the firing, and what earlier stages of this firing wrote, by vector. -/
structure FireEnv where
  cfg : Nat
  ins : List (List Token)
  consts : Vector Token 64
  regs : Vector Token 8
  preds : Vector (BitVec 256) 2
  vw : List (Nat × List Token) := []
  qw : List (Nat × List (BitVec 256)) := []
  rnd : Nat → Nat

/-- Token `v` of input `n`, token 0 where its rate is 1 (R128). -/
def FireEnv.input (e : FireEnv) (n v : Nat) : Token :=
  let ts := e.ins.getD n []
  (if ts.length == 1 then ts.head? else ts[v]?).getD Token.zero

/-- Register `i` as vector `v` of a stage sees it: what an earlier stage wrote for this vector, else the running
value (R135). -/
def FireEnv.reg (e : FireEnv) (i v : Nat) : Token :=
  match e.vw.find? (fun p => p.1 == i) with
  | some (_, l) => (l[v]?).getD Token.zero
  | none => (e.regs[i]?).getD Token.zero

def FireEnv.pred (e : FireEnv) (i v : Nat) : Nat :=
  match e.qw.find? (fun p => p.1 == i) with
  | some (_, l) => ((l[v]?).getD 0#256).toNat
  | none => ((e.preds[i]?).getD 0#256).toNat

/-- An operand source for vector `v` at stage counter `t` (R131). -/
def FireEnv.src (e : FireEnv) (lf code imm v t : Nat) (prev : Token) : Token :=
  let w := fmtWidth lf
  if code == 0 then prev
  else if code ≤ 4 then e.input (code - 1) v
  else if code == 5 then (e.consts[vxColBase e.cfg + t % max 1 (vxColLen e.cfg)]?).getD Token.zero
  else if code == 6 then vecOf w (List.replicate (64 * (32 / w)) (imm % 2 ^ w))
  else if code == 7 then Token.zero
  else e.reg (code - 8) v

/-- The PAD_MARK control input of the configuration, if any (R134). -/
def padInput (c : Nat) : Option Nat :=
  (List.range 4).find? fun n => hdrInRate c n != 0 && hdrInCtrl c n && vxCkind c n == 2

/-- Is element `j` active under the stage's mask (R134)? -/
def FireEnv.active (e : FireEnv) (w v j : Nat) : Bool :=
  let lf := swLfmt w
  let sel := swMaskSel w
  if sel == 0 then true
  else
    let base := if sel == 3 then
        let t := match padInput e.cfg with | some n => e.input n v | none => Token.zero
        let lane := j / (32 / fmtWidth lf)
        !(bitOf (t.lane (lane / 32)).toNat (lane % 32))
      else bitOf (e.pred (sel - 1) v) j
    base != swMaskInv w

/-- Operand B after broadcast (R133). -/
def bcastB (w seg : Nat) (es : List Nat) : List Nat :=
  match swBcast w with
  | 1 => (List.range es.length).map fun j => es.getD (j / 2 ^ seg) 0
  | 2 => es.map fun _ => es.getD (swAux w) 0
  | _ => es

/-- Lane-moving opcodes PERM to ZIPHI (R136, R143). -/
def laneOp (e : FireEnv) (w : Nat) (a b : Token) : Token :=
  let op := swOp w
  let aux := swAux w
  Token.ofFn 0#3 fun n =>
    match op with
    | 0x40 => a.lane (fld ((((e.consts[aux]?).getD Token.zero).lane n).toNat) 0 6)
    | 0x41 => a.lane (n ^^^ (aux % 64))
    | 0x42 => a.lane ((n + aux % 64) % 64)
    | 0x43 => a.lane ((b.lane n).toNat % 64)
    | 0x44 => if n % 2 == 0 then a.lane (n / 2) else b.lane (n / 2)
    | _ => if n % 2 == 0 then a.lane (32 + n / 2) else b.lane (32 + n / 2)

/-- Elements of a result vector before the mask, with their flags: every opcode that keeps the count and works element
by element, lane by lane or within the vector (R136 to R145). DESIGN CHOICE (log entry 76): OSM_RESCALE computes its factor
on the even lanes past the last segment too, from the zeros that stand there. -/
def stageElems (e : FireEnv) (w v t : Nat) (a b c : Token) : List (Nat × AFlags) :=
  let op := swOp w
  let lf := swLfmt w
  let wd := fmtWidth lf
  let r := Round.ofCode (swRound w)
  let sat := swSat w
  let n := 64 * (32 / wd)
  let rnd (j : Nat) := e.rnd (v * 0x40000 + j)
  let seg := vxSeg e.cfg
  let ae := a.elems wd
  let be := bcastB w seg (b.elems wd)
  let ce := c.elems wd
  let map3 (f : Nat → Nat → Nat → Nat → Nat × AFlags) : List (Nat × AFlags) :=
    (List.range n).map fun j => f j (ae.getD j 0) (be.getD j 0) (ce.getD j 0)
  let act (j : Nat) (x : Nat) : Option Nat := if e.active w v j then some x else none
  if op == 0x00 then map3 fun _ x _ _ => (x, AFlags.none)
  else if op ≤ 0x09 then map3 fun j x y z => arithOp op lf r sat (rnd j) x y z
  else if op ≤ 0x10 then map3 fun _ x y _ => (bitsOp op wd x y, AFlags.none)
  else if op ≤ 0x1B then map3 fun _ x y _ => (if cmpOp op lf x y then 2 ^ wd - 1 else 0, AFlags.none)
  else if op == 0x1C then map3 fun j x y _ => (if bitOf (e.pred (swAux w % 2) v) j then x else y, AFlags.none)
  else if op == 0x20 then map3 fun j x _ _ => encodeEl (swXfmt w) r sat (rnd j) (decodeEl lf x)
  else if 0x28 ≤ op && op ≤ 0x31 then map3 fun _ x y _ => approxOp op sat x y
  else if 0x38 ≤ op && op ≤ 0x3A then
    let segs := chunksOf (2 ^ seg) ((ae.zip (List.range n)).map fun (x, j) => act j x)
    let res := (segs.zip (List.range segs.length)).map fun (xs, i) =>
      segReduce op lf seg r sat (fun k => rnd (i * 512 + k)) xs
    res ++ List.replicate (n - res.length) (0, AFlags.none)
  else if op == 0x3B then
    let segs := chunksOf (2 ^ seg) ((ae.zip (List.range n)).map fun (x, j) => act j x)
    (segs.zip (List.range segs.length)).flatMap fun (xs, i) => segScan lf r sat (fun k => rnd (i * 512 + k)) xs
  else if 0x40 ≤ op && op ≤ 0x45 then
    let bb := vecOf wd be
    ((laneOp e w a (if swBcast w == 0 then b else bb)).elems wd).map fun x => (x, AFlags.none)
  else if op == 0x52 then map3 fun j x _ _ =>
    let s := j / 2 ^ seg
    osmNorm sat x (be.getD (2 * s) 0) (be.getD (2 * s + 1) 0)
  else if op == 0x53 then map3 fun j x y _ =>
    if j % 2 == 0 then osmRescale sat x y else (0, AFlags.none)
  else if op == 0x58 then map3 fun _ x _ _ => ((max 0 (min 15 (signedOf 32 x))).toNat, AFlags.none)
  else if op == 0x5C then map3 fun j _ _ _ => ((swImm w + n * t + j) % 2 ^ wd, AFlags.none)
  else map3 fun _ x _ _ => (x, AFlags.none)

/-- MKPAD (R145). -/
def mkPad (e : FireEnv) (w v : Nat) : Token :=
  let q := e.pred (swAux w % 2) v
  let per := 32 / fmtWidth (swLfmt w)
  let set (lane : Nat) := (List.range per).any fun i => bitOf q (lane * per + i)
  let maskWord (k : Nat) := (List.range 32).foldl (fun acc i => if set (k * 32 + i) then acc else acc + 2 ^ i) 0
  let cnt := ((List.range (64 * per)).filter (bitOf q)).length
  Token.ofFn 2#3 fun n => BitVec.ofNat 32 (match n with | 0 => maskWord 0 | 1 => maskWord 1 | 2 => cnt | _ => 0)

/-- Opcodes whose mask only selects what takes part (R134). -/
def opMaskSelects (op : Nat) : Bool := 0x38 ≤ op && op ≤ 0x3B

/-- A count-keeping stage on one vector: the result vector, its flags and its compare bits with the active ones. DESIGN
CHOICE (log entry 76): IOTA, which reads no operand, gives an inactive element the value of its source A under KEEP. -/
def stageVector (e : FireEnv) (w v t : Nat) (prev : Token) : Token × AFlags × Nat × Nat :=
  let lf := swLfmt w
  let wd := fmtWidth lf
  let op := swOp w
  let imm := swImm w
  let a := e.src lf (swSrcA w) imm v t prev
  let b := e.src lf (swSrcB w) imm v t prev
  let c := e.src lf (swSrcC w) imm v t prev
  if op == 0x59 then (mkPad e w v, AFlags.none, 0, 0)
  else
    let res := stageElems e w v t a b c
    let ae := a.elems wd
    let out := (res.zip (List.range res.length)).map fun (x, j) =>
      if opMaskSelects op || e.active w v j then x
      else if swMaskZero w then (0, AFlags.none)
      else if op == 0x58 then x
      else (ae.getD j 0, AFlags.none)
    let tok := vecOf wd (out.map Prod.fst)
    let tok := if op == 0x58 then Token.ofFn 1#3 (fun n => tok.lane n) else tok
    let actBits := (List.range res.length).foldl (fun acc j => if e.active w v j then acc + 2 ^ j else acc) 0
    let cmpBits := (res.zip (List.range res.length)).foldl (fun acc (x, j) => if x.1 != 0 then acc + 2 ^ j else acc) 0
    (tok, AFlags.orAll (out.map Prod.snd), cmpBits, actBits)

/-- An UNPACK element: a value that LFMT holds exactly stays, an infinity too; ROUND and SAT act on the others (R139). -/
def widenEl (lf : Nat) (r : Round) (sat : Bool) (rnd : Nat) (v : Val) : Nat × AFlags :=
  match v with
  | .inf _ => encodeEl lf r (sat && fmtIsInt lf) rnd v
  | _ => encodeEl lf r sat rnd v

/-! ### Stages that change the count (R127, R139, R140, R142, R144) -/

def fp32s (t : Token) : List Nat := t.elems 32

/-- PACK, UNPACK, MXQ, MXD, BSUM, BMAX, BMIN, OSM_STAT and OSM_COMB over all the stage's vectors: result vectors, the
SCALE vector of an MXQ, and flags. DESIGN CHOICE (log entry 76): MXD takes its scale token from vector 0 of operand B, also
where that operand has a token for every vector. -/
def stageBlock (e : FireEnv) (w : Nat) (as bs : List Token) : List Token × Option Token × AFlags :=
  let op := swOp w
  let lf := swLfmt w
  let xf := swXfmt w
  let wl := fmtWidth lf
  let wx := fmtWidth xf
  let r := Round.ofCode (swRound w)
  let sat := swSat w
  let seg := vxSeg e.cfg
  let rnd (j : Nat) := e.rnd (0x100000 + j)
  match op with
  | 0x21 =>
    let els := as.flatMap fun t => t.elems wl
    let res := (els.zip (List.range els.length)).map fun (x, j) => encodeEl xf r sat (rnd j) (decodeEl lf x)
    (packTokens wx (res.map Prod.fst), none, AFlags.orAll (res.map Prod.snd))
  | 0x22 =>
    let els := as.flatMap fun t => t.elems wx
    let res := (els.zip (List.range els.length)).map fun (x, j) => widenEl lf r sat (rnd j) (decodeEl xf x)
    (packTokens wl (res.map Prod.fst), none, AFlags.orAll (res.map Prod.snd))
  | 0x23 =>
    let blocks := chunksOf 32 (as.flatMap fun t => (fp32s t).map (decodeEl 8))
    let res := (blocks.zip (List.range blocks.length)).map fun (vs, i) => mxBlock xf r (fun k => rnd (i * 32 + k)) vs
    let els := res.flatMap fun p => p.2
    (packTokens wx (els.map Prod.fst), (packTokens 8 (res.map Prod.fst)).head?, AFlags.orAll (els.map Prod.snd))
  | 0x24 =>
    let els := as.flatMap fun t => t.elems wx
    let sc := vecOf 32 (bcastB w seg ((bs.headD Token.zero).elems 32))
    let res := (els.zip (List.range els.length)).map fun (x, j) =>
      encodeFloat 8 r sat (rnd j) ((decodeEl xf x).scaled (sc.elem 8 (j / 32)))
    (packTokens 32 (res.map Prod.fst), none, AFlags.orAll (res.map Prod.snd))
  | 0x50 =>
    let k := 2 ^ seg
    let segVals (j : Nat) : List Nat := (as.zip (List.range as.length)).flatMap fun (t, v) =>
      (List.range k).filterMap fun i => if e.active w v (j * k + i) then some (t.lane (j * k + i)).toNat else none
    let res := (List.range (64 / k)).map fun j => osmStat sat (segVals j)
    (([vecOf 32 (res.flatMap fun (m, l) => [m.1, l.1])]), none,
      AFlags.orAll (res.flatMap fun (m, l) => [m.2, l.2]))
  | 0x51 =>
    let k := 2 ^ seg
    let res := (List.range (64 / k)).map fun j =>
      osmComb sat (as.map fun t => ((t.lane (2 * j)).toNat, (t.lane (2 * j + 1)).toNat))
    (([vecOf 32 (res.flatMap fun (m, l) => [m.1, l.1])]), none,
      AFlags.orAll (res.flatMap fun (m, l) => [m.2, l.2]))
  | _ =>
    let cols := as.map fun t => t.elems wl
    match cols with
    | [] => ([Token.zero], none, AFlags.none)
    | [c0] =>
      let res := c0.map (loneEl lf r sat)
      ([vecOf wl (res.map Prod.fst)], none, AFlags.orAll (res.map Prod.snd))
    | c0 :: rest =>
      if op == 0x3C && fmtIsInt lf then
        let res := (List.range c0.length).map fun j => intSum lf sat (cols.map fun c => c.getD j 0)
        ([vecOf wl (res.map Prod.fst)], none, AFlags.orAll (res.map Prod.snd))
      else
      let res := rest.foldl (fun (acc : List Nat × AFlags × Nat) c =>
        let step := (acc.1.zip (c.zip (List.range c.length))).map fun (x, y, j) =>
          if op == 0x3C then addEl lf r sat (rnd (acc.2.2 * 256 + j)) x y else maxMinEl (op == 0x3D) lf r sat x y
        (step.map Prod.fst, acc.2.1 ||| AFlags.orAll (step.map Prod.snd), acc.2.2 + 1)) (c0, AFlags.none, 0)
      ([vecOf wl res.1], none, res.2.1)

/-- Opcodes that `stageBlock` computes. -/
def opIsBlock (op : Nat) : Bool := (0x21 ≤ op && op ≤ 0x24) || opToOne op

/-- One stage of a firing: its result vectors, flags, the environment with what it wrote, and its counter. -/
def runStage (e : FireEnv) (s t0 : Nat) (prev : List Token) : List Token × Option Token × AFlags × FireEnv × Nat :=
  let w := vxStage e.cfg s
  let op := swOp w
  let dst := swDst w
  let nv := prev.length
  let (outs, sc, fl, e) :=
    if opIsBlock op then
      let lf := swLfmt w
      let get (code v : Nat) (p : Token) := e.src lf code (swImm w) v (t0 + v) p
      let as := (prev.zip (List.range nv)).map fun (p, v) => get (swSrcA w) v p
      let bs := (prev.zip (List.range nv)).map fun (p, v) => get (swSrcB w) v p
      let (o, sc, fl) := stageBlock e w as bs
      (o, sc, fl, e)
    else
      let (o, fl, e) := (prev.zip (List.range nv)).foldl (fun (acc : List Token × AFlags × FireEnv) (p, v) =>
        let (o, fl, e) := acc
        let (tok, g, cmp, act) := stageVector e w v (t0 + v) p
        let e := if 8 ≤ dst then { e with regs := e.regs.setIfInBounds (dst - 8) tok } else e
        let e := if 0x18 ≤ op && op ≤ 0x1B then
            let old := (((e.preds)[swQdst w]?).getD 0#256).toNat
            let keep := if swMaskZero w then 0 else old &&& ((2 ^ 256 - 1) - act)
            { e with preds := e.preds.setIfInBounds (swQdst w) (BitVec.ofNat 256 (keep ||| (cmp &&& act))),
                     qw := (match e.qw.find? (fun q => q.1 == swQdst w + 2) with
                       | some (_, l) => (swQdst w + 2, l ++ [BitVec.ofNat 256 (keep ||| (cmp &&& act))]) ::
                           e.qw.filter (fun q => q.1 != swQdst w + 2)
                       | none => (swQdst w + 2, [BitVec.ofNat 256 (keep ||| (cmp &&& act))]) :: e.qw) }
          else e
        (o ++ [tok], fl ||| g, e)) ([], AFlags.none, e)
      (o, none, fl, e)
  let e := if 8 ≤ dst then { e with vw := (dst - 8, outs) :: e.vw,
                                    regs := e.regs.setIfInBounds (dst - 8) (outs.getLastD Token.zero) } else e
  let e := { e with qw := e.qw.map fun q => if q.1 ≥ 2 then (q.1 - 2, q.2) else q }
  (outs, sc, fl, e, t0 + nv)

/-! ### Steering (R146 to R148) -/

/-- Used data inputs in port order. -/
def dataInputs (c : Nat) : List Nat := (List.range 4).filter fun n => hdrInRate c n != 0 && !(hdrInCtrl c n)
/-- The SELECTOR control input (R146). -/
def selInput (c : Nat) : Option Nat :=
  (List.range 4).find? fun n => hdrInRate c n != 0 && hdrInCtrl c n && vxCkind c n == 1

/-- SEL of lane `n` of a selector token (R47). -/
def selOf (t : Token) (n : Nat) : Nat := (t.lane n).toNat % 16

/-- The vectors that enter S0 (R131, R146, R147). The loader refuses a stage S0 that reads PREV where
IN[0] is unused (R128, R154); in a state that no load leaves, its vector is free (log entry 55). -/
def steerIn (e : FireEnv) : List Token :=
  let c := e.cfg
  let ds := dataInputs c
  let ctl (v : Nat) : Token := match selInput c with | some n => e.input n v | none => Token.zero
  match vxSteer c with
  | 1 => (List.range (vxV0 c)).map fun v =>
      Token.ofFn 0#3 fun n => match ds[selOf (ctl v) n]? with | some p => (e.input p v).lane n | none => 0#32
  | 2 => (List.range (vxV0 c)).map fun j =>
      match ds[selOf (ctl 0) j]? with | some p => e.input p 0 | none => Token.zero
  | _ => (List.range (vxV0 c)).map fun v =>
      if hdrInRate c 0 == 0 then Token.ofFn 0#3 fun n => BitVec.ofNat 32 (e.rnd (0xE00000 + 64 * v + n))
      else e.input 0 v

/-- Output lanes of a ROUTE unit for the `i`-th used data output, with the kind of the tapped result (R148, R149). -/
def routeOut (e : FireEnv) (i : Nat) (vs : List Token) : List Token :=
  (vs.zip (List.range vs.length)).map fun (t, v) =>
    let ct := match selInput e.cfg with | some n => e.input n v | none => Token.zero
    Token.ofFn t.kind fun n => if selOf ct n == i then t.lane n else 0#32

/-- The firing `idx` of a vector unit on its input tokens: output tokens by port, and the unit's next state. -/
def vxuFire (cfg : Nat) (u : Vxu) (idx now : Nat) (ins : List (List Token)) (rnd : Nat → Nat) :
    List (List Token) × Vxu :=
  let rowStart := if vxRowFirings cfg == 0 then idx == 0 else idx % vxRowFirings cfg == 0
  let regs := if rowStart then
      Vector.ofFn (n := 8) fun i => if bitOf (vxResetMask cfg) i.val then Token.zero else u.regs[i]
    else u.regs
  let t := if rowStart then Vector.replicate 6 0 else u.tcount
  let e0 : FireEnv := { cfg := cfg, ins := ins, consts := u.consts, regs := regs, preds := u.preds, rnd := rnd }
  let start := steerIn e0
  let (_, results, sc, fl, e, t) := (List.range 6).foldl
    (fun (acc : List Token × List (List Token) × Option Token × AFlags × FireEnv × Vector Nat 6) s =>
      let (prev, results, sc, fl, e, t) := acc
      let (outs, sc', g, e, t') := runStage { e with rnd := fun k => rnd (s * 0x200000 + k) } s (t.getD s 0) prev
      (outs, results ++ [outs], (match sc' with | some x => some x | none => sc), fl ||| g, e, t.setIfInBounds s t'))
    (start, [], none, AFlags.none, e0, t)
  let used := (List.range 4).filter fun n => hdrOutRate cfg n != 0
  let dataOuts := used.filter fun n => vxOsrc cfg n ≤ 5
  let outs := (List.range 4).map fun n =>
    if hdrOutRate cfg n == 0 then []
    else
      let o := vxOsrc cfg n
      if o == 6 then ins.getD (vxFwdIn cfg) []
      else if o == 7 then [sc.getD Token.zero]
      else if vxSteer cfg == 3 then routeOut e ((dataOuts.findIdx? (· == n)).getD 0) (results.getD o [])
      else results.getD o []
  (outs, { u with regs := e.regs, preds := e.preds, flags := u.flags.set now fl, tcount := t })

end Sys2Proof.Machine
end

