-- ==== Sys2Proof/Machine/Ops.lean ====
section
/-!
DEFINITION. The named operations that every meaning uses: one element of a vector, byte strings and fields, memory in
canonical form (R4, R166), clocks (R522), sites and the die-wide grid (R19, R31 to R35), tokens of free values.
-/
namespace Sys2Proof.Machine

/-! ### Vectors and lists -/

/-- Change one element. -/
def vmod {α : Type} {n : Nat} (v : Vector α n) (i : Fin n) (f : α → α) : Vector α n := v.set i (f v[i])

/-- Change element `i` where there is one. -/
def vmodN {α : Type} {n : Nat} (v : Vector α n) (i : Nat) (f : α → α) : Vector α n :=
  if h : i < n then v.set i (f v[i]) else v

/-- Element `i`, or `d` where there is none. -/
def vgetN {α : Type} {n : Nat} (v : Vector α n) (i : Nat) (d : α) : α := (v[i]?).getD d

/-- Set element `i` where there is one. -/
def vsetN {α : Type} {n : Nat} (v : Vector α n) (i : Nat) (x : α) : Vector α n := vmodN v i fun _ => x

/-- A natural number as an index where it is one. -/
def finOf (n i : Nat) : Option (Fin n) := if h : i < n then some ⟨i, h⟩ else none

/-- All indices. -/
def fins (n : Nat) : List (Fin n) := List.finRange n

/-- Insert into a list kept in rising order, without repeats. -/
def insertNat (x : Nat) : List Nat → List Nat
  | [] => [x]
  | y :: ys => if x < y then x :: y :: ys else if x = y then y :: ys else y :: insertNat x ys

/-- Sum of a list. -/
def sumNat (l : List Nat) : Nat := l.foldl (· + ·) 0

/-- Replace the first element that meets a test. -/
def replaceFirst {α : Type} (p : α → Bool) (f : α → α) : List α → List α
  | [] => []
  | x :: xs => if p x then f x :: xs else x :: replaceFirst p f xs

/-- Remove the first element that meets a test. -/
def eraseFirst {α : Type} (p : α → Bool) : List α → List α
  | [] => []
  | x :: xs => if p x then xs else x :: eraseFirst p xs

/-- Element `i` of a list of pairs by key. -/
def lookupNat {α : Type} (k : Nat) (l : List (Nat × α)) : Option α := (l.find? fun p => p.1 == k).map (·.2)

/-- Set the pair of key `k` in a list kept in rising order of its keys. -/
def setKey {α : Type} (k : Nat) (v : α) : List (Nat × α) → List (Nat × α)
  | [] => [(k, v)]
  | p :: ps => if k < p.1 then (k, v) :: p :: ps else if k = p.1 then (k, v) :: ps else p :: setKey k v ps

/-! ### Byte strings (R4) -/

/-- The `n` bytes of a number, byte 0 first. -/
def leBytes (n v : Nat) : Bytes := (List.range n).map fun i => BitVec.ofNat 8 (v / 2 ^ (8 * i))

/-- The number that a byte string spells, byte 0 first. -/
def leNat (bs : Bytes) : Nat := bs.foldr (fun b acc => acc * 256 + b.toNat) 0

/-- Bytes `a` to `a + n − 1` as a number; bytes beyond the end read as zero. -/
def fieldAt (bs : Bytes) (a n : Nat) : Nat := leNat ((bs.drop a).take n)

/-- Bytes `a` to `a + n − 1`. -/
def sliceAt (bs : Bytes) (a n : Nat) : Bytes := (bs.drop a).take n

/-- A byte string cut or filled with zeros to `n` bytes. -/
def padTo (n : Nat) (bs : Bytes) : Bytes := bs.take n ++ List.replicate (n - bs.length) 0#8

/-- All bytes are zero. -/
def allZero (bs : Bytes) : Bool := bs.all (· == 0#8)

/-- ⌈a / b⌉. -/
def ceilDiv (a b : Nat) : Nat := (a + b - 1) / b

/-! ### Memory: a list of cells in canonical form; an unlisted address reads as zero -/

/-- The byte at an address: that of its cell, zero where it has none. -/
def Mem.read (m : Mem) (a : Nat) : Byte := ((m.find? fun c => c.1 == a).map (·.2)).getD 0#8

/-- Put a cell before the first one of a higher address. -/
def Mem.place : Mem → Host.Cell → Mem
  | [], x => [x]
  | c :: cs, x => if x.1 < c.1 then x :: c :: cs else c :: Mem.place cs x

/-- Write one byte, keeping the canonical form: a zero takes no cell. -/
def Mem.write (m : Mem) (a : Nat) (b : Byte) : Mem :=
  let others := m.filter fun c => c.1 != a
  if b = 0#8 then others else Mem.place others (a, b)

/-- The canonical form: addresses strictly rising, no cell zero. -/
def Mem.wf (m : Mem) : Bool := m.all (fun c => c.2 != 0#8) && decide (m.Pairwise fun c d => c.1 < d.1)

/-- `n` bytes from an address. -/
def Mem.readN (m : Mem) (a n : Nat) : Bytes := (List.range n).map fun i => Mem.read m (a + i)

/-- Write a byte string at an address. -/
def Mem.writeN (m : Mem) (a : Nat) : Bytes → Mem
  | [] => m
  | b :: bs => Mem.writeN (Mem.write m a b) (a + 1) bs

/-- Zero the addresses from `a` below `e`. -/
def Mem.clear (m : Mem) (a e : Nat) : Mem := m.filter fun c => c.1 < a || e ≤ c.1

/-- Write those bytes whose mask bit is set. -/
def Mem.writeMask (m : Mem) (a : Nat) : List (Byte × Bool) → Mem
  | [] => m
  | (b, e) :: bs => Mem.writeMask (if e then Mem.write m a b else m) (a + 1) bs

/-! ### Sites, units and the die-wide grid -/

/-- Column and row of a site (R19). -/
def siteX (s : Nat) : Nat := s % 6
def siteY (s : Nat) : Nat := s / 6

/-- The half a site lies in: false north, true south (R19). -/
def siteSouth (s : Nat) : Bool := 4 ≤ siteY s

/-- Patch position of a unit index (R28, R31). -/
def unitPos (u : UnitId) : PosId :=
  ⟨([12, 13, 17, 0, 1, 3, 4, 5, 9, 14, 15, 18, 19, 20, 21, 23, 24, 11, 7, 2, 6, 8, 10, 16, 22][u.val]?).getD 0 % 25,
    Nat.mod_lt _ (by decide)⟩

/-- Unit index at a patch position (R28, R31). -/
def posUnit (p : PosId) : UnitId :=
  ⟨([3, 4, 19, 5, 6, 7, 20, 18, 21, 8, 22, 17, 0, 1, 9, 10, 23, 2, 11, 12, 13, 14, 24, 15, 16][p.val]?).getD 0 % 25,
    Nat.mod_lt _ (by decide)⟩

/-- Unit index of MSU `m` (R31). -/
def msuUnit (m : MsuId) : UnitId := ⟨m.val + 17, by omega⟩

/-- Position of MSU `m`. -/
def msuPos (m : MsuId) : PosId := unitPos (msuUnit m)

/-- Position of the MXU (R28). -/
def mxuPos : PosId := 12

/-- Number of a side in the encoding of R55. -/
def sideNum : Side → Fin 4
  | .n => 0
  | .e => 1
  | .s => 2
  | .w => 3

/-- The side opposite. -/
def oppSide (k : Nat) : Nat := (k + 2) % 4

/-- The position one step out of side `k` (R35): site, position and whether the link crosses the seam. -/
def neighbour (s : SiteId) (p : PosId) (k : Nat) : Option (SiteId × PosId × Bool) :=
  let gx : Int := siteX s * 5 + p.val % 5
  let gy : Int := siteY s * 5 + p.val / 5
  let nx := gx + (if k = 1 then 1 else if k = 3 then -1 else 0)
  let ny := gy + (if k = 2 then 1 else if k = 0 then -1 else 0)
  if nx < 0 || 29 < nx || ny < 0 || 39 < ny then none
  else
    let x := nx.toNat
    let y := ny.toNat
    match finOf 48 (y / 5 * 6 + x / 5), finOf 25 (y % 5 * 5 + x % 5) with
    | some s', some p' => some (s', p', (gy == 19 && ny == 20) || (gy == 20 && ny == 19))
    | _, _ => none

/-! ### Clocks -/

/-- NCLK cycles since PLL lock: the device timestamp (R522). -/
def Dev.now (d : Dev) : Nat := d.clk.nclk

/-- ACLK cycles. -/
def Dev.anow (d : Dev) : Nat := d.clk.aclk

/-- The device timestamp as a register shows it. -/
def Dev.stamp (d : Dev) : BitVec 64 := BitVec.ofNat 64 d.clk.nclk

/-- The derived clocks run: after PLL lock, and not after a trip, a loss of lock or a device in reset (R522, R523,
R526, R531). -/
def Dev.running (d : Dev) : Bool :=
  match d.stage with
  | .rom | .recovery | .blocks | .ready => true
  | .inReset | .pll | .tripped | .lost => false

/-- Worvis runs: firmware has been chosen and started (R532, R533). -/
def Dev.worvis (d : Dev) : Bool :=
  match d.stage with
  | .blocks | .ready => true
  | _ => false

/-- MAILBOX_READY (R404, R502). -/
def Dev.mailboxReady (d : Dev) : Bool := d.stage == .ready && !d.ym.failed

/-- Root periods of one ACLK cycle at a step (R522). -/
def aclkDiv (step : Nat) : Nat :=
  match step with
  | 0 => 4
  | 1 => 5
  | 2 => 6
  | _ => 8

/-- NCLK cycles of a time in microseconds and milliseconds (R522: 1.65 GHz). -/
def usN (n : Nat) : Nat := 1650 * n
def msN (n : Nat) : Nat := 1650000 * n

/-! ### Free values -/

/-- The next free value, and the device with its number used up. -/
def Dev.draw (d : Dev) : Nat × Dev := (Config.freeBits d.freeCtr, { d with freeCtr := d.freeCtr + 1 })

/-! ### One tile, one position, one unit of the device -/

def Dev.tile (d : Dev) (s : SiteId) : Tile := d.tiles[s]

def Dev.modTile (d : Dev) (s : SiteId) (f : Tile → Tile) : Dev := { d with tiles := vmod d.tiles s f }

def Dev.modPos (d : Dev) (s : SiteId) (p : PosId) (f : Pos → Pos) : Dev :=
  d.modTile s fun t => { t with grid := vmod t.grid p f }

def Dev.pos (d : Dev) (s : SiteId) (p : PosId) : Pos := (d.tile s).grid[p]

def Dev.modCtx (d : Dev) (s : SiteId) (c : CtxId) (f : Ctx → Ctx) : Dev :=
  d.modTile s fun t => { t with ctxs := vmod t.ctxs c f }

def Dev.modMxu (d : Dev) (s : SiteId) (f : Mxu → Mxu) : Dev := d.modTile s fun t => { t with mxu := f t.mxu }

def Dev.modMsu (d : Dev) (s : SiteId) (m : MsuId) (f : Msu → Msu) : Dev :=
  d.modTile s fun t => { t with msus := vmod t.msus m f }

def Dev.msu (d : Dev) (s : SiteId) (m : MsuId) : Msu := (d.tile s).msus[m]

def Dev.modCtl (d : Dev) (s : SiteId) (f : TileCtl → TileCtl) : Dev := d.modTile s fun t => { t with ctl := f t.ctl }

def Dev.modSpad (d : Dev) (s : SiteId) (f : Spad → Spad) : Dev := d.modTile s fun t => { t with spad := f t.spad }

def Dev.modLoft (d : Dev) (l : SiteId) (f : Loft → Loft) : Dev := { d with lofts := vmod d.lofts l f }

def Dev.loft (d : Dev) (l : SiteId) : Loft := d.lofts[l]

def Dev.modLink (d : Dev) (n : LinkId) (f : Link → Link) : Dev := { d with links := vmod d.links n f }

def Dev.link (d : Dev) (n : LinkId) : Link := d.links[n]

def Dev.modYm (d : Dev) (f : Yard → Yard) : Dev := { d with ym := f d.ym }

def Dev.modPad (d : Dev) (k : PadId) (f : Paddock → Paddock) : Dev :=
  { d with pads := vmod d.pads k fun o => o.map f }

def Dev.pad (d : Dev) (k : PadId) : Option Paddock := d.pads[k]

def Dev.modOp (d : Dev) (i : Fin 64) (f : Op → Op) : Dev := { d with ops := vmod d.ops i f }

def Dev.op (d : Dev) (i : Fin 64) : Op := d.ops[i]

/-- Tile sites of a paddock, in tile order; vacant numbers are left out (R435, R492). -/
def Paddock.sites (p : Paddock) : List SiteId := p.tiles.filterMap id

/-- Sites whose positions the paddock holds (R54), in ascending order. -/
def Paddock.allSites (p : Paddock) : List SiteId := (fins 48).filter fun s => p.sites.contains s || p.pass.contains s

/-- Paddock that holds the site's tile. -/
def Dev.padOf (d : Dev) (s : SiteId) : Option PadId := (d.tile s).ctl.bound.map (·.1)

/-- Tile number of a site. -/
def Dev.tileNum (d : Dev) (s : SiteId) : Nat := ((d.tile s).ctl.bound.map (·.2)).getD 0

/-- Site that holds tile `n` of paddock `k`. -/
def Dev.tileSite (d : Dev) (k : PadId) (n : Nat) : Option SiteId := ((d.pad k).bind fun p => p.tiles[n]?).join

/-- Paddock that holds the site, as a tile or for pass-through (R54). -/
def Dev.holder (d : Dev) (s : SiteId) : Option PadId :=
  match d.padOf s with
  | some k => some k
  | none => (fins 16).find? fun k => ((d.pad k).map fun p => p.pass.contains s).getD false

/-- Apply a change to every tile of a list of sites. -/
def Dev.forSites (d : Dev) (ss : List SiteId) (f : Tile → Tile) : Dev := ss.foldl (fun d s => d.modTile s f) d

/-- The active bank of a tile (R302, R314). -/
def TileCtl.activeIdx (c : TileCtl) : Nat := c.cfgBank.toNat % 2

def Tile.active (t : Tile) : Bank := vgetN t.banks t.ctl.activeIdx {}

/-- A field of a configuration entry. -/
def bvFld {w : Nat} (x : BitVec w) (lo len : Nat) : Nat := fld x.toNat lo len

/-- What a read returned. -/
def Dev.show (d : Dev) (v : Nat) : Dev := { d with readout := v }

/-- The meaning of a command whose effect lies on the device alone. -/
def onDev (s : State) (f : Fuse → Dev → Dev) : Host.Outcome State Fault Refusal :=
  .next { s with dev := f s.fuse s.dev }

/-- The meaning of an event: its effect where its condition holds, nothing otherwise. -/
def onEvent (s : State) (en : Dev → Bool) (f : Fuse → Dev → Dev) : Host.Outcome State Fault Refusal :=
  onDev s fun fz d => if en d then f fz d else d

end Sys2Proof.Machine
end

