-- ==== Sys2Proof/Machine/MeshOps.lean ====
section
/-!
DEFINITION. How packets enter the mesh (R315 to R319, R326): the periphery routers, class buffers, the links into a router, and the
packets that carry what a row of fabric, host or yardmaster traffic performs (R327 to R329).
-/
namespace Sys2Proof.Machine

/-! ### Periphery routers (R316, R319) -/

/-- Attachment sites and side of a periphery router (R316). -/
def prSites (k : Nat) : List SiteId × Nat :=
  match k with
  | 0 => ([6, 12], 3)
  | 1 => ([30, 36], 3)
  | 2 => ([11, 17], 1)
  | 3 => ([35, 41], 1)
  | 4 => ([1, 2], 0)
  | 5 => ([44, 45], 2)
  | 6 => ([3], 0)
  | _ => ([21], 4)

/-- The attachment that a packet from or to router `k` uses, by the other end's row or column; ties to the lower site
(R319). -/
def attachment (k : Nat) (other : Nat) : SiteId :=
  let (l, side) := prSites k
  let dist (a : SiteId) : Nat :=
    if side == 1 || side == 3 then ((siteY a : Int) - siteY other).natAbs else ((siteX a : Int) - siteX other).natAbs
  (l.foldl (fun (best : Option SiteId) a => match best with
    | none => some a
    | some b => if dist a < dist b then some a else best) none).getD 21

/-! ### On-die packets (R315 to R322) -/

/-- Two packets stand in one buffer: that of their class at one input port of one router (R318). -/
def MeshPkt.sameBuf (p q : MeshPkt) : Bool := p.at_ == q.at_ && p.inPort == q.inPort && p.vc == q.vc && p.prio == q.prio

/-- A packet joins the buffer of its class at its input port in cycle `t`, behind what stands there (R318, R325, R326). -/
def Dev.join (d : Dev) (p : MeshPkt) (t : Nat) : Dev :=
  let ahead := d.mesh.filterMap fun q => if q.sameBuf p then q.left.map fun l => l + q.flits else none
  { d with mesh := d.mesh ++ [{ p with since := ahead.foldl max t }] }

/-- Input link of a router through which packets enter it from outside the mesh: the cycle from which it is free (R315 to R317). -/
def Dev.inLink (d : Dev) (s : SiteId) (port : Nat) : Nat := vgetN d.meshIn[s] port 0

/-- A packet enters the mesh: its flits cross the link into its first router behind those that were sent before, one in a cycle, and
its source keeps what the buffer of its class has no room for (R317, R318, R326). -/
def Dev.launch (d : Dev) (p : MeshPkt) : Dev :=
  let t := max d.now (d.inLink p.at_ p.inPort)
  { d with meshIn := vmod d.meshIn p.at_ fun v => vsetN v p.inPort (t + p.flits) }.join p t

/-- Flits that stand in the buffer of a class at an input port of a router, the rest of a leaving packet included (R318). -/
def Dev.bufFlits (d : Dev) (s : SiteId) (port : Nat) (vc : Fin 4) (prio : Bool) : Nat :=
  sumNat ((d.mesh.filter fun p => p.at_ == s && p.inPort == port && p.vc == vc && p.prio == prio).map fun p =>
    match p.left with
    | some t => p.flits - (d.now - t)
    | none => p.flits)

/-! ### Fabric, host and yardmaster traffic (R327 to R329)

The row that performs such a request, response or write does so whole. The packets that carry it are injected then: they take links,
buffers and turns, are counted, and can be lost, and have no further effect of their own. DESIGN CHOICE, log entry 71. -/

/-- Flits of a packet that carries `n` bytes (R317). -/
def loftFlits (n : Nat) : Nat := 1 + ceilDiv (n - 96) 128

/-- An end of a packet's way: TILE or LOFT of a site, or a periphery router (R315, R316). -/
inductive MeshEnd where
  | tile (s : SiteId)
  | loft (s : SiteId)
  | pr (k : Fin 8)
  deriving DecidableEq, Repr

/-- The site by which the other end chooses an attachment; of a periphery router the first of its own (R319). -/
def MeshEnd.near : MeshEnd → SiteId
  | .tile s | .loft s => s
  | .pr k => ((prSites k.val).1.head?).getD 21

/-- Source index (R322). -/
def MeshEnd.index : MeshEnd → Nat
  | .tile s | .loft s => s.val
  | .pr k => 48 + k.val

/-- Router and input port at which a packet from `a` to `b` enters the mesh (R315, R319). -/
def MeshEnd.entry (a b : MeshEnd) : SiteId × Nat :=
  match a with
  | .tile s => (s, 4)
  | .loft s => (s, 5)
  | .pr k => (attachment k.val b.near.val, if (prSites k.val).2 == 4 then 6 else (prSites k.val).2)

/-- One packet of `n` bytes. The fabric transit VC takes high priority for at most 5 flits (R318). -/
def carrier (a b : MeshEnd) (vc : Fin 4) (prio : Bool) (pad : Option PadId) (n : Nat) : MeshPkt :=
  { at_ := (a.entry b).1, inPort := (a.entry b).2
    dests := match b with | .tile s | .loft s => [s] | .pr _ => []
    pr := match b with | .pr k => some k | _ => none
    loftEp := match b with | .loft _ => true | _ => false
    vc := vc, prio := prio && (vc != 3 || loftFlits n ≤ 5), src := a.index, flits := loftFlits n, paddock := pad, body := .carried }

/-- The packets of `n` bytes: one on the fabric transit VC, else of at most 512 bytes each (R318, R328). -/
def Dev.carry (d : Dev) (a b : MeshEnd) (vc : Fin 4) (prio : Bool) (pad : Option PadId) (n : Nat) : Dev :=
  if vc == 3 then d.launch (carrier a b vc prio pad n)
  else (List.range (max 1 (ceilDiv n 512))).foldl (fun d i => d.launch (carrier a b vc prio pad (min 512 (n - 512 * i)))) d

/-- The periphery router of a fabric link's port, of a UCIe module, of the yardmaster and of the carillon (R316). -/
def prOfLink (n : LinkId) : MeshEnd := .pr ((finOf 8 (n.val / 4)).getD 0)
def prOfModule (m : Fin 2) : MeshEnd := .pr ((finOf 8 (4 + m.val)).getD 4)
def prYard : MeshEnd := .pr 6
def prCarillon : MeshEnd := .pr 7

/-- A write of the yardmaster to the control blocks of tiles: to more than one a multicast, at low priority (R327). -/
def Dev.tellTiles (d : Dev) (sites : List SiteId) (pad : PadId) (n : Nat) : Dev :=
  match sites with
  | [] => d
  | s :: _ => d.launch { carrier prYard (.tile s) 0 false (some pad) n with dests := sites, multi := 2 ≤ sites.length }

/-- A host access to the register window and its answer (R329). -/
def Dev.windowTrip (d : Dev) (m : Fin 2) (sent back : Nat) : Dev :=
  (d.carry (prOfModule m) prYard 0 false none sent).carry prYard (prOfModule m) 1 false none back

end Sys2Proof.Machine
end

