-- ==== Sys2Proof/Machine/Reports.lean ====
section
/-!
DEFINITION. How the device reports: event records into rings (R411 to R414, R551), operation states (R411, R417),
owner alerts (R546), degradation, replacement (R502 to R504) and the payload of hardware errors (R485).
-/
namespace Sys2Proof.Machine

/-! ### Event rings -/

/-- HOST_EV_CFG ENABLED (R414). -/
def Ring.enabled (r : Ring) : Bool := r.cfg.getLsbD 0

/-- RECORDS of a ring (R413). -/
def Ring.records (r : Ring) : Nat := 2 ^ bvFld r.cfg 1 5

/-- The next SEQ of a source (R412). -/
def Ring.seqOf (r : Ring) (kind index : Nat) : Word :=
  ((r.seqs.find? fun q => q.1 == kind && q.2.1 == index).map (·.2.2)).getD 0#32

/-- SEQ of the source advances by one (R412). -/
def Ring.bumpSeq (r : Ring) (kind index : Nat) : Ring :=
  { r with seqs := (kind, index, r.seqOf kind index + 1) :: (r.seqs.filter fun q => !(q.1 == kind && q.2.1 == index)) }

/-- A record that is lost is counted (R414). -/
def Ring.lose (r : Ring) (n now : Nat) : Ring := { r with lost := r.lost.add now n, lostPending := r.lostPending + n }

/-- Add a record: it waits inside the device, or is lost where the ring is not enabled or 64 records wait (R414). -/
def Ring.add (r : Ring) (kind index typ : Nat) (time : BitVec 64) (payload : Bytes) : Ring :=
  let e : EventRec := { kind := kind, index := index, seq := r.seqOf kind index, time := time,
                        typ := BitVec.ofNat 16 typ, payload := padTo 16 payload }
  let r := r.bumpSeq kind index
  if r.enabled && r.waiting.length < 64 then { r with waiting := r.waiting ++ [e] } else r.lose 1 time.toNat

/-- Post an event from a source to a ring (R411, R412). -/
def Dev.post (d : Dev) (ring : Nat) (kind index typ : Nat) (payload : Bytes) : Dev :=
  { d with rings := vmodN d.rings ring fun r => r.add kind index typ d.stamp payload }

/-- A device-wide event goes to ring 0 (R411). -/
def Dev.postDevice (d : Dev) (typ : Nat) (payload : Bytes) : Dev := d.post 0 0 0 typ payload

/-- The 32 bytes of an event record (R411). -/
def EventRec.bytes (e : EventRec) : Bytes :=
  leBytes 2 (e.kind * 4096 + e.index) ++ leBytes 4 e.seq.toNat ++ leBytes 8 e.time.toNat ++ leBytes 2 e.typ.toNat
    ++ padTo 16 e.payload

/-- Payload of a class 0xE event (R485). -/
def payloadE (addr site unit area pad detail count : Nat) : Bytes :=
  leBytes 8 addr ++ leBytes 1 site ++ leBytes 1 unit ++ leBytes 1 area ++ leBytes 1 pad ++ leBytes 2 detail
    ++ leBytes 2 count

/-! ### Long operations -/

/-- The encoding of operation states (R411). -/
def OpState.code : OpState → Nat
  | .queued => 0
  | .running => 1
  | .suspending => 2
  | .suspended => 3
  | .cancelling => 4
  | .done => 5
  | .failed => 6
  | .cancelled => 7

/-- DONE, FAILED and CANCELLED are final (R416). -/
def OpState.final : OpState → Bool
  | .done | .failed | .cancelled => true
  | _ => false

/-- An operation of the table that is held and not final. -/
def Op.live (o : Op) : Bool := o.held && !o.state.final

/-- The handle of an operation (R416). -/
def opHandle (i : Nat) (o : Op) : Nat := i + 64 * o.mailbox + 65536 * o.gen.toNat

/-- Move an operation to a state and post OP_STATE (R411, R417). -/
def Dev.setOp (d : Dev) (i : Fin 64) (st : OpState) (code : Nat) : Dev :=
  let o := d.op i
  let c := if st == .failed then code else 0
  let d := d.modOp i fun o => { o with state := st, code := BitVec.ofNat 16 c }
  let d := match st.final, o.paddock with
    | true, some k => d.modPad k fun p => { p with quietSince := d.now }
    | _, _ => d
  d.post o.mailbox 5 o.mailbox 1
    (leBytes 4 (opHandle i.val o) ++ leBytes 2 st.code ++ leBytes 2 o.state.code ++ leBytes 2 c)

/-- End an operation where it is not final. -/
def Dev.endOp (d : Dev) (i : Option (Fin 64)) (st : OpState) (code : Nat) : Dev :=
  match i with
  | some i => if (d.op i).live then d.setOp i st code else d
  | none => d

/-! ### Owner alerts and pins (R546) -/

/-- Bits of the alerts held: 0 BOOT, 1 SAFE_SETTINGS, 2 link, 3 fabric as CLEAR_OWNER_ALERT numbers them (R434);
the others are the model's own numbers. -/
def alertBoot : Nat := 0
def alertSafe : Nat := 1
def alertLink : Nat := 2
def alertFabric : Nat := 3
def alertDiverge : Nat := 4
def alertEntropy : Nat := 5
def alertTrust : Nat := 6
def alertDramHot : Nat := 7
def alertJctHot : Nat := 8
def alertReplace : Nat := 9
def alertFailed : Nat := 10

/-- Raise an owner alert. -/
def Dev.alert (d : Dev) (b : Nat) : Dev := { d with alerts := d.alerts ||| BitVec.ofNat 32 (2 ^ b) }

/-- Clear an owner alert. -/
def Dev.unalert (d : Dev) (b : Nat) : Dev := { d with alerts := d.alerts &&& ~~~ BitVec.ofNat 32 (2 ^ b) }

/-- ALERT_N is low while any alert is held (R546). -/
def Dev.alertN (d : Dev) : Bool := d.alerts == 0#32

/-! ### Degradation and replacement (R503, R504) -/

/-- Owner setting PORT_SPLIT of a port. -/
def Dev.settingSplit (d : Dev) (p : Nat) : Bool := ((lookupNat (0x20 + p) d.settings).map fun v => v.getLsbD 0).getD false

/-- The port runs split: SPLIT of its link 2p (R332, R354). -/
def Dev.splitOf (d : Dev) (p : Nat) : Bool := ((finOf 16 (2 * p)).map fun n => (d.links[n]).cfg.getLsbD 4).getD false

/-- Lanes that link `n` is configured with (R332): 8 unsplit, 4 split, none for the second link of an unsplit port. -/
def Dev.linkLanes (d : Dev) (n : LinkId) : Nat :=
  if d.splitOf (n.val / 2) then 4 else if n.val % 2 = 0 then 8 else 0

/-- Sites of a kind. -/
def Dev.kindCount (d : Dev) (k : SiteKind) : Nat := ((fins 48).filter fun s => d.kinds[s] == k).length

/-- Seam links of a column in service (R323). -/
def Dev.seamLinks (d : Dev) (c : Fin 6) : Nat := ((List.range 4).filter fun i => d.seam[c].getLsbD i).length

/-- Yardmaster cores that are not retired. -/
def Dev.coresLeft (d : Dev) : Nat := ((fins 4).filter fun c => d.ym.cores[c] != .retired).length

/-- A mesh link that dropped 8 packets within 1 s (R498). -/
def Dev.meshExceeded (d : Dev) : Bool :=
  d.ym.meshDrops.any fun x =>
    8 ≤ (d.ym.meshDrops.filter fun y => y.1 == x.1 && y.2 ≤ x.2 && x.2 < y.2 + msN 1000).length

/-- The bits of a list of reasons. -/
def reasonBits (l : List (Nat × Bool)) : Word :=
  l.foldl (fun acc p => if p.2 then acc ||| BitVec.ofNat 32 (2 ^ p.1) else acc) 0#32

/-- Reasons for degraded operation that hold (R503). -/
def Dev.degradeNow (d : Dev) : Word := reasonBits
  [ (0, d.kinds.toList.any fun k => k == .usedRemount || k == .retired),
    (1, d.lofts.toList.any fun l => !l.sparedChans.isEmpty || !l.lostChans.isEmpty),
    (2, d.links.toList.any fun l => l.lanes.toList.any (·.retired)),
    (3, d.seam.toList.any fun b => b != 0xF#4),
    (4, d.host.mods.toList.any fun m => m.stayDown || m.width == 1 || (m.width == 0 && d.stage == .ready)),
    (5, d.worvis && (d.ym.cores.toList.any (· == .retired) || !(d.ym.cores.toList.any (· == .standby)))),
    (6, d.meshExceeded) ]

/-- Reasons for replacement that hold (R504). -/
def Dev.replaceNow (d : Dev) : Word := reasonBits
  [ (0, d.worvis && d.kindCount .darkRemount == 0),
    (1, 2 ≤ sumNat (d.lofts.toList.map fun l => l.lostChans.length) ||
        d.lofts.toList.any fun l => l.lostChans.any fun c => l.sparedChans.any fun e => e / 8 == c / 8),
    (2, (fins 16).any fun n => (d.link n).state == .up && 2 * (d.link n).width < d.linkLanes n),
    (3, (fins 6).any fun c => d.seamLinks c ≤ 2),
    (4, d.coresLeft < 2),
    (5, d.meshExceeded),
    (6, 64 ≤ d.repairs.length),
    (7, d.ym.failed) ]

/-- Bring the degradation and replacement registers up to date, post what is new, raise the pins (R501, R503, R504). -/
def Dev.health (d : Dev) : Dev :=
  let deg := d.degradeNow
  let newDeg := deg &&& ~~~ d.ym.degrade
  let d := d.modYm fun y => { y with degrade := deg }
  let d := if newDeg == 0#32 then d else d.postDevice 0xE00C (payloadE 0 0xFF 0xFF 0xFF 0xFF 0 0)
  let newRep := d.replaceNow &&& ~~~ d.ym.replace
  if newRep == 0#32 then d
  else
    let d := d.modYm fun y => { y with replace := y.replace ||| newRep }
    let d := { d with replaceN := true }.alert alertReplace
    d.postDevice 0xE00D (payloadE 0 0xFF 0xFF 0xFF 0xFF d.ym.replace.toNat 0)

/-- Record a repair in a fuse row while rows are left (R493). -/
def Dev.recordRepair (d : Dev) (r : Repair) : Dev :=
  if d.repairs.length < 64 then { d with repairs := d.repairs ++ [r] } else d

end Sys2Proof.Machine
end

