-- ==== Sys2Proof/Machine/Loads.lean ====
section
/-!
DEFINITION. Loads in progress and how one ends (R301 to R306, R441): the owner settings and the hitch map that it uses (R356,
R357), the bank state of a tile, the messages of a lead and its members.
-/
namespace Sys2Proof.Machine

/-! ### Owner settings (R356) -/

/-- A setting in force; none where it has its default (R461, R534). -/
def Dev.setting (d : Dev) (id : Nat) : Option Nat := (lookupNat id d.settings).map (·.toNat)

/-- The fabric role: 0 STANDALONE, 1 FABRIC, 2 HITCH_LEAD, 3 HITCH_MEMBER; STRAP takes the pins (R356). -/
def Dev.role (d : Dev) : Nat :=
  match d.setting 1 with
  | some 4 => d.strap.toNat
  | some r => r
  | none => 0

def Dev.hitchSize (d : Dev) : Nat := (d.setting 2).getD 2
def Dev.hitchPos (d : Dev) : Nat := if d.role == 3 then (d.setting 3).getD 1 else 0
def Dev.inHitch (d : Dev) : Bool := d.role == 2 || d.role == 3

/-! ### Sending to a hitch position (R357, R375) -/

/-- Ports of the map that lead to the hitch peer at position `q`. -/
def hitchPorts (size pos q : Nat) : List Nat :=
  if q == pos then []
  else if size == 2 then [0, 1, 2, 3]
  else
    let k := (pos ^^^ q) - 1
    if k < 3 then [2 * k, 2 * k + 1] else []

/-- FAB_DEV_CFG INJ_EPOCH (R376, R392). -/
def Dev.injEpoch (d : Dev) : BitVec 1 := BitVec.ofNat 1 (bvFld d.fab.devCfg 19 1)

/-- Payload bytes of a packet; those of the messages kept by name, but for the data of a load, fit the head flit. -/
def OutPkt.bytes : OutPkt → Nat
  | .packet p => 64 * p.len.toNat
  | .hitch _ _ _ data => data.length
  | _ => 0

/-- A message of the yardmaster is sent on a link: it crosses the mesh to the link's port, and leaves with the INJ_EPOCH of now
(R328, R376). -/
def Dev.sendOn (d : Dev) (n : LinkId) (p : OutPkt) : Dev :=
  let d := d.carry prYard (prOfLink n) 0 false none p.bytes
  { d with fab := { d.fab with out := d.fab.out ++ [{ link := n, ready := d.now, epoch := d.injEpoch, pkt := p }] } }

/-! ### Loads -/

/-- The load of an operation. -/
def Dev.loadOf (d : Dev) (slot : Fin 64) : Option ImageLoad := d.loads.find? fun (l : ImageLoad) => l.op == slot

def Dev.modLoad (d : Dev) (slot : Fin 64) (f : ImageLoad → ImageLoad) : Dev :=
  { d with loads := d.loads.map fun l => if l.op == slot then f l else l }

/-! ### Tile banks (R302, R307) -/

/-- TILE_CFG_BANK with its shadow state, or its IMAGE bit, replaced. -/
def TileCtl.setShadow (c : TileCtl) (v : Nat) : TileCtl :=
  { c with cfgBank := BitVec.ofNat 8 (c.cfgBank.toNat % 2 + 2 * v + 8 * (c.cfgBank.toNat / 8 % 2)) }

def TileCtl.shadow (c : TileCtl) : Nat := bvFld c.cfgBank 1 2
def TileCtl.image (c : TileCtl) : Bool := c.cfgBank.getLsbD 3

def Tile.shadowEmpty (t : Tile) : Tile :=
  { t with ctl := t.ctl.setShadow 0, banks := vsetN t.banks (1 - t.ctl.activeIdx) {} }

/-- The active bank of a paddock holds a usable image (R441). -/
def Dev.imageUsable (d : Dev) (k : PadId) : Bool :=
  match d.pad k with
  | some p => p.image.isSome && !p.sites.isEmpty && p.sites.all fun s => (d.tile s).ctl.image
  | none => false

/-! ### The end of a load -/

/-- Where a load leaves its paddock: READY with a usable image, EMPTY without (R441). -/
def Dev.leaveLoading (d : Dev) (k : PadId) : Dev :=
  let st := if d.imageUsable k then PadState.ready else PadState.empty
  d.modPad k fun p => { p with state := if p.state == .loading then st else p.state, load := none }

/-- Shadow banks of a load are discarded. -/
def Dev.dropShadow (d : Dev) (k : PadId) : Dev :=
  match d.pad k with
  | some p => d.forSites p.sites fun t => if t.ctl.shadow == 3 then t else t.shadowEmpty
  | none => d

/-- The STREAM handle closes at the later of the end of its delivery and the end of its load (R301, R432). -/
def Dev.closeStream (d : Dev) (i : Nat) : Dev :=
  let d := d.modPad (vgetN d.copies i {}).paddock fun p => { p with quietSince := d.now }
  { d with copies := vmodN d.copies i fun c =>
      if c.ended || c.bytes ≤ c.moved then { c with open_ := false, op := none } else { c with op := none } }

/-- Lowest mapped link to a hitch position (R375). -/
def Dev.hitchLink (d : Dev) (q : Nat) : Option LinkId :=
  ((hitchPorts d.hitchSize d.hitchPos q).head?).bind fun p => finOf 16 (2 * p)

/-- Send a hitch load message to a position (R304); a link that does not match the map carries none (R358). -/
def Dev.sendHitch (d : Dev) (q : Nat) (m : HitchMsg) (job : Bytes) (code : Nat) (data : Bytes) : Dev :=
  match d.hitchLink q with
  | some n => if d.fab.hitchOk.contains n then d.sendOn n (.hitch m job (BitVec.ofNat 16 code) data) else d
  | none => d

/-- Positions of the members. -/
def Dev.members (d : Dev) : List Nat := (List.range d.hitchSize).drop 1

def Dev.tellMembers (d : Dev) (m : HitchMsg) (job : Bytes) : Dev :=
  d.members.foldl (fun d q => d.sendHitch q m job 0 []) d

/-- A load ends without a commit: the operation, the paddock, the shadow banks, the handle; a lead sends ABORT to its
members, and where the load has failed it refuses runs until a later hitch load succeeds (R301, R302, R305, R306). -/
def Dev.endLoad (d : Dev) (slot : Fin 64) (st : OpState) (code : Nat) : Dev :=
  match d.loadOf slot with
  | none => d.setOp slot st code
  | some l =>
    let d := if l.hitch then
        { (match d.hitch with | some h => d.tellMembers .abort h.jobId | none => d) with
          hitch := none, hitchFailed := d.hitchFailed || st == .failed }
      else d
    let d := (d.dropShadow l.pad).leaveLoading l.pad
    let d := { d with loads := d.loads.filter fun q => q.op != slot }
    (d.closeStream l.copy).setOp slot st code

/-- The load or hitch load that stages into a paddock fails. -/
def Dev.failLoad (d : Dev) (k : PadId) (code : Nat) : Dev :=
  match (d.pad k).bind (·.load), d.hitch with
  | some slot, _ => d.endLoad slot .failed code
  | none, some h =>
    if h.pad == some k && !h.committed then
      let d := (d.dropShadow k).sendHitch 0 .verified h.jobId code []
      { d with hitch := some { h with ended := true, verified := false } }
    else d
  | none, none => d

end Sys2Proof.Machine
end

