-- ==== Sys2Proof/Machine/Faults.lean ====
section
/-!
DEFINITION. What a fault does, once, for every unit that raises one: the grid snapshot (R76), the stop of a paddock
(R41, R74, R75), the fault record (R429) and fault events (R485, R551); retiring a tile (R488 to R493) and the failed
device (R502).
-/
namespace Sys2Proof.Machine

/-! ### One unit position -/

/-- MODE of an MSU configuration (R174). -/
def msuMode (cfg : Nat) : Nat := fld cfg 128 3

/-- Firing latency L of the unit at a position, for R59: VXU R134, MXU drain R114, MSU R176 and R189. -/
def posLatency (u : UnitId) (cfg : Nat) : Nat :=
  if u.val = 0 then 4
  else if u.val ≤ 16 then vxLatency cfg
  else if msuMode cfg == 2 then 2 else 1

/-- Rate of an input or output port, 0 when unused (R55). -/
def Pos.inRate (p : Pos) (n : Nat) : Nat := hdrInRate p.cfg.toNat n
def Pos.outRate (p : Pos) (n : Nat) : Nat := hdrOutRate p.cfg.toNat n

/-- FIRE_COUNT of the unit (R55). -/
def Pos.fireCount (p : Pos) : Nat := hdrFireCount p.cfg.toNat

/-- Tokens that an output held at the start of cycle `now`: those emitted in it are counted still (R59). -/
def Pos.outHeld (p : Pos) (n now : Nat) : Nat :=
  let f := vgetN p.outFreed n (0, 0)
  (vgetN p.outQ n []).length + (if f.1 == now then f.2 else 0)

/-- The output has room for its rate (R59). -/
def Pos.outRoom (p : Pos) (u : UnitId) (n now : Nat) : Bool :=
  p.outHeld n now + p.outRate n ≤ 8 + posLatency u p.cfg.toNat

/-- Tokens in the link queue of side `n`: those still on the link are not there yet (R50, R51). -/
def Pos.linkHeld (p : Pos) (n now : Nat) : Nat := ((vgetN p.linkQ n []).filter fun t => t.avail ≤ now).length

/-- Tokens in the output buffer: those that are due (R59). -/
def Pos.outBuffered (p : Pos) (n now : Nat) : Nat := min 8 ((vgetN p.outQ n []).filter fun t => t.1 ≤ now).length

/-- The position is fenced: a full commit is due (R226), its CFG_GEN is not its tile's (R62, R227), or the scrubber fenced it (R311). -/
def Tile.fenced (t : Tile) (p : PosId) : Bool :=
  t.commitDue || hdrCfgGen (t.grid[p]).cfg.toNat != t.ctl.cfgGen.toNat || t.scrub.badPos.contains p.val

/-- The power state of a site (R527). -/
def Dev.power (d : Dev) (s : SiteId) : Nat := (d.tile s).power.toNat % 4

/-- The site holds a tile: in service or a remount in use (R22). -/
def Dev.hasTile (d : Dev) (s : SiteId) : Bool := d.kinds[s] == .inService || d.kinds[s] == .usedRemount

/-! ### Grid snapshot (R76) -/

/-- Pack numbers into fields of `w` bits. -/
def packFields (w : Nat) (l : List Nat) : Nat := l.foldr (fun x acc => acc * 2 ^ w + x % 2 ^ w) 0

/-- The 16-byte entry of one position. -/
def snapEntry (d : Dev) (s : SiteId) (p : PosId) (pass : Bool) : Bytes :=
  let t := d.tile s
  let q := t.grid[p]
  let u := posUnit p
  let conf := !pass && q.fireCount != 0
  let n4 := List.range 4
  let z (x : Nat) : Nat := if pass then 0 else x
  let b2n (b : Bool) : Nat := if b then 1 else 0
  leBytes 16 (packFields 1 []
    + (s.val * 32 + u.val)
    + z (b2n (t.fenced p)) * 2 ^ 11
    + (if conf && q.fired == q.fireCount then 2 ^ 12 else 0)
    + (if conf then 2 ^ 13 else 0)
    + z (packFields 4 (n4.map fun n => (vgetN q.inQ n []).length)) * 2 ^ 16
    + z (packFields 4 (n4.map fun n => q.outBuffered n d.anow)) * 2 ^ 32
    + packFields 3 (n4.map fun n => q.linkHeld n d.anow) * 2 ^ 48
    + packFields 1 (n4.map fun n => b2n (vgetN q.passReg n none).isSome) * 2 ^ 60
    + z (packFields 1 (n4.map fun n => b2n ((vgetN q.inQ n []).length < q.inRate n))) * 2 ^ 64
    + z (packFields 1 (n4.map fun n => b2n (q.outRate n != 0 && !q.outRoom u n d.anow))) * 2 ^ 68
    + z (q.fired % 2 ^ 32) * 2 ^ 80)

/-- The whole snapshot of a paddock, with the idle counter as it stood at detection. -/
def snapshot (d : Dev) (k : PadId) (p : Paddock) (f : FaultInfo) (idle : Nat) : Bytes :=
  let sites := p.allSites
  let trig := match f.site, f.unit with
    | some s, some u => if (u ≤ 24 || u == 31) && f.code != 0x1001 && f.code != 0x1002 then some (s.val * 32 + u) else none
    | _, _ => none
  let phase := match p.sites with
    | s :: _ => (d.tile s).ctl.phase.toNat
    | [] => 0
  leBytes 4 (f.code + k.val * 2 ^ 16 + (trig.getD 0) * 2 ^ 20 + (if trig.isSome then 2 ^ 31 else 0))
    ++ leBytes 4 phase ++ leBytes 8 d.now
    ++ leBytes 4 (25 * sites.length + (if f.code == 0xE002 then f.side * 2 ^ 16 else 0))
    ++ leBytes 4 idle ++ leBytes 8 0
    ++ (sites.flatMap fun s => (fins 25).flatMap fun q => snapEntry d s q (!p.sites.contains s))

/-! ### Stopping a paddock -/

/-- The code's class is 0xE (R482). -/
def isClassE (code : Nat) : Bool := code / 4096 == 0xE

/-- PAYLOAD of a fault event: R485 for class 0xE, else what the raising chapter names, in a layout no chapter gives. DESIGN CHOICE,
log entry 80: STEP_ID of an engine's class 0xE fault stands in DETAIL, and GROUP of an update in COUNT (R190, R215, R286). -/
def faultPayload (k : PadId) (f : FaultInfo) : Bytes :=
  let site := (f.site.map (·.val)).getD 0xFF
  let unit := f.unit.getD 0xFF
  let (step, group) : Nat × Nat := match f.extra with
    | [i] => (i, 0)
    | [i, g] => (i, if unit == 31 then 0 else g)
    | _ => (if f.code == 0xE006 then 0xFF else 0, 0)
  if isClassE f.code then payloadE f.addr site unit f.area k.val step group
  else Config.eventPayload f.code (site :: unit :: f.side :: f.addr :: f.extra)

/-- The fault event of a stop (R551); class 0xE is posted to ring 0 as well (R485). -/
def Dev.faultEvent (d : Dev) (k : PadId) (owner : Nat) (f : FaultInfo) : Dev :=
  let pl := faultPayload k f
  let d := d.post owner 2 k.val f.code pl
  if isClassE f.code then d.postDevice f.code pl else d

/-- The record that `faultEvent` posts, for a KIND 2 fault record (R429). -/
def faultEventBytes (d : Dev) (k : PadId) (owner : Nat) (f : FaultInfo) : Bytes :=
  EventRec.bytes { kind := 2, index := k.val, seq := (vgetN d.rings owner {}).seqOf 2 k.val, time := d.stamp,
                   typ := BitVec.ofNat 16 f.code, payload := padTo 16 (faultPayload k f) }

/-- A context records its fault (R41): the lowest-numbered context's code is kept for the tile. -/
def Tile.recordFault (t : Tile) (c : CtxId) (code now : Nat) : Tile :=
  let low := t.ctl.ctxFault == 0#16 || (List.range c.val).all fun i => !t.ctl.ctxFault.getLsbD i
  let bit := BitVec.ofNat 16 (2 ^ c.val)
  { t with
    ctl := { t.ctl with
      ctxFault := t.ctl.ctxFault ||| bit,
      faultSet := (now, if t.ctl.faultSet.1 == now then t.ctl.faultSet.2 ||| bit else bit),
      faultCode := if low then BitVec.ofNat 16 code else t.ctl.faultCode },
    ctxs := vmod t.ctxs c fun x => { x with state := .faulted } }

/-- A sample record still held when the run ends or stops is discarded and counted (R519). -/
def Tile.dropSample (t : Tile) (now : Nat) : Tile :=
  if t.pmc.smpHeld.isSome then { t with pmc := { t.pmc with smpHeld := none, smpWrites := [], smpLost := t.pmc.smpLost.inc now } } else t

/-- Faults of the grid and their order where several are detected in one ACLK cycle (R75). -/
def gridRank (code : Nat) : Option Nat :=
  match code with
  | 0xE002 => some 0
  | 0x1003 => some 1
  | 0x1002 => some 2
  | 0x1001 => some 3
  | _ => none

/-- The one grid fault of a stop: of the first ACLK cycle in which one was detected, the first in the order of R75. -/
def stopGrid (due : List DueStop) : Option DueStop :=
  match due.filter (·.grid) with
  | [] => none
  | x :: l => some ((l.filter fun y => y.aclk == x.aclk).foldl (fun b y =>
      if (gridRank y.fault.code).getD 4 < (gridRank b.fault.code).getD 4 then y else b) x)

/-- The fault record of a stop (R429): a snapshot where one of its faults is made in the manner of R74, of the first such;
else the event of the first fault. -/
def Dev.stopRecord (d : Dev) (k : PadId) (p : Paddock) (due : List DueStop) : Option FaultRec :=
  match due.find? (·.snap) with
  | some x => some { kind := 1, code := BitVec.ofNat 16 x.fault.code, time := d.stamp, data := snapshot d k p x.fault x.idle }
  | none => due.head?.map fun x => { kind := 2, code := BitVec.ofNat 16 x.fault.code, time := d.stamp, data := x.event }

/-- The stop itself, at the end of the NCLK cycle of its faults: state, fault record, the end of the run, and the event of
its grid fault (R41, R74, R75, R429, R441). -/
def Dev.settle (d : Dev) (k : PadId) : Dev :=
  match d.pad k with
  | none => d
  | some p =>
    if p.due.isEmpty then d
    else
      let old := if p.state == .stopped && (p.faultRec.map (·.kind)) == some 1 then p.faultRec else none
      let g := if (old.bind fun r => gridRank r.code.toNat).isSome then none else stopGrid p.due
      let due := p.due.filter fun x => !x.grid || some x == g
      let d := match g with
        | some x => d.faultEvent k p.owner x.fault
        | none => d
      let rec_ := match old with
        | some r => some r
        | none => d.stopRecord k p due
      let code := ((due.head?).map (·.fault.code)).getD 0
      let d := d.modPad k fun q => { q with
        state := .stopped, due := [], faultRec := rec_, reloading := false, suspendDue := false }
      (d.forSites p.sites fun t => t.dropSample d.now).endOp p.run .failed code

/-- Faults of the paddock are recorded in this cycle: it is not STOPPED, or it has stopped on a fault in this very NCLK cycle
(R41). -/
def Paddock.faultsOpen (p : Paddock) (now : Nat) : Bool :=
  match p.stopAt with
  | none => true
  | some t =>
    if t == now then !(p.state == .stopped && (p.faultRec.map (·.code)) == some 0#16) else p.state != .stopped

/-- A fault is one of those of a paddock's stop in this cycle (R41, R75). -/
def Dev.dueFault (d : Dev) (k : PadId) (p : Paddock) (snap : Bool) (f : FaultInfo) (event : Bytes) : Dev :=
  let x : DueStop := { fault := f, grid := (gridRank f.code).isSome, snap := snap, aclk := d.anow, idle := p.idle, event := event }
  d.modPad k fun q => { q with stopAt := some d.now, due := q.due ++ [x] }

/-- Raise a fault in a paddock (R41, R74, R75). `ctx` is the context that raises it, `snap` says that the stop is made
under R74 or in its manner. The first fault fixes the NCLK cycle of the stop; every fault of that cycle is recorded and, but
for the grid's, posted, and after it nothing is raised. -/
def Dev.raise (d : Dev) (k : PadId) (ctx : Option (SiteId × CtxId)) (snap : Bool) (f : FaultInfo) : Dev :=
  match d.pad k with
  | none => d
  | some p =>
    if !p.faultsOpen d.now then d
    else
      let event := if snap then [] else faultEventBytes d k p.owner f
      let d' := match ctx with
        | some (s, c) => d.modTile s fun t => t.recordFault c f.code d.now
        | none => d
      let d' := if (gridRank f.code).isSome then d' else d'.faultEvent k p.owner f
      d'.dueFault k p snap f event

/-- Raise a fault in a context of a site's tile. -/
def Dev.ctxFault (d : Dev) (s : SiteId) (c : CtxId) (f : FaultInfo) : Dev :=
  match d.padOf s with
  | some k => d.raise k (some (s, c)) (isClassE f.code) { f with site := some s }
  | none => d

/-- Raise a fault of the grid at a site (R74). -/
def Dev.gridFault (d : Dev) (s : SiteId) (f : FaultInfo) : Dev :=
  match d.holder s with
  | some k => d.raise k none true { f with site := some s }
  | none => d

/-- What the back-off and no-response timers of a paddock show: they stand while it is held (R444). -/
def Paddock.timer (p : Paddock) (now : Nat) : Nat := (if p.held then p.holdAt else now) - p.frozen

def Dev.timer (d : Dev) (s : SiteId) : Nat := (((d.padOf s).bind d.pad).map fun p => p.timer d.now).getD d.now

/-- The paddock has not stopped: what its agents do in the NCLK cycle of a stop still counts (R41). -/
def Paddock.unstopped (p : Paddock) (now : Nat) : Bool := p.stopAt.isNone || (p.stopAt == some now && p.state != .stopped)

/-- Whether a paddock's work goes on: it is RUNNING, not reloading and not held, and clocks run (R441, R444). -/
def Dev.padLive (d : Dev) (k : PadId) : Bool :=
  d.running && match d.pad k with
  | some p => p.state == .running && !p.reloading && !p.held && p.unstopped d.now
  | none => false

/-- The grid of a site moves tokens: the paddock that holds it is live (R54, R74, R444). -/
def Dev.gridLive (d : Dev) (s : SiteId) : Bool :=
  match d.holder s with
  | some k => d.padLive k
  | none => false

/-- The tile's units and engines issue work: its paddock is live (R41, R444). -/
def Dev.tileLive (d : Dev) (s : SiteId) : Bool :=
  match d.padOf s with
  | some k => d.padLive k
  | none => false

/-- The paddock has not stopped: requests already issued complete while it is held or suspended (R441, R444). -/
def Dev.tileUp (d : Dev) (s : SiteId) : Bool :=
  d.running && d.hasTile s && match (d.padOf s).bind d.pad with
  | some p => p.unstopped d.now
  | none => false

/-- A firing in the paddock returns the idle counter to zero (R72). -/
def Dev.noteFire (d : Dev) (s : SiteId) : Dev :=
  match d.holder s with
  | some k => d.modPad k fun p => { p with fired := true, idle := 0 }
  | none => d

/-- One more firing counted against FIRE_COUNT: a VXU's firing, an MXU's step, an MSU's descriptor, an elastic MSU's
token (R58, R103, R176, R189, R273). -/
def Dev.firedOne (d : Dev) (s : SiteId) (p : PosId) : Dev := d.modPos s p fun q => { q with fired := q.fired + 1 }

/-! ### Counters and samples (R508 to R519) -/

/-- The paddock's run is RUNNING: its operation has begun and not ended (R417, R441). -/
def Dev.runOn (d : Dev) (p : Paddock) : Bool :=
  p.state == .running && p.unstopped d.now && (p.run.map fun i => (d.op i).state == .running || (d.op i).state == .suspending).getD false

/-- The paddock's run has begun and not ended, though it may be SUSPENDED or wait QUEUED to go on (R417, R441). -/
def Dev.runBegun (d : Dev) (p : Paddock) : Bool :=
  d.runOn p || (!p.reloading && (p.state == .running || p.state == .suspended) && p.unstopped d.now &&
    (p.run.map fun i => (d.op i).live).getD false)

/-- The cycle counts for the site's tile: its paddock's run is RUNNING and not held, and clocks run (R509). -/
def Dev.counted (d : Dev) (s : SiteId) : Bool :=
  d.running && match (d.padOf s).bind d.pad with
  | some p => d.runOn p && !p.held
  | none => false

/-- Advance a fixed counter (R510): a read in the same cycle does not see it yet (R509). -/
def Dev.countFixed (d : Dev) (s : SiteId) (n v : Nat) : Dev :=
  if d.counted s then d.modTile s fun t => { t with
    pmc := { t.pmc with fixedNow := vmodN t.pmc.fixedNow n fun x => x + v } }
  else d

/-- The fixed counters that count in ACLK cycles (R510). -/
def aclkFixed (n : Nat) : Bool := 1 ≤ n && n ≤ 4

/-- The end of a cycle of one clock for the fixed counters. -/
def Pmc.settle (p : Pmc) (aclk : Bool) : Pmc :=
  { p with
    fixed := Vector.ofFn fun n : Fin 8 => if aclkFixed n.val == aclk then satAdd p.fixed[n] p.fixedNow[n] else p.fixed[n]
    fixedNow := Vector.ofFn fun n : Fin 8 => if aclkFixed n.val == aclk then 0 else p.fixedNow[n] }

/-- Fields of the measurement word (R513). -/
def Pmc.sampleEn (p : Pmc) : Bool := p.meas.getLsbD 5
def Pmc.sampleRegion (p : Pmc) : Nat := bvFld p.meas 6 4
def Pmc.sampleKind (p : Pmc) : Nat := bvFld p.meas 10 3
def Pmc.period (p : Pmc) : Nat := bvFld p.meas 16 24

/-- A sample occurrence: what the payload of R518 takes from it. -/
structure Sample where
  kind : Nat
  addr : Nat
  latency : Nat
  step : Nat
  unit : Nat
  ctx : Nat
  flags : Nat := 0
  deriving DecidableEq, Repr

/-- The 32-byte payload of a sample record (R518). -/
def Sample.bytes (x : Sample) (now phase : Nat) : Bytes :=
  leBytes 8 now ++ leBytes 8 x.addr ++ leBytes 4 (min x.latency (2 ^ 32 - 1)) ++ leBytes 4 phase ++ leBytes 2 x.step
    ++ leBytes 1 x.unit ++ leBytes 1 x.kind ++ leBytes 1 x.ctx ++ leBytes 1 x.flags ++ leBytes 2 0

/-- TILE_SMP_COUNT as a read in cycle `now` sees it. -/
def Pmc.countSeen (p : Pmc) (now : Nat) : Word :=
  BitVec.ofNat 32 (if p.smpNow.1 == now then p.smpCount - p.smpNow.2 else p.smpCount)

/-- A qualifying occurrence is counted, and one in PERIOD is held for its record or lost (R517, R519). -/
def Dev.sample (d : Dev) (s : SiteId) (x : Sample) : Dev :=
  let p := (d.tile s).pmc
  if !(d.counted s && p.sampleEn && p.sampleKind == x.kind) then d
  else
    d.modTile s fun t =>
      let q := { t.pmc with
        smpCount := t.pmc.smpCount + 1, smpNow := (d.now, if t.pmc.smpNow.1 == d.now then t.pmc.smpNow.2 + 1 else 1) }
      let due := q.period != 0 && q.smpCount % q.period == 0
      let record := bvFld (vgetN t.regions q.sampleRegion {}).desc 48 2 == 2
      { t with
        pmc := if !due then q
               else if q.smpHeld.isSome || !record then { q with smpLost := q.smpLost.inc d.now }
               else { q with smpHeld := some (x.bytes d.now t.ctl.phase.toNat) } }

/-! ### Bells (R247 to R251) -/

/-- Sum of the increments of a bell. -/
def bellSum (l : List (Nat × Nat)) (b : Nat) : Nat := sumNat ((l.filter fun x => x.1 == b).map (·.2))

/-- Value of a bell with the increments of the cycle so far (R40, R248). -/
def Tile.bell (t : Tile) (b : Nat) : Nat := (vgetN t.bells b 0#32).toNat + bellSum t.bellNow b

/-- Take `n` from the increments of a bell. -/
def takeSum (b : Nat) : Nat → List (Nat × Nat) → List (Nat × Nat)
  | _, [] => []
  | n, x :: l => if x.1 == b then (b, x.2 - n) :: takeSum b (n - x.2) l else x :: takeSum b n l

/-- A satisfied wait takes `n` from a bell, of this cycle's increments what the bell itself does not hold (R248, R250). -/
def Tile.takeBell (t : Tile) (b n : Nat) : Tile :=
  let v := (vgetN t.bells b 0#32).toNat
  { t with bells := vsetN t.bells b (BitVec.ofNat 32 (v - n)), bellNow := takeSum b (n - v) t.bellNow }

/-- An increment that takes effect in this NCLK cycle: it has arrived from outside the tile (R248, R249). -/
def Dev.bellAdd (d : Dev) (s : SiteId) (b n : Nat) : Dev := d.modTile s fun t => { t with bellNow := t.bellNow ++ [(b, n)] }

/-- An increment that takes effect in the next NCLK cycle: a completion's or a local BELL_ADD (R249, R251). -/
def Dev.bellLater (d : Dev) (s : SiteId) (b n : Nat) : Dev := d.modTile s fun t => { t with bellNext := t.bellNext ++ [(b, n)] }

/-- The bell's net value of the cycle is stored: 0xFFFF_FFFF and a fault of context 0 where it is larger (R251). -/
def Dev.settleBell (d : Dev) (s : SiteId) (b : Nat) : Dev :=
  let v := (d.tile s).bell b
  let d := d.modTile s fun t => { t with bells := vsetN t.bells b (BitVec.ofNat 32 (min v 0xFFFFFFFF)) }
  if v ≤ 0xFFFFFFFF then d else d.ctxFault s 0 { code := 0x4001, unit := some 31, extra := [b] }

/-- The end of an NCLK cycle for the bells of a tile. -/
def Dev.settleBells (d : Dev) (s : SiteId) : Dev :=
  let l := ((d.tile s).bellNow.map (·.1)).dedup
  (l.foldl (fun d b => d.settleBell s b) d).modTile s fun t => { t with bellNow := [] }

/-- The increments that wait for the next NCLK cycle are those of the cycle that begins (R249, R251). -/
def Tile.turnBells (t : Tile) : Tile := { t with bellNow := t.bellNext, bellNext := [] }

/-! ### Retiring a tile (R488 to R493) -/

/-- |Δx| + |Δy| between two sites (R490). -/
def siteDist (a b : SiteId) : Nat :=
  ((siteX a : Int) - siteX b).natAbs + ((siteY a : Int) - siteY b).natAbs

/-- The first site of least distance, ties to the lower number. -/
def nearest (s : SiteId) (l : List SiteId) : Option SiteId :=
  l.foldl (fun best c => match best with
    | none => some c
    | some b => if siteDist s c < siteDist s b then some c else some b) none

/-- The dark remount that takes a retired tile (R490). -/
def Dev.substitute (d : Dev) (k : PadId) (s : SiteId) : Option SiteId :=
  nearest s ((fins 48).filter fun c =>
    d.kinds[c] == .darkRemount && (d.padOf c).isNone &&
      (fins 16).all fun j => j == k || !(((d.pad j).map fun p => p.pass.contains c).getD false))

/-- A site lies in the smallest rectangle that contains a list of sites (R436). -/
def inRect (l : List SiteId) (s : SiteId) : Bool :=
  l.any (fun c => siteX c ≤ siteX s) && l.any (fun c => siteX s ≤ siteX c) &&
  l.any (fun c => siteY c ≤ siteY s) && l.any (fun c => siteY s ≤ siteY c)

/-- Sites that a paddock with these tiles takes for pass-through: dark remounts and retired tiles in its rectangle that no other
paddock holds (R436). -/
def Dev.passFor (d : Dev) (k : PadId) (sites : List SiteId) : List SiteId :=
  (fins 48).filter fun s =>
    (d.kinds[s] == .darkRemount || d.kinds[s] == .retired) && inRect sites s && ((d.holder s).getD k == k)

/-- The pass-through sites of a paddock are those that its tiles now ask for (R436, R490). -/
def Dev.assignPass (d : Dev) (k : PadId) : Dev := d.modPad k fun p => { p with pass := d.passFor k p.sites }

/-- A retired site that no paddock holds goes to the first whose rectangle it lies in (R436). -/
def Dev.passRetired (d : Dev) (s : SiteId) : Dev :=
  match (fins 16).find? fun k => ((d.pad k).map fun p => inRect p.sites s).getD false with
  | some k => if (d.holder s).isNone then d.assignPass k else d
  | none => d

/-- Every panel of a section, queued for zeroing (R165). -/
def zeroAll : Vector (List (Nat × Nat)) 4 :=
  Vector.ofFn fun sec => (List.range 192).map fun i => (4 * i + sec.val, 0)

/-- A scratchpad with every valid bit cleared and every panel queued for zeroing (R165). -/
def Spad.invalidate (p : Spad) : Spad := { p with valid := 0#768, zeroQ := zeroAll }

/-- The tile a remount becomes: no state, bound, with the paddock's registers, panels queued for zeroing (R490). -/
def remountTile (old : TileCtl) (new : Tile) (now : Nat) : Tile :=
  { scrub := { checkedAt := now }, spad := new.spad.invalidate, router := new.router, jctTemp := new.jctTemp, power := 0x00#8,
    ctl := { bound := old.bound, carMap := old.carMap, stripeCfg := old.stripeCfg,
             stripeList := old.stripeList, fabCfg := old.fabCfg, hold := old.hold } }

/-- The link layer of a position: its link switch word, its link queues and its pass-through registers (R22). -/
def Pos.linkLayer (q : Pos) : Pos :=
  { switch := q.switch, linkQ := q.linkQ, freed := q.freed, lastMove := q.lastMove, passReg := q.passReg
    passEmptied := q.passEmptied, lastSent := q.lastSent, parityErrs := q.parityErrs }

/-- A tile that holds nothing but the link layer of its positions: only its router, its temperature sensor and the link layer
work on (R22, R527). -/
def darkTile (t : Tile) : Tile :=
  { router := t.router, jctTemp := t.jctTemp, power := 0x03#8, grid := t.grid.map Pos.linkLayer }

/-- End what runs in a paddock: a load, a run or a checkpoint that is not final ends FAILED (R489). -/
def Dev.endPadOps (d : Dev) (k : PadId) (code : Nat) : Dev :=
  ((fins 64).foldl (fun d i =>
    if (d.op i).live && (d.op i).paddock == some k && (d.op i).typ != .imageLoad then d.setOp i .failed code else d) d).failLoad k code

/-- Write a field of all three copies of a scrubber's state (R312). -/
def Scrubber.put (c : Scrubber) (lo len v : Nat) : Scrubber :=
  let x := setFld c.copyA lo len v
  { c with copyA := x, copyB := x, copyC := x }

/-- Live configuration words of a tile that hosts `n` pass sites (R308). -/
def liveWordsOf (n : Nat) : Nat := 37286 + 25 * n

/-- The live walker's bound for a tile that hosts `n` pass sites (R308, R312). -/
def Scrubber.setBound (c : Scrubber) (n : Nat) : Scrubber := c.put 83 20 (liveWordsOf n)

/-! ### Protected state (R312): heartbeat [31:0], live walker [51:32], bank walker [72:52], bank [73], enable [74], rate
[82:75], live bound [102:83], bank bound [123:103] -/

/-- Bits of one copy. -/
def scrubBits : Nat := 124

def Scrubber.beat (c : Scrubber) : Nat := fld c.copyA 0 32
def Scrubber.live (c : Scrubber) : Nat := fld c.copyA 32 20
def Scrubber.bankPtr (c : Scrubber) : Nat := fld c.copyA 52 21
def Scrubber.bank (c : Scrubber) : Nat := fld c.copyA 73 1
def Scrubber.works (c : Scrubber) : Bool := bitOf c.copyA 74 && !c.halted

/-- NCLK cycles between two accesses (R309). -/
def Scrubber.rate (c : Scrubber) : Nat := fld c.copyA 75 8
/-- Words that each walker passes over (R308, R307). -/
def Scrubber.liveBound (c : Scrubber) : Nat := fld c.copyA 83 20
def Scrubber.bankBound (c : Scrubber) : Nat := fld c.copyA 103 21

/-! ### The known-answer scan (R313, R314) -/

/-- The words that a scan writes into the scrub test area: T0, T1 with one data bit inverted, T2 with two (R313). -/
def katWords (seed : Word) : List TestWord :=
  let x := BitVec.ofNat 64 (seed.toNat + (~~~ seed).toNat * 2 ^ 32)
  let i := seed.toNat % 64
  let j := (seed.toNat + 1) % 64
  [{ data := x }, { data := x, flipped := [i] }, { data := x, flipped := [i, j] }]

/-- Scrub one word: SECDED corrects a single error and detects a double one (R308). -/
def TestWord.scrub (w : TestWord) : TestWord × Ecc :=
  match w.flipped with
  | [] => (w, .clean)
  | [_] => ({ w with flipped := [] }, .corrected)
  | _ => (w, .uncorrectable)

/-- TILE_SCRUB_KAT_RESULT of the three words as the scan scrubs them (R314). -/
def katResult (seed : Word) (ws : List TestWord) : BitVec 64 :=
  match ws.map TestWord.scrub with
  | [(t0, e0), (t1, e1), (_, e2)] =>
    BitVec.ofNat 64 (seed.toNat + 2 ^ 32 + bit (e0 == .clean) 33 + bit (e1 == .corrected) 34 +
      bit (t1.data == t0.data && t1.flipped.isEmpty) 35 + bit (e2 == .uncorrectable) 36)
  | _ => 0#64

/-- Carry out the scan that has been asked for, in the scrub test area of the active bank; a scrubber that has halted does
nothing. -/
def Tile.scan (t : Tile) : Tile :=
  match t.scrub.katSeed with
  | none => t
  | some seed =>
    if !t.scrub.works then { t with scrub := { t.scrub with katSeed := none } }
    else
      let ws := katWords seed
      { t with
        banks := vmodN t.banks t.ctl.activeIdx fun b => { b with scrubTest := ws.map fun w => w.scrub.1 }
        scrub := { t.scrub with katSeed := none, kat := katResult seed ws } }

/-- A write of TILE_SCRUB_KAT_CMD clears the result and asks for a scan (R314). -/
def Tile.askScan (t : Tile) (seed : Word) : Tile := { t with scrub := { t.scrub with kat := 0#64, katSeed := some seed } }

/-- The scan's result passes the check. -/
def Scrubber.scanOk (c : Scrubber) (seed : Word) : Bool := c.kat == BitVec.ofNat 64 (seed.toNat + 31 * 2 ^ 32)

/-! ### Retirement (R489 to R493) -/

/-- A fault has stopped the paddock, or stops it in this cycle; a cancelled run's record names no fault (R418, R489). -/
def Paddock.faulted (p : Paddock) : Bool :=
  !p.due.isEmpty || (p.state == .stopped && p.stopAt.isSome && (p.faultRec.map (·.code)) != some 0#16)

/-- The paddock stops because its tile retires (R489): one that a fault has stopped, or stops in this cycle, keeps its code. The
fault event of TILE_RETIRED follows once the repair row is written (R493). -/
def Dev.retireStop (d : Dev) (k : PadId) (p : Paddock) (s : SiteId) (code : Nat) : Dev :=
  if p.faulted then d.settle k
  else
    let d := d.modPad k fun q => { q with stopAt := none, faultRec := none }
    (if code == 0xE006 then d.dueFault k p true { code := code, site := some s } []
     else d.raise k none true { code := code, site := some s, area := 2 }).settle k

/-- The paddock loses a tile: its image goes with it, and the tile's number is vacant (R489, R492). -/
def Dev.loseTile (d : Dev) (k : PadId) (n : Nat) : Dev :=
  let d := d.modPad k fun p => { p with state := .stopped, image := none, tiles := p.tiles.set n none }
  match d.pad k with
  | some p => d.forSites p.sites fun t => { t with
      scrub := t.scrub.setBound 0
      ctl := { t.ctl with imageTag := 0#64, cfgBank := t.ctl.cfgBank &&& 0xF7#8 } }
  | none => d

/-- Retire the tile at a site at once (R489). `code` is SCRUBBER_FAILED where that led to it, and TILE_RETIRED otherwise. The
remount follows at the end of the YCLK cycle (R491). -/
def Dev.retireTile (d : Dev) (s : SiteId) (code : Option Nat) : Dev :=
  if d.kinds[s] == .retired then d
  else
    let ctl := if d.kinds[s] == .darkRemount then {} else (d.tile s).ctl
    let d := { d with kinds := vmod d.kinds s fun _ => .retired }
    let stops : Option PadId := match ctl.bound with
      | some (k, _) => if code.isNone && !((d.pad k).map Paddock.faulted).getD true then some k else none
      | none => none
    let d := match ctl.bound with
      | none => d
      | some (k, n) =>
        match d.pad k with
        | none => d
        | some p =>
          let d := d.retireStop k p s (code.getD 0xE006)
          let why : Nat := match (d.pad k).bind fun p => p.faultRec with
            | some r => r.code.toNat
            | none => 0xE006
          (d.endPadOps k why).loseTile k n
    (d.modTile s darkTile).modYm fun y => { y with retireDue := y.retireDue ++ [{ site := s, ctl := ctl, stops := stops }] }

/-- The remount takes the retired tile's number, and the paddock's pass-through sites are those of its new rectangle (R436, R490,
R492). -/
def Dev.remount (d : Dev) (k : PadId) (n : Nat) (x : RetireDue) : Dev × Option SiteId :=
  let vacant := ((d.pad k).bind fun p => p.tiles[n]?) == some none
  let rem := if vacant then d.substitute k x.site else none
  let d := match rem with
    | some r => { d with kinds := vmod d.kinds r fun _ => .usedRemount }.modTile r fun t => remountTile x.ctl t d.now
    | none => d
  let d := if !vacant then d else (d.modPad k fun p => { p with tiles := p.tiles.set n rem }).assignPass k
  (d, rem)

/-- The rest of a retirement: the remount, the repair row, the event, which is the fault event of the paddock where the
retirement has stopped one with TILE_RETIRED (R485, R490, R493). -/
def Dev.finishRetire (d : Dev) (x : RetireDue) : Dev :=
  let (d, rem) := match x.ctl.bound with
    | some (k, n) => d.remount k n x
    | none => (d.passRetired x.site, none)
  let d := d.recordRepair (.tile x.site rem)
  let pl := payloadE 0 x.site.val 0xFF 0xFF ((x.ctl.bound.map fun b => b.1.val).getD 0xFF)
    ((rem.map (·.val)).getD 0xFF) (d.kindCount .darkRemount)
  (match x.stops, (x.stops.bind d.pad).map Paddock.owner with
   | some k, some m => (d.post m 2 k.val 0xE006 pl).postDevice 0xE006 pl
   | _, _ => d.post 0 1 x.site.val 0xE006 pl).health

/-- At the end of a YCLK cycle its retirements take their remounts in ascending site order (R491). -/
def Dev.finishRetires (d : Dev) : Dev :=
  let l := d.ym.retireDue
  (fins 48).foldl (fun d s => match l.find? fun x => x.site == s with
    | some x => d.finishRetire x
    | none => d) (d.modYm fun y => { y with retireDue := [] })

/-- Times within a window that ends now (R488). -/
def within (now span : Nat) (l : List Nat) : List Nat := l.filter fun t => now < t + span

/-- 24 hours and 1 hour in NCLK cycles. -/
def day : Nat := 1650000000 * 86400
def hour : Nat := 1650000000 * 3600

/-- Count an upset of a site and retire its tile when the window's limit is reached (R488). -/
def Dev.countUpset (d : Dev) (s : SiteId) (get : SiteHist → List Nat) (put : SiteHist → List Nat → SiteHist)
    (span limit : Nat) : Dev :=
  if !d.hasTile s then d else
  let l := d.now :: within d.now span (get d.ym.hist[s])
  let d := d.modYm fun y => { y with hist := vmod y.hist s fun h => put h l }
  if limit ≤ l.length then d.retireTile s none else d

/-- LINK_PARITY_ERROR at a position of the site: 3 times in 24 h (R488). -/
def Dev.countParity (d : Dev) (s : SiteId) : Dev :=
  d.countUpset s (·.parity) (fun h l => { h with parity := l }) day 3

/-- UNCORRECTABLE_READ from the site's scratchpad: 2 times in 24 h (R488). -/
def Dev.countSpadUe (d : Dev) (s : SiteId) : Dev :=
  d.countUpset s (·.spadUe) (fun h l => { h with spadUe := l }) day 2

/-- CFG_UNCORRECTABLE in the live state or the active bank: 2 times in 24 h (R488). -/
def Dev.countCfgUe (d : Dev) (s : SiteId) : Dev :=
  d.countUpset s (·.cfgUe) (fun h l => { h with cfgUe := l }) day 2

/-- One scratchpad word corrected: 8 times in 1 h (R488). -/
def Dev.countWord (d : Dev) (s : SiteId) (word : Nat) : Dev :=
  if !d.hasTile s then d else
  let l := (word, d.now) :: (d.ym.hist[s].words.filter fun x => d.now < x.2 + hour)
  let d := d.modYm fun y => { y with hist := vmod y.hist s fun h => { h with words := l } }
  if 8 ≤ (l.filter fun x => x.1 == word).length then d.retireTile s none else d

/-! ### Failure of the device (R502, R503) -/

/-- The device enters the failed state: every paddock stops, MAILBOX_READY clears, the alert and replacement pins are
asserted (R502). -/
def Dev.fail (d : Dev) : Dev :=
  if d.ym.failed then d
  else
    let d := d.modYm fun y => { y with failed := true }
    let d := (fins 16).foldl (fun d k => match d.pad k with
      | some p =>
        if p.due.isEmpty && p.state != .stopped then
          let x : DueStop := { fault := { code := 0xE00E }, grid := false, snap := true, aclk := d.anow, idle := p.idle }
          (d.modPad k fun q => { q with stopAt := some d.now, due := [x] }).settle k
        else d.settle k
      | none => d) d
    let d := d.postDevice 0xE00E (payloadE 0 0xFF 0xFF 0xFF 0xFF 0 0)
    (d.alert alertFailed).health

/-- A channel whose path failed lies in a loft where a paddock holds a window: a failure of the device (R497, R503). -/
def Dev.deadWindows (d : Dev) : Dev :=
  let held := (fins 16).any fun k => match d.pad k with
    | some p => p.windows.any fun w => !(d.loft w.loft).deadChans.isEmpty
    | none => false
  if held then d.fail else d

end Sys2Proof.Machine
end

