-- ==== Sys2Proof/Machine/FabOps.lean ====
section
/-!
DEFINITION. Injecting fabric packets (R356, R357, R366 to R376): the device's role and number, route lookup, the packets
a device builds. A packet for the device itself stays on the die.
-/
namespace Sys2Proof.Machine

/-! ### Owner settings and FAB_DEV_CFG (R356, R392) -/

/-- FAB_DEV_CFG NUMBERED, DEVICE and MASTER (R392). -/
def Dev.numbered (d : Dev) : Bool := d.fab.devCfg.getLsbD 3
def Dev.number (d : Dev) : BitVec 14 := BitVec.ofNat 14 (bvFld d.fab.devCfg 4 14)
def Dev.isMaster (d : Dev) : Bool := d.fab.devCfg.getLsbD 18

/-- Set a field of FAB_DEV_CFG. -/
def Dev.setDevCfg (d : Dev) (lo len v : Nat) : Dev :=
  let x := d.fab.devCfg.toNat
  { d with fab := { d.fab with devCfg := BitVec.ofNat 32 (x - fld x lo len * 2 ^ lo + v % 2 ^ len * 2 ^ lo) } }

/-- An event of the fabric (R393): a code and what it names. -/
def Dev.fabEvent (d : Dev) (code : Nat) (names : List Nat) : Dev := d.postDevice code (Config.eventPayload code names)

/-! ### Hitch map (R357) -/

/-- Every mapped link of the device: its unsplit link per port, and the peer's position. -/
def Dev.hitchLinks (d : Dev) : List (LinkId × Nat) :=
  if !d.inHitch then []
  else (List.range d.hitchSize).flatMap fun q =>
    (hitchPorts d.hitchSize d.hitchPos q).filterMap fun p => (finOf 16 (2 * p)).map fun n => (n, q)

/-- Hitch position of a device number, in a formed hitch (R362). -/
def Dev.peerPos (d : Dev) (dev : BitVec 14) : Option Nat :=
  if d.inHitch && d.hitchFormed && d.numbered then
    let base := d.number.toNat - d.hitchPos
    if base ≤ dev.toNat && dev.toNat < base + d.hitchSize && dev != d.number then some (dev.toNat - base) else none
  else none

/-! ### Route lookup (R374, R375) -/

/-- Entry of a device in a version. -/
def Dev.route (d : Dev) (version : BitVec 1) (dev : BitVec 14) : BitVec 16 :=
  (lookupNat dev.toNat (if version == 0#1 then d.fab.routes0 else d.fab.routes1)).getD 0#16

/-- What FAB_ROUTE shows: the fixed entries of the device's own number and of its hitch peers, and what ROUTE_WRITE has written
(R357, R374). -/
def Dev.routeShown (d : Dev) (version : BitVec 1) (dev : BitVec 14) : BitVec 16 :=
  if d.numbered && dev == d.number then 0x30#16
  else match (d.peerPos dev).bind fun q => (hitchPorts d.hitchSize d.hitchPos q).head? with
    | some p => BitVec.ofNat 16 (0x20 + 2 * p)
    | none => d.route version dev

/-- Where a packet goes: to the device itself, to a link, with its dateline, or nowhere. -/
inductive Hop where
  | here
  | link (n : LinkId) (dateline : Bool)
  | nowhere
  deriving DecidableEq, Repr

/-- The route of a packet: a device without a number has none (R363), and a hitch link that does not match the map carries no
hitch traffic (R358). -/
def Dev.hop (d : Dev) (version : BitVec 1) (dev : BitVec 14) (tag : BitVec 16) (mgmt : Bool) : Hop :=
  if !d.numbered then .nowhere
  else if dev == d.number then .here
  else match d.peerPos dev with
    | some q =>
      let ports := hitchPorts d.hitchSize d.hitchPos q
      let k := if mgmt then 0 else bvFld tag 7 6 % max 1 ports.length
      (match (ports[k]?).bind fun p => finOf 16 (2 * p) with
       | some n => if (d.link n).state == .up && d.fab.hitchOk.contains n then .link n false else .nowhere
       | none => .nowhere)
    | none =>
      let e := d.route version dev
      if !e.getLsbD 5 || e.getLsbD 4 then .nowhere
      else match finOf 16 (bvFld e 0 4) with
        | some n => if (d.link n).state == .up then .link n (e.getLsbD 6) else .nowhere
        | none => .nowhere

/-- A packet without a route is dropped and reported (R375). -/
def Dev.dropRoute (d : Dev) (p : FabPkt) : Dev :=
  ({ d with fab := { d.fab with dropRoute := d.fab.dropRoute.inc d.now } }).fabEvent 0x6023 [p.src.toNat, p.dest.toNat]

/-- Mesh VC of a packet on its way between its place on the die and a fabric port (R318, R328): requests and what the carillon sends on the
fabric transit VC, responses on the response VC, messages of the yardmaster as requests. -/
def fabVc (e : MeshEnd) (p : FabPkt) : Fin 4 := if p.cls == 1#2 then 1 else if p.cls == 2#2 && e != prCarillon then 0 else 3

/-- A packet crosses the mesh. -/
def Dev.carryPkt (d : Dev) (a b : MeshEnd) (pad : Option PadId) (p : FabPkt) : Dev :=
  d.carry a b (fabVc a p) (p.prio == 1#1) pad (64 * p.len.toNat)

/-- Inject a packet: the epoch is stamped, HOPS and DL are 0, and the route of that epoch is taken (R371 to R376). From where it is
made on the die it crosses the mesh to its port (R328). -/
def Dev.inject (d : Dev) (from_ : Option MeshEnd) (p : FabPkt) : Dev :=
  let p := { p with src := d.number, epoch := d.injEpoch, dl := 0#1, hops := 0#6 }
  match d.hop p.epoch p.dest p.tag (p.cls == 2#2) with
  | .here => { d with fab := { d.fab with loop := d.fab.loop ++ [p] } }
  | .link n dl =>
    let d := match from_ with
      | some e => d.carryPkt e (prOfLink n) none p
      | none => d
    { d with fab := { d.fab with
        out := d.fab.out ++ [{ link := n, ready := d.now, pkt := .packet { p with dl := BitVec.ofBool dl } }] } }
  | .nowhere => d.dropRoute p

/-! ### Packets (R366 to R369) -/

/-- TAG (R369): index, source site, source kind. -/
def tagOf (idx site kind : Nat) : BitVec 16 := BitVec.ofNat 16 (idx + site * 2 ^ 7 + kind * 2 ^ 13)
def tagIdx (t : BitVec 16) : Nat := bvFld t 0 7
def tagSite (t : BitVec 16) : Nat := bvFld t 7 6
def tagKind (t : BitVec 16) : Nat := bvFld t 13 3

/-- A packet with zero where nothing is said. -/
def blankPkt : FabPkt :=
  { laddr := 0#39, dest := 0#14, space := 0#3, src := 0#14, epoch := 0#1, prio := 0#1, brand := 0#16, typ := 0#6,
    cls := 0#2, dl := 0#1, len := 0#7, hops := 0#6, tag := 0#16, seq := 0#16, size := 0#13, status := 0#8,
    reserved := 0#93, operand := List.replicate 32 0#8, payload := [] }

/-- A request packet. -/
def reqPkt (dest space laddr typ size : Nat) (brand tag seq : BitVec 16) (prio : Bool) (operand payload : Bytes) : FabPkt :=
  { blankPkt with
    laddr := BitVec.ofNat 39 laddr, dest := BitVec.ofNat 14 dest, space := BitVec.ofNat 3 space, prio := BitVec.ofBool prio,
    brand := brand, typ := BitVec.ofNat 6 typ, len := BitVec.ofNat 7 (ceilDiv payload.length 64), tag := tag, seq := seq,
    size := BitVec.ofNat 13 size, operand := padTo 32 operand,
    payload := padTo (64 * ceilDiv payload.length 64) payload }

/-- The answer to a request (R368, R369, R384): TAG, SEQ, BRAND and PRIO come back. -/
def rspPkt (p : FabPkt) (typ status : Nat) (operand payload : Bytes) : FabPkt :=
  { blankPkt with
    laddr := p.laddr, space := p.space, dest := p.src, prio := p.prio, brand := p.brand, typ := BitVec.ofNat 6 typ,
    cls := 1#2, len := BitVec.ofNat 7 (ceilDiv payload.length 64), tag := p.tag, seq := p.seq, size := p.size,
    status := BitVec.ofNat 8 status, operand := padTo 32 operand,
    payload := padTo (64 * ceilDiv payload.length 64) payload }

/-- Brand that a tile's paddock holds, TILE_FAB_CFG (R392). -/
def Dev.tileBrand (d : Dev) (s : SiteId) : BitVec 16 := BitVec.ofNat 16 (bvFld (d.tile s).ctl.fabCfg 0 16)
def Dev.tileBrandValid (d : Dev) (s : SiteId) : Bool := (d.tile s).ctl.fabCfg.getLsbD 16

/-- A device number is a position of the formed hitch, the device's own included (R476). -/
def Dev.inMyHitch (d : Dev) (dev : BitVec 14) : Bool := d.hitchFormed && (dev == d.number || (d.peerPos dev).isSome)

/-- The tile's paddock is sealed, with a brand (R464, R476). -/
def Dev.tileSealed (d : Dev) (s : SiteId) : Bool :=
  match d.padOf s with
  | some k => (d.seals[k]).sealed_
  | none => false

/-- Remote operations are available to a tile (R363, R393). -/
def Dev.fabAvailable (d : Dev) (s : SiteId) : Bool := d.numbered && d.role != 0 && d.tileBrandValid s

/-! ### The receive buffer of a link (R346, R371) -/

/-- The link VC of a packet: class and DL (R371). -/
def pktVc (p : FabPkt) : Nat := if p.cls == 2#2 then 4 else 2 * p.cls.toNat + p.dl.toNat

/-- Remove the first `k` flits of a VC. -/
def dropFlits (v : Nat) : Nat → List (Nat × Bytes) → List (Nat × Bytes)
  | 0, l => l
  | _, [] => []
  | k + 1, f :: fs => if f.1 == v then dropFlits v k fs else f :: dropFlits v (k + 1) fs

/-- LEN of the packet that a head flit begins (R366). -/
def headLen (f : Bytes) : Nat := fld (leNat (sliceAt f 13 1)) 1 7

/-- The flits that wait in the receive buffer once the first packet of a VC has been taken from it. -/
def Link.afterHead (l : Link) (v : Nat) : List (Nat × Bytes) :=
  match l.rxFlits.find? fun f => f.1 == v with
  | none => l.rxFlits
  | some f => dropFlits v (1 + headLen f.2) l.rxFlits

/-- The first packet that waits in a VC of the link's receive buffer leaves it, and its flits are freed (R340, R346). -/
def Dev.freeFlits (d : Dev) (n : LinkId) (v : Nat) : Dev :=
  d.modLink n fun l => { l with
    rxFlits := l.afterHead v
    flitsFreed := vmodN l.flitsFreed v fun x => x + (l.rxFlits.length - (l.afterHead v).length) }

/-- That packet goes to the switch; its flits stay in the buffer, and count as such, until each has been sent on
(R346, R371). -/
def Dev.holdFlits (d : Dev) (n : LinkId) (v : Nat) : Dev := d.modLink n fun l => { l with rxFlits := l.afterHead v }

/-- One flit has left the receive buffer of a switch input; the device's own packets stand in none. -/
def Dev.freeOne (d : Dev) (input v : Nat) : Dev :=
  match finOf 16 input with
  | some n => d.modLink n fun l => { l with flitsFreed := vmodN l.flitsFreed v (· + 1) }
  | none => d

/-! ### Sending over the mesh (R318, R319) -/

/-- A packet from a tile's site to another site. -/
def Dev.meshTo (d : Dev) (s dst : SiteId) (vc : Fin 4) (prio : Bool) (body : MeshMsg) : Dev :=
  d.launch { at_ := s, dests := [dst], vc := vc, prio := prio, src := s.val, paddock := d.padOf s, body := body }

/-- A packet from a tile's site to a periphery router. -/
def Dev.meshToPr (d : Dev) (s : SiteId) (pr : Fin 8) (vc : Fin 4) (prio : Bool) (body : MeshMsg) : Dev :=
  d.launch { at_ := s, dests := [], pr := some pr, vc := vc, prio := prio, src := s.val, paddock := d.padOf s, body := body }

/-- The carillon's answer to a tile: it enters the mesh at AUX of site 21 (R315, R316, R319). -/
def Dev.meshFromCarillon (d : Dev) (dst : SiteId) (prio : Bool) (body : MeshMsg) : Dev :=
  d.launch { at_ := 21, dests := [dst], vc := 2, prio := prio, src := 55, paddock := d.padOf dst, inPort := 6, body := body }

end Sys2Proof.Machine
end

