-- ==== Sys2Proof/Machine/Channels.lean ====
section
/-!
DEFINITION. Outbound channels of a tile (R261, R265, R267): their fields, a free entry, and sending the message in flight.
-/
namespace Sys2Proof.Machine

/-- Fields of a channel (R261). -/
def Chan.valid (h : Chan) : Bool := h.cfg.getLsbD 0
def Chan.remote (h : Chan) : Bool := h.cfg.getLsbD 1
def Chan.prio (h : Chan) : Bool := h.cfg.getLsbD 2
def Chan.queue (h : Chan) : Nat := bvFld h.cfg 3 5
def Chan.tile (h : Chan) : Nat := bvFld h.cfg 8 6
def Chan.bytes (h : Chan) : Nat := (bvFld h.cfg 16 3 + 1) * 8
def Chan.dev (h : Chan) : Nat := bvFld h.cfg 32 14

def Dev.chan (d : Dev) (s : SiteId) (ch : Fin 64) : Chan := (d.tile s).chans[ch]
def Dev.modChan (d : Dev) (s : SiteId) (ch : Fin 64) (f : Chan → Chan) : Dev :=
  d.modTile s fun t => { t with chans := vmod t.chans ch f }

/-- Send the message in flight (R265, R382): to a tile of the paddock, or as a MESSAGE packet. -/
def Dev.transmit (d : Dev) (s : SiteId) (ch : Fin 64) : Dev :=
  let h := d.chan s ch
  match h.current with
  | none => d
  | some e =>
    let rank := (d.tile s).ctl.rank
    let d := d.modChan s ch fun h => { h with state := .inFlight, sentAt := d.timer s, seq := h.seq + 1 }
    if h.remote then
      if d.numbered then
        d.inject (some (.tile s)) (reqPkt h.dev 2 (h.tile * 2 ^ 25 + h.queue) 0x05 h.bytes (d.tileBrand s) (tagOf ch.val s.val 1) (h.seq + 1)
          h.prio (leBytes 2 rank.toNat) e.bytes)
      else d
    else match (d.padOf s).bind fun k => d.tileSite k h.tile with
      | some dst => d.meshTo s dst 2 h.prio (.message h.queue rank e.bytes s ch.val h.prio)
      | none => d

/-- Put a message into a free entry; the first one leaves at once (R265). -/
def Dev.enqueue (d : Dev) (s : SiteId) (ch : Fin 64) (e : SendEntry) : Dev :=
  if (d.chan s ch).current.isNone then
    (d.modChan s ch fun h => { h with current := some e, tries := 0, firstAt := d.now }).transmit s ch
  else d.modChan s ch fun h => { h with waiting := some e }

/-- A SEND can copy its message: an entry is free and the channel is neither resending nor stuck (R265). -/
def Chan.takes (h : Chan) : Bool :=
  (h.current.isNone || h.waiting.isNone) && h.state != .backoff && h.state != .stuck

end Sys2Proof.Machine
end

