-- ==== Sys2Proof/Machine/MsuUnit.lean ====
section
/-!
DEFINITION. The read and write generators of a memory stream unit (R174 to R187): the pattern descriptor, its runs and
accesses, index and secondary streams, padding, regions (R167 to R173) and records.
-/
namespace Sys2Proof.Machine

/-! ### Accesses (R156 to R159) -/

/-- One access: a row access of `n` bytes, or a column access of `n` elements of `es` bytes, one per row (R158). -/
structure Acc where
  addr : Nat
  n : Nat
  es : Nat := 1
  col : Bool := false
  deriving DecidableEq, Repr

/-- Bytes of an access. -/
def Acc.bytes (a : Acc) : Nat := a.n * a.es

/-- Panel and section of an access (R155, R156). -/
def Acc.panel (a : Acc) : Nat := a.addr / 32768
def Acc.section (a : Acc) : Nat := a.addr / 32768 % 4

/-- The addresses an access covers, in order. -/
def Acc.addrs (a : Acc) : List Nat :=
  if a.col then (List.range a.n).flatMap fun i => (List.range a.es).map fun j => a.addr + 512 * i + j
  else (List.range a.bytes).map fun i => a.addr + i

/-- Size of the scratchpad (R157). -/
def spadSize : Nat := 25165824

/-- Split a row run at each 512-byte boundary (R159). -/
def splitRow (a n : Nat) : List Acc :=
  let first := min n (512 - a % 512)
  if n == 0 then [] else if first == n then [{ addr := a, n := n }]
  else { addr := a, n := first } ::
    ((List.range (ceilDiv (n - first) 512)).map fun i =>
      { addr := a + first + 512 * i, n := min 512 (n - first - 512 * i) })

/-- Split a column run where it passes from row 63 of one panel to row 0 of the next (R159). -/
def splitCol (a n es : Nat) : List Acc :=
  let first := min n (64 - a / 512 % 64)
  if n == 0 then [] else if first == n then [{ addr := a, n := n, es := es, col := true }]
  else [{ addr := a, n := first, es := es, col := true },
        { addr := a + 512 * first, n := n - first, es := es, col := true }]

/-! ### Regions (R167 to R172) -/

def Region.base (r : Region) : Nat := bvFld r.desc 0 25
def Region.size (r : Region) : Nat := bvFld r.desc 32 16 * 512
def Region.mode (r : Region) : Nat := bvFld r.desc 48 2

/-- Occupancy and free space of a circular region (R168). -/
def Region.occ (r : Region) : Nat := (r.head - r.tail).toNat
def Region.free (r : Region) : Nat := r.size - r.occ

/-- HEAD and TAIL at the start of ACLK cycle `now` (R169). -/
def Region.seenHead (r : Region) (now : Nat) : Word := if r.headAt == now then r.head0 else r.head
def Region.seenTail (r : Region) (now : Nat) : Word := if r.tailAt == now then r.tail0 else r.tail

/-- Advance HEAD or TAIL by a grant in cycle `now` (R169). -/
def Region.advHead (r : Region) (now n : Nat) : Region :=
  { r with head := r.head + BitVec.ofNat 32 n, headAt := now, head0 := r.seenHead now }
def Region.advTail (r : Region) (now n : Nat) : Region :=
  { r with tail := r.tail + BitVec.ofNat 32 n, tailAt := now, tail0 := r.seenTail now }

/-- Bytes that a read granted in cycle `now` can take, and bytes that a write granted in it can fill: what was written or
freed in the cycle itself does not count (R169). -/
def Region.readable (r : Region) (now : Nat) : Nat := (r.seenHead now - r.tail).toNat
def Region.writable (r : Region) (now : Nat) : Nat := r.size - (r.head - r.seenTail now).toNat

/-- Offset of a byte count in the region (R168). -/
def Region.pos (r : Region) (h : Word) : Nat := h.toNat % max 1 r.size

/-- Accesses of `n` bytes at byte count `h` of a circular region: split at its end, then at 512 bytes (R170). -/
def Region.split (r : Region) (h n : Nat) : List Acc :=
  let s := max 1 r.size
  let o := h % s
  if o + n ≤ s then splitRow (r.base + o) n
  else splitRow (r.base + o) (s - o) ++ splitRow r.base (n - (s - o))

/-- The access that follows the first `off` bytes of a list of accesses. -/
def partAt : List Acc → Nat → Option Acc
  | [], _ => none
  | a :: l, off => if off == 0 then some a else if a.bytes ≤ off then partAt l (off - a.bytes) else none

/-- Bytes that a region must hold, or have free, for the access `a` of a stream access of `n` bytes of which `off` are done: all
of them where it wraps (R169, R170). -/
def Region.streamNeed (r : Region) (h : Word) (n off : Nat) (a : Acc) : Nat :=
  if off == 0 && r.size < r.pos h + n then n else a.bytes

/-- A record of `payload` bytes: its length and padding (R171). -/
def recLen (payload : Nat) : Nat := 8 + ceilDiv payload 8 * 8
def recPad (payload : Nat) : Nat := recLen payload - 8 - payload

/-- A record header (R171). -/
def recHeader (len kind pad : Nat) (seq : Word) : Bytes :=
  leBytes 8 (len + kind * 2 ^ 16 + pad * 2 ^ 20 + seq.toNat * 2 ^ 32)

/-- Placement of a record of `len` bytes at `head` where `free` bytes are free (R172): none to wait, else the bytes skipped
before it. -/
def Region.placeAt (r : Region) (head : Word) (free len : Nat) : Option Nat :=
  let e := r.size - r.pos head
  if len ≤ e then (if len ≤ free then some 0 else none)
  else if e + len ≤ free then some e else none

/-- The same at HEAD in ACLK cycle `now`. -/
def Region.place (r : Region) (now len : Nat) : Option Nat := r.placeAt r.head (r.writable now) len

/-! ### The pattern descriptor (R177) -/

def pdMode (x : Nat) : Nat := fld x 0 2
def pdCol (x : Nat) : Bool := bitOf x 2
def pdRegEn (x : Nat) : Bool := bitOf x 3
def pdRegion (x : Nat) : Nat := fld x 4 4
def pdEs (x : Nat) : Nat := 2 ^ fld x 8 2
def pdIdxW (x : Nat) : Nat := if bitOf x 10 then 32 else 16
def pdIdxDim (x : Nat) : Nat := fld x 11 3
def pdPad (x : Nat) : Nat := fld x 14 3
def pdIlv (x : Nat) : Nat := fld x 17 2
def pdIlvTok (x : Nat) : Nat := fld x 19 4
def pdBell (x : Nat) : Nat := fld x 24 6
def pdBellEn (x : Nat) : Bool := bitOf x 30
def pdStepId (x : Nat) : Nat := fld x 32 16
def pdRunLen (x : Nat) : Nat := fld x 48 10
def pdBase (x : Nat) : Nat := fld x 64 25
def pdIdxLimit (x : Nat) : Nat := fld x 96 32
def pdCount (x d : Nat) : Nat := fld x (128 + 64 * (d - 1)) 32
def pdStride (x d : Nat) : Int := signedOf 32 (fld x (160 + 64 * (d - 1)) 32)
def pdSecBase (x : Nat) : Nat := fld x 384 25
def pdSecRun (x : Nat) : Nat := fld x 416 9
def pdPeriod (x : Nat) : Nat := fld x 432 16
def pdSecRuns (x : Nat) : Nat := fld x 448 16
def pdSecTotal (x : Nat) : Nat := fld x 480 32
def pdSecWrap (x : Nat) : Nat := fld x 512 32
def pdSecStride (x : Nat) : Int := signedOf 32 (fld x 544 32)
def pdSecStride2 (x : Nat) : Int := signedOf 32 (fld x 576 32)

/-- Product of COUNT[1] to COUNT[d]. -/
def pdProd (x d : Nat) : Nat := (List.range d).foldl (fun acc i => acc * pdCount x (i + 1)) 1

/-- Runs of the pattern, and bytes of a run (R178, R179). -/
def pdRuns (x : Nat) : Nat := pdProd x 4
def pdRunBytes (x : Nat) : Nat := pdRunLen x * pdEs x

/-- An empty pattern (R185). -/
def pdEmpty (x : Nat) : Bool := pdRunLen x == 0 || pdRuns x == 0

/-- The number of iteration `d` in run `r`. -/
def pdIter (x d r : Nat) : Nat := r / max 1 (pdProd x (d - 1)) % max 1 (pdCount x d)

/-- The index that run `r` takes (R181). -/
def pdIdxOf (x r : Nat) : Nat := r / max 1 (pdProd x (pdIdxDim x - 1))

/-- Offset or address of run `r`, with the index in place of its dimension (R178). -/
def pdAddr (x r : Nat) (idx : Option Nat) : Int :=
  (List.range 4).foldl (fun (acc : Int) i =>
    let d := i + 1
    let it : Nat := match idx with
      | some v => if d == pdIdxDim x then v else pdIter x d r
      | none => pdIter x d r
    acc + (it : Int) * pdStride x d) (pdBase x : Int)

/-- Padding follows run `r` (R180). -/
def pdPads (x r : Nat) : Bool :=
  r + 1 == pdRuns x || pdPad x == 0 ||
    (1 ≤ pdPad x && pdPad x ≤ 4 && (r + 1) % max 1 (pdProd x (pdPad x)) == 0)

/-- Bytes of padding after `bytes` bytes of the stream. -/
def padBytes (bytes : Nat) : Nat := (256 - bytes % 256) % 256

/-- Primary tokens of the pattern (R180). -/
def pdPrimTokens (x : Nat) : Nat :=
  let l := pdRunBytes x
  if pdPad x == 0 then pdRuns x * ceilDiv l 256
  else if pdPad x ≤ 4 then
    let g := max 1 (pdProd x (pdPad x))
    pdRuns x / g * ceilDiv (g * l) 256
  else ceilDiv (pdRuns x * l) 256

/-- Secondary tokens of a read pattern (R182). -/
def pdSecTokens (x : Nat) : Nat :=
  if pdIlv x == 0 then 0 else pdIlvTok x * ceilDiv (pdPrimTokens x) (max 1 (pdPeriod x))

/-- Secondary tokens that go onto OUT[0] before primary token `p` (R182). -/
def pdSecBefore (x p : Nat) : Nat :=
  if pdIlv x == 0 then 0
  else if pdPrimTokens x ≤ p then pdSecTokens x
  else (p / max 1 (pdPeriod x) + (if pdIlv x == 1 then 1 else 0)) * pdIlvTok x

/-- Address of secondary run `j` (R182). -/
def pdSecAddr (x j : Nat) : Int :=
  let w := max 1 (pdSecWrap x)
  (pdSecBase x : Int) + ((j % w : Nat) : Int) * pdSecStride x + ((j / w : Nat) : Int) * pdSecStride2 x

/-- An index of all ones is null (R181). -/
def pdNull (x v : Nat) : Bool := v == 2 ^ pdIdxW x - 1

/-! ### The next thing a generator does -/

/-- What a generator can do next. -/
inductive Want where
  | nothing
  /-- A run that makes no access: zero bytes read, or bytes discarded (R181, R182). -/
  | free
  | access (a : Acc)
  | fault (code : Nat) (addr : Nat)
  deriving DecidableEq, Repr

/-- Descriptor of the running pattern. -/
def Gen.x (g : Gen) : Nat := match g.running with | some r => r.desc | none => 0

/-- The index of the next run: none where the pattern is not indexed; a token may be missing. -/
def Gen.index (g : Gen) : Option (Option Nat) :=
  let x := g.x
  if pdMode x != 1 then none
  else
    let j := pdIdxOf x g.run
    let per := 2048 / pdIdxW x
    match g.idxBuf with
    | some (n, t) => if n == j / per then some (some (t.elem (pdIdxW x) (j % per))) else some none
    | none => some none

/-- The generator needs its next index token (R176, R181). -/
def Gen.wantsIndex (g : Gen) : Bool :=
  g.running.isSome && !g.stopped && !pdEmpty g.x && g.run < pdRuns g.x && g.index == some none

/-- Accesses of a run of at most two at an exact address, each by its address and its bytes or elements (R159): `room` of
them fit the first. -/
def twoParts (a : Int) (room n step : Nat) : List (Int × Nat) :=
  let first := min n room
  if first == n then [(a, n)] else [(a, first), (a + (step * first : Nat), n - first)]

def rowParts (a : Int) (n : Nat) : List (Int × Nat) := twoParts a (512 - (a % 512).toNat) n 1
def colParts (a : Int) (n : Nat) : List (Int × Nat) := twoParts a (64 - (a / 512 % 64).toNat) n 512

/-- Exact address of a run: an offset counts from the region's base (R178). -/
def runBase (x : Nat) (region : Region) : Int := if pdRegEn x then (region.base : Int) else 0

/-- Accesses of the run at the exact address or offset `a`. -/
def runParts (x : Nat) (region : Region) (a : Int) : List (Int × Nat) :=
  if pdCol x then colParts (a + runBase x region) (pdRunLen x) else rowParts (a + runBase x region) (pdRunBytes x)

/-- Access number `part` of the run at exact address or offset `a`, checked by itself against a LINEAR region and the
scratchpad before it is requested (R157, R168, R190). -/
def runAccess (x : Nat) (region : Region) (a : Int) (part : Nat) : Want :=
  match (runParts x region a)[part]? with
  | none => .nothing
  | some (p, n) =>
    let span : Nat := if pdCol x then (n - 1) * 512 + pdEs x else n
    let off := p - runBase x region
    if pdRegEn x && (off < 0 || (region.size : Int) < off + span) then .fault 0x3001 (unsignedOf 64 off)
    else if p < 0 || (spadSize : Int) < p + span then .fault 0x3007 (unsignedOf 64 p)
    else .access { addr := p.toNat, n := n, es := if pdCol x then pdEs x else 1, col := pdCol x }

/-- The next access of the next primary run of an AFFINE or INDEXED pattern (R178 to R181). -/
def Gen.primary (g : Gen) (region : Region) : Want :=
  let x := g.x
  let go (idx : Option Nat) : Want := runAccess x region (pdAddr x g.run idx) g.part
  match g.index with
  | none => go none
  | some none => .nothing
  | some (some v) =>
    if pdNull x v then .free else if pdIdxLimit x ≤ v then .fault 0x3008 v else go (some v)

/-- The next access of a secondary run (R182, R183). -/
def Gen.secondary (g : Gen) : Want :=
  match (rowParts (pdSecAddr g.x g.secRun) (pdSecRun g.x))[g.secPart]? with
  | none => .nothing
  | some (p, n) =>
    if p < 0 || (spadSize : Int) < p + n then .fault 0x3007 (unsignedOf 64 p) else .access { addr := p.toNat, n := n }

/-- Accesses of the record that a RECORD writer places next: a SKIP header where it wraps, then the record (R172). -/
def recordAccesses (r : Region) (len skip : Nat) : List Acc :=
  let s := max 1 r.size
  let pos := r.head.toNat % s
  if skip == 0 then splitRow (r.base + pos) len
  else { addr := r.base + pos, n := 8 } :: splitRow r.base len

/-! ### Progress after an access -/

/-- Primary progress of a generator by one run (R178). -/
def Gen.nextRun (g : Gen) (pad : Nat) : Gen :=
  { g with run := g.run + 1, part := 0, bytes := g.bytes + pad, recHdr := none, skipped := false }

/-- Bytes of the stream after a run, padding included. -/
def Gen.runPad (g : Gen) (after : Nat) : Nat := if pdPads g.x g.run then padBytes after else 0

/-- Start of a pattern in the running place (R185, R187). -/
def Gen.start (g : Gen) (r : Issued) (now : Nat) : Gen :=
  { accesses := 0, running := some r, since := now, stopped := g.stopped, lastAt := g.lastAt }

/-- Issue a descriptor: none where two are held already (R187). -/
def Gen.issue (g : Gen) (r : Issued) (now : Nat) : Option Gen :=
  match g.running, g.pending with
  | none, _ => some (g.start r now)
  | some _, none => some { g with pending := some r }
  | some _, some _ => none

/-- The next pattern takes the running place. -/
def Gen.next (g : Gen) (now : Nat) : Gen :=
  match g.pending with
  | some p => g.start p now
  | none => { stopped := g.stopped, lastAt := g.lastAt }

/-- Room in the read assembly buffer, bytes in flight counted (R176). -/
def Msu.asmRoom (m : Msu) : Nat :=
  1024 - (m.asmP.length + m.asmS.length + sumNat (m.flight.map fun f => f.2.2.length))

/-- Read generator: the secondary stream is due before the next primary byte (R182). -/
def Msu.secDue (m : Msu) : Bool :=
  let g := m.rd
  g.secTok < pdSecBefore g.x (if g.run < pdRuns g.x then g.bytes / 256 else pdPrimTokens g.x)

/-- The next access of a SEQUENTIAL read and the occupancy that it needs (R169, R170, R173): the stream's part, a record's
header, or a part of the record behind it. -/
def Msu.readSeq (m : Msu) (reg : Region) : Option (Acc × Nat) :=
  let g := m.rd
  let n := pdRunBytes g.x
  if reg.mode == 1 then
    let start := reg.tail - BitVec.ofNat 32 g.secIn
    (partAt (reg.split start.toNat n) g.secIn).map fun a => (a, reg.streamNeed start n g.secIn a)
  else match g.recHdr with
    | none => some ({ addr := reg.base + reg.pos reg.tail, n := 8 }, 8)
    | some (h, _) =>
      let len := bvFld h 0 16
      (partAt (splitRow (reg.base + reg.pos reg.tail + 8) (len - 8)) g.secIn).map fun a => (a, len)

/-- A record header is one that the reader can pass over: a SKIP of a length that R171 permits (R173). -/
def skipOk (h : BitVec 64) : Bool :=
  bvFld h 16 4 == 2 && 8 ≤ bvFld h 0 16 && bvFld h 0 16 ≤ 4096 && bvFld h 0 16 % 8 == 0

/-- A record header is that of a DATA record whose payload is a run of `n` bytes (R171, R173). -/
def dataOk (h : BitVec 64) (n : Nat) : Bool :=
  let len := bvFld h 0 16
  bvFld h 16 4 == 1 && 8 ≤ len && len ≤ 4096 && len % 8 == 0 && len == 8 + n + bvFld h 20 3

/-- What a record's header in hand asks before any access of the record, none where it asks nothing: to wait until it is known,
to pass over a SKIP, or the fault of a header that the pattern cannot read (R173). -/
def Gen.hdrWant (g : Gen) (reg : Region) (now : Nat) : Option Want :=
  match g.recHdr with
  | none => none
  | some (h, known) =>
    if now < known then some .nothing
    else if skipOk h then some .free
    else if dataOk h (pdRunBytes g.x) then none
    else some (.fault 0x3009 (reg.pos reg.tail))

/-- What the read generator wants next (R169 to R173, R178 to R184). An access waits for room in the assembly buffer for its
bytes and for the padding after its run, and the first access of a secondary token for 256 B. DESIGN CHOICE, log entry 75:
R176 names the access's own bytes. -/
def Msu.readWant (m : Msu) (regs : Vector Region 16) (now : Nat) : Want :=
  let g := m.rd
  let x := g.x
  let reg := vgetN regs (pdRegion x) {}
  if g.running.isNone || g.stopped || pdEmpty x then .nothing
  else if m.secDue then
    (if pdSecTotal x ≤ g.secRun then (if 256 ≤ m.asmRoom then .free else .nothing)
     else match g.secondary with
       | .access a => if (if g.secIn == 0 && g.secPart == 0 then 256 else a.bytes) ≤ m.asmRoom then .access a else .nothing
       | w => w)
  else if pdRuns x ≤ g.run then .nothing
  else
    let room (w : Want) : Want := match w with
      | .access a => if a.bytes + g.runPad (g.bytes + a.bytes) ≤ m.asmRoom then w else .nothing
      | .free => if pdRunBytes x + g.runPad (g.bytes + pdRunBytes x) ≤ m.asmRoom then w else .nothing
      | w => w
    if pdMode x != 2 then room (g.primary reg)
    else if reg.mode == 1 && reg.size < pdRunBytes x then .fault 0x3001 (reg.pos reg.tail)
    else match (if reg.mode == 1 then none else g.hdrWant reg now) with
      | some w => w
      | none => match m.readSeq reg with
        | none => .nothing
        | some (a, need) =>
          if reg.readable now < need then .nothing
          else if reg.mode != 1 && g.recHdr.isNone then .access a
          else room (.access a)

/-- The next access of a SEQUENTIAL write and the free space that it needs (R169, R170, R172): of a record, the space of the
record and of the skip before it. -/
def Msu.writeSeq (m : Msu) (reg : Region) (now : Nat) : Option (Acc × Nat) :=
  let g := m.wr
  let n := pdRunBytes g.x
  let start := reg.head - BitVec.ofNat 32 g.secIn
  if reg.mode == 1 then (partAt (reg.split start.toNat n) g.secIn).map fun a => (a, reg.streamNeed start n g.secIn a)
  else
    let len := recLen n
    if g.secIn == 0 && !g.skipped then
      let e := reg.size - reg.pos reg.head
      let skip := if len ≤ e then 0 else e
      ((recordAccesses reg len ((reg.place now len).getD 0))[0]?).map fun a => (a, len + skip)
    else (partAt (splitRow (reg.base + reg.pos start) len) g.secIn).map fun a => (a, 0)

/-- What the write generator wants next. -/
def Msu.writeWant (m : Msu) (regs : Vector Region 16) (now : Nat) : Want :=
  let g := m.wr
  let x := g.x
  let reg := vgetN regs (pdRegion x) {}
  if g.running.isNone || g.stopped || pdEmpty x then .nothing
  else if pdIlv x == 1 && m.wsec.isSome && g.secRun < pdSecTotal x then g.secondary
  else if pdRuns x ≤ g.run then .nothing
  else
    let have_ (w : Want) : Want := match w with
      | .access a => if a.bytes ≤ m.wbuf.length then w else .nothing
      | .free => if pdRunBytes x ≤ m.wbuf.length then w else .nothing
      | w => w
    if pdMode x != 2 then have_ (g.primary reg)
    else if reg.size < (if reg.mode == 1 then pdRunBytes x else recLen (pdRunBytes x)) then .fault 0x3001 (reg.pos reg.head)
    else if reg.mode != 1 && m.wbuf.length < pdRunBytes x then .nothing
    else match m.writeSeq reg now with
      | none => .nothing
      | some (a, need) =>
        if reg.writable now < need then .nothing else if reg.mode == 1 then have_ (.access a) else .access a

/-- The generator runs a SEQUENTIAL pattern with runs left (R184). -/
def Gen.sequential (g : Gen) : Bool :=
  g.running.isSome && !g.stopped && pdMode g.x == 2 && !pdEmpty g.x && g.run < pdRuns g.x

/-- A generator waits on HEAD or TAIL of its region (R169, R187). DEDUCED, log entry 78: it does where its next access lacks the bytes or
the space there, whatever its own buffers hold (R190). -/
def Msu.readWaits (m : Msu) (regs : Vector Region 16) (now : Nat) : Bool :=
  let reg := vgetN regs (pdRegion m.rd.x) {}
  m.rd.sequential && (reg.mode == 1 || (m.rd.hdrWant reg now).isNone) && match m.readSeq reg with
    | some (_, need) => decide (reg.readable now < need)
    | none => false

def Msu.writeWaits (m : Msu) (regs : Vector Region 16) (now : Nat) : Bool :=
  let reg := vgetN regs (pdRegion m.wr.x) {}
  m.wr.sequential && match m.writeSeq reg now with
    | some (_, need) => decide (reg.writable now < need)
    | none => false

end Sys2Proof.Machine
end

