-- ==== Sys2Proof/Machine/LoftUnit.lean ====
section
/-!
DEFINITION. Loft movers and loft controllers (R191 to R215): DRAM addresses, the mover descriptor and its requests,
acceptance, merge windows, tags and write entries, error handling.
-/
namespace Sys2Proof.Machine

/-! ### DRAM addresses (R24, R191 to R196) -/

/-- Loft field and offset of a linear device address (R24). -/
def dramLoft (a : Nat) : Nat := a / 2 ^ 33
def dramOff (a : Nat) : Nat := a % 2 ^ 33

/-- An exact linear address that names memory: loft 0 to 47 (R24, R198). -/
def linearValid (a : Int) : Bool := 0 ≤ a && a < (48 * 2 ^ 33 : Nat)

def stripeCount (c : TileCtl) : Nat := bvFld c.stripeCfg 0 6
def stripeBase (c : TileCtl) : Nat := bvFld c.stripeCfg 8 22
def stripeSize (c : TileCtl) : Nat := bvFld c.stripeCfg 32 22
def stripeLoft (c : TileCtl) (j : Nat) : Nat := bvFld c.stripeList (8 * j) 6

/-- Translation of a striped offset, where it is valid (R195). -/
def striped (c : TileCtl) (s : Int) : Option Nat :=
  let n := stripeCount c
  if n == 0 || s < 0 || ((n * stripeSize c * 4096 : Nat) : Int) ≤ s then none
  else
    let s := s.toNat
    let b := s / 4096
    some (stripeLoft c (b % n) * 2 ^ 33 + (stripeBase c + b / n) * 4096 + s % 4096)

/-- Linear address of an exact DRAM address in either mode: none where it fails R24, R195 or R198. -/
def dramAddr (c : TileCtl) (isStriped : Bool) (a : Int) : Option Nat :=
  if isStriped then striped c a else if linearValid a then some a.toNat else none

/-- Channel, bank and row of a loft offset (R191). -/
def offChannel (o : Nat) : Nat := fld o 9 6
def offBank (o : Nat) : Nat := fld o 15 4
def offRow (o : Nat) : Nat := fld o 21 12

/-- One number for the row of an offset: channel, bank, row. -/
def rowKey (o : Nat) : Nat := offChannel o * 65536 + offBank o * 4096 + offRow o

/-- The bytes lie in a window granted to the paddock (R196, R438). -/
def Paddock.granted (p : Paddock) (loft off len : Nat) : Bool :=
  p.windows.any fun w => w.loft.val == loft && w.base4k * 4096 ≤ off && off + len ≤ (w.base4k + w.size4k) * 4096

/-! ### The mover descriptor (R197) -/

def mvStore (x : Nat) : Bool := bitOf x 0
def mvStriped (x : Nat) : Bool := bitOf x 1
def mvIndexed (x : Nat) : Bool := bitOf x 2
def mvIdxW (x : Nat) : Nat := if bitOf x 3 then 32 else 16
def mvRegEn (x : Nat) : Bool := bitOf x 4
def mvRegion (x : Nat) : Nat := fld x 5 4
def mvPrio (x : Nat) : Bool := bitOf x 9
def mvBell (x : Nat) : Nat := fld x 16 6
def mvBellEn (x : Nat) : Bool := bitOf x 22
def mvStepId (x : Nat) : Nat := fld x 32 16
def mvDram (x : Nat) : Nat := fld x 64 39
def mvSp (x : Nat) : Nat := fld x 128 25
def mvRowBytes (x : Nat) : Nat := fld x 160 13
def mvRows (x : Nat) : Nat := fld x 192 32
def mvDStride (x : Nat) : Int := signedOf 64 (fld x 256 64)
def mvSStride (x : Nat) : Int := signedOf 32 (fld x 320 32)
def mvIdxBase (x : Nat) : Nat := fld x 352 25
def mvIdxLimit (x : Nat) : Nat := fld x 384 32

/-- A transfer that makes no request (R198). -/
def mvEmpty (x : Nat) : Bool := mvRows x == 0 || mvRowBytes x == 0

/-- Descriptor of the running transfer. -/
def Mover.x (m : Mover) : Nat := match m.running with | some r => r.desc | none => 0

/-- Index of row `i`: `some none` while its bytes have not been read (R198). -/
def Mover.index (m : Mover) (i : Nat) : Option (Option Nat) :=
  let x := m.x
  if !mvIndexed x then none
  else
    let n := mvIdxW x / 8
    if (i + 1) * n ≤ m.idx.length then some (some (fieldAt m.idx (i * n) n)) else some none

/-- Row number that a row's address uses, `none` for a null index. -/
def mvNull (x v : Nat) : Bool := v == 2 ^ mvIdxW x - 1

/-- The transfer in the running place (R199, R200). -/
def Mover.start (m : Mover) (r : Issued) (now : Nat) : Mover :=
  let seq := m.seq + 1
  { m with
    running := some r, seq := seq, row := 0, off := 0, rdRow := 0, rdOff := 0, idx := [], outBuf := [],
    jobs := m.jobs ++ [{ issued := r, seq := seq, since := now, sent := mvEmpty r.desc }] }

/-- Issue a descriptor: none where two are held (R200). -/
def Mover.issue (m : Mover) (r : Issued) (now : Nat) : Option Mover :=
  match m.running, m.pending with
  | none, _ => let m := m.start r now; some (if mvEmpty r.desc then { m with running := none } else m)
  | some _, none => some { m with pending := some r }
  | some _, some _ => none

/-- The running transfer has issued its last request: the pending one takes its place (R199). -/
def Mover.passOn (m : Mover) (now : Nat) : Mover :=
  let m := { m with
    running := none,
    jobs := m.jobs.map fun (j : MvJob) => if j.seq == m.seq then { j with sent := true } else j }
  match m.pending with
  | some p => { m with pending := none }.start p now
  | none => m

/-- The running place is left once nothing remains to issue. -/
def Mover.settle (m : Mover) (now : Nat) : Mover :=
  let m := if m.running.isSome && mvRows m.x ≤ m.row then m.passOn now else m
  if m.running.isSome && mvEmpty m.x then m.passOn now else m

/-- Change the job of a number. -/
def Mover.modJob (m : Mover) (seq : Nat) (f : MvJob → MvJob) : Mover :=
  { m with jobs := m.jobs.map fun (j : MvJob) => if j.seq == seq then f j else j }

/-- What a mover does at a request issue. -/
inductive MvStep where
  | nothing
  /-- Bytes of a null row (R198): `n` zero bytes written by a LOAD at `sp`, nothing by a STORE. -/
  | nullRow (sp n : Nat)
  | request (linear len sp : Nat)
  | fault (code addr : Nat)
  deriving DecidableEq, Repr

/-- Scratchpad address of row `i`, byte `o`, for `n` bytes, or the fault of its place (R168, R198, R215). For a STREAM region
that is smaller than the access, the event names the offset at which the access would begin (R190). -/
def mvScratch (x : Nat) (reg : Region) (i o n : Nat) : Except (Nat × Nat) Nat :=
  let a : Int := (mvSp x : Int) + (i : Int) * mvSStride x + o
  if mvRegEn x && reg.mode == 1 then
    (if reg.size < n then .error (0x3001, reg.pos (if mvStore x then reg.tail else reg.head)) else .ok 0)
  else if mvRegEn x && (a < 0 || (reg.size : Int) < a + n) then .error (0x3001, unsignedOf 64 a)
  else
    let abs := if mvRegEn x then a + reg.base else a
    if abs < 0 || (spadSize : Int) < abs + n then .error (0x3007, unsignedOf 64 abs) else .ok abs.toNat

/-- The next DRAM request of a mover (R198, R199). The fault of an index at or above IDX_LIMIT names the entry's scratchpad address
(R215). -/
def Mover.next (m : Mover) (c : TileCtl) (reg : Region) : MvStep :=
  let x := m.x
  if m.running.isNone || m.stopped || mvEmpty x || mvRows x ≤ m.row then .nothing
  else
    let go (v : Nat) : MvStep :=
      let a : Int := (mvDram x : Int) + (v : Int) * mvDStride x + m.off
      match dramAddr c (mvStriped x) a with
      | none => .fault 0x3005 (unsignedOf 64 a)
      | some lin =>
        let len := min (512 - lin % 512) (mvRowBytes x - m.off)
        match mvScratch x reg m.row m.off len with
        | .error (code, ad) => .fault code ad
        | .ok sp => .request lin len sp
    match m.index m.row with
    | none => go m.row
    | some none => .nothing
    | some (some v) =>
      if mvNull x v then
        (if mvStore x then .nullRow 0 (mvRowBytes x - m.off)
         else match mvScratch x reg m.row m.off 1 with
           | .error (c, a) => .fault c a
           | .ok sp =>
             let len := min (512 - (if mvRegEn x && reg.mode == 1 then m.off else sp) % 512) (mvRowBytes x - m.off)
             match mvScratch x reg m.row m.off len with
             | .error (c, a) => .fault c a
             | .ok sp => .nullRow sp len)
      else if mvIdxLimit x ≤ v then .fault 0x3008 (mvIdxBase x + m.row * (mvIdxW x / 8)) else go v

/-- Progress by `len` bytes of the row. -/
def Mover.advance (m : Mover) (len now : Nat) : Mover :=
  let x := m.x
  let m := if m.off + len < mvRowBytes x then { m with off := m.off + len } else { m with row := m.row + 1, off := 0 }
  m.settle now

/-- The STORE's request that byte (`rdRow`, `rdOff`) belongs to, for a row of number `v` in the DRAM: how much of it has been read,
and its length. It begins at the row's start or at a 512-byte boundary of the linear address, which striping keeps (R195,
R199). -/
def Mover.storeReq (m : Mover) (v : Nat) : Nat × Nat :=
  let x := m.x
  let a : Int := (mvDram x : Int) + (v : Int) * mvDStride x + m.rdOff
  let done := min m.rdOff (a % 512).toNat
  (done, min (512 - ((a - done) % 512).toNat) (mvRowBytes x - (m.rdOff - done)))

/-- The next scratchpad access of a STORE's row of DRAM number `v`: a part of one request (R199), of a STREAM region both parts
of a wrap together (R170), while the outbound buffer has room. -/
def Mover.storeWant (m : Mover) (reg : Region) (v now : Nat) : Want :=
  let x := m.x
  let (done, len) := m.storeReq v
  let room (a : Acc) : Want := if 4096 < m.outBuf.length + a.bytes then .nothing else .access a
  if mvRegEn x && reg.mode == 1 then
    let start := reg.tail - BitVec.ofNat 32 done
    if reg.size < len then .nothing
    else match partAt (reg.split start.toNat len) done with
      | some a => if reg.readable now < reg.streamNeed start len done a then .nothing else room a
      | none => .nothing
  else match mvScratch x reg m.rdRow m.rdOff 1 with
    | .error _ => .nothing
    | .ok sp =>
      let n := min (len - done) (512 - sp % 512)
      match mvScratch x reg m.rdRow m.rdOff n with
      | .error _ => .nothing
      | .ok sp => room { addr := sp, n := n }

/-- What the mover wants of the scratchpad's read port: its index list, then a STORE's next bytes (R198, R199). A row
that breaks a rule of its addresses waits: the request issue raises the fault in its turn, after the earlier requests
have been issued (R215). -/
def Mover.readWant (m : Mover) (c : TileCtl) (reg : Region) (now : Nat) : Want :=
  let x := m.x
  if m.running.isNone || m.stopped || mvEmpty x then .nothing
  else
    let n := mvIdxW x / 8
    let needRow := if mvStore x then m.rdRow else m.row
    if mvIndexed x && needRow < mvRows x && m.idx.length < (needRow + 1) * n then
      let a := mvIdxBase x + m.idx.length
      let len := min (512 - a % 512) (mvRows x * n - m.idx.length)
      if spadSize < a + len then .fault 0x3007 a else .access { addr := a, n := len }
    else if !mvStore x || mvRows x ≤ m.rdRow then .nothing
    else
      let go (v : Nat) : Want :=
        match dramAddr c (mvStriped x) ((mvDram x : Int) + (v : Int) * mvDStride x + m.rdOff) with
        | none => .nothing
        | some _ => m.storeWant reg v now
      match m.index m.rdRow with
      | none => go m.rdRow
      | some none => .nothing
      | some (some v) => if mvNull x v then .free else if mvIdxLimit x ≤ v then .nothing else go v

/-- The next bytes of a STORE's row of DRAM number `v` wait for HEAD of their region (R169). -/
def Mover.storeWaits (m : Mover) (reg : Region) (v now : Nat) : Bool :=
  let (done, len) := m.storeReq v
  let start := reg.tail - BitVec.ofNat 32 done
  decide (len ≤ reg.size) && match partAt (reg.split start.toNat len) done with
    | some a => decide (m.outBuf.length + a.bytes ≤ 4096) && decide (reg.readable now < reg.streamNeed start len done a)
    | none => false

/-- Bytes arrived on the read port for the mover. -/
def Mover.readDone (m : Mover) (bytes : Bytes) : Mover :=
  let x := m.x
  let n := mvIdxW x / 8
  let needRow := if mvStore x then m.rdRow else m.row
  if mvIndexed x && needRow < mvRows x && m.idx.length < (needRow + 1) * n then { m with idx := m.idx ++ bytes }
  else
    let o := m.rdOff + bytes.length
    let m := { m with outBuf := m.outBuf ++ bytes }
    if o < mvRowBytes x then { m with rdOff := o } else { m with rdRow := m.rdRow + 1, rdOff := 0 }

/-- The inbound write that the mover presents next: the oldest, in stream order at HEAD. -/
def Mover.inNext (m : Mover) : Option InWrite :=
  m.inBuf.find? fun w => w.region.isNone || w.at_ == m.strDone

/-- The next inbound write waits for TAIL of its region (R169). -/
def Mover.loadWaits (m : Mover) (regs : Vector Region 16) (now : Nat) : Bool :=
  match m.inNext with
  | some { region := some r, bytes := bs, .. } =>
    let reg := vgetN regs r {}
    match (reg.split reg.head.toNat bs.length)[0]? with
    | some a => decide (reg.writable now < reg.streamNeed reg.head bs.length 0 a)
    | none => false
  | _ => false

/-- A mover waits on HEAD or TAIL of a STREAM region (R200). -/
def Mover.waits (m : Mover) (regs : Vector Region 16) (now : Nat) : Bool :=
  let x := m.x
  let reg := vgetN regs (mvRegion x) {}
  m.loadWaits regs now ||
    (m.running.isSome && !m.stopped && !mvEmpty x && mvStore x && mvRegEn x && reg.mode == 1 && m.rdRow < mvRows x &&
      match m.index m.rdRow with
      | none => m.storeWaits reg m.rdRow now
      | some (some v) => !mvNull x v && v < mvIdxLimit x && m.storeWaits reg v now
      | some none => false)

/-- What the mover wants of the scratchpad's write port (R169, R170, R198, R200). -/
def Mover.writeWant (m : Mover) (regs : Vector Region 16) (now : Nat) : Want :=
  match m.inNext with
  | none => .nothing
  | some w =>
    match w.region with
    | none => .access { addr := w.at_, n := min w.bytes.length (512 - w.at_ % 512) }
    | some r =>
      let reg := vgetN regs r {}
      match (reg.split reg.head.toNat w.bytes.length)[0]? with
      | some a => if reg.writable now < reg.streamNeed reg.head w.bytes.length 0 a then .nothing else .access a
      | none => .nothing

/-- The write that `writeWant` chose met an uncorrectable word and does not take place (R161). -/
def Mover.writeDrop (m : Mover) : Mover :=
  match m.inNext with
  | none => m
  | some w => { m with inBuf := eraseFirst (fun v => v == w) m.inBuf }

/-- `n` bytes of the write that `writeWant` chose have been granted. -/
def Mover.writeDone (m : Mover) (n : Nat) : Mover :=
  match m.inNext with
  | none => m
  | some w =>
    let rest : InWrite := { w with at_ := w.at_ + n, bytes := w.bytes.drop n }
    let p (v : InWrite) : Bool := v == w
    let m := { m with
      inBuf := if rest.bytes.isEmpty then eraseFirst p m.inBuf else replaceFirst p (fun _ => rest) m.inBuf,
      strDone := if w.region.isSome then m.strDone + n else m.strDone }
    m.modJob w.seq fun j => { j with outstanding := j.outstanding - n }

/-- A transfer that has completed (R198, R200): every request sent and nothing outstanding. -/
def Mover.finished (m : Mover) (now : Nat) : Option MvJob :=
  m.jobs.find? fun j => j.sent && j.outstanding == 0 && (!mvEmpty j.issued.desc || j.since < now)

/-- The completion record of a transfer (R200). -/
def mvRecord (j : MvJob) : BitVec 64 :=
  let x := j.issued.desc
  BitVec.ofNat 64 (mvStepId x + (if mvStore x then 2 ^ 16 else 0) + 2 ^ 17 + min j.units (2 ^ 32 - 1) * 2 ^ 32)

/-! ### The loft controller (R201 to R214) -/

/-- The block of an offset. -/
def offBlock (o : Nat) : Nat := o / 512

/-- 64-byte units that a request covers, by number within the loft. -/
def LoftReq.units (r : LoftReq) : List Nat :=
  (List.range (ceilDiv r.len 64)).map fun i => dramOff r.addr / 64 + i

/-- A merge window is open in NCLK cycle `now` (R203). -/
def windowOpen (o : Option Nat) (now : Nat) : Bool := match o with | some t => now < t | none => false

/-- Close the open windows on a block, of reads, of writes, or both (R203). -/
def Loft.closeReads (l : Loft) (b : Nat) : Loft :=
  { l with tags := l.tags.map fun t => if t.block == b then { t with openUntil := none } else t }
def Loft.closeWrites (l : Loft) (b : Nat) : Loft :=
  { l with writes := l.writes.map fun w => if w.block == b then { w with openUntil := none } else w }

/-- The bytes of a block that a tag's requests cover make up the whole block (R203). -/
def coversBlock (us : List Nat) : Bool := 8 ≤ us.dedup.length

/-- Accept a read: join an open window, or take a tag (R202, R203). A 512-byte request opens no window and closes those of its
block. None where no tag is free. -/
def Loft.acceptRead (l : Loft) (r : LoftReq) (now : Nat) : Option Loft :=
  let b := offBlock (dramOff r.addr)
  let l := l.closeWrites b
  let small := r.len < 512
  match (if small then l.tags.find? fun t => t.block == b && windowOpen t.openUntil now else none) with
  | some t =>
    let t' := { t with reqs := t.reqs ++ [{ r with merged := true }] }
    let t' := if coversBlock (t'.reqs.flatMap LoftReq.units) then { t' with openUntil := none } else t'
    some { l with tags := replaceFirst (fun u => u == t) (fun _ => t') l.tags, merged := l.merged.inc now }
  | none =>
    let l := if small then l else l.closeReads b
    if l.tags.length < 1024 then
      some { l with tags := l.tags ++ [{ block := b, openUntil := if small then some (now + 16) else none,
                                         reqs := [r], accepted := now }] }
    else none

/-- Accept a write (R202, R203). None where no entry is free. -/
def Loft.acceptWrite (l : Loft) (off len now : Nat) : Option Loft :=
  let b := offBlock off
  let us := (List.range (ceilDiv len 64)).map fun i => off / 64 + i
  let l := l.closeReads b
  let small := len < 512
  match (if small then l.writes.find? fun w => w.block == b && windowOpen w.openUntil now else none) with
  | some w =>
    let all := w.units ++ us
    let w' := { w with units := all, openUntil := if coversBlock all then none else w.openUntil }
    some { l with writes := replaceFirst (fun u => u == w) (fun _ => w') l.writes, merged := l.merged.inc now }
  | none =>
    let l := if small then l else l.closeWrites b
    if l.writes.length < 256 then
      some { l with writes := l.writes ++
        [{ block := b, openUntil := if small then some (now + 16) else none, units := us }] }
    else none

/-- A request of the fabric or of the carillon on a block of the loft: it joins an open window of its kind, a 512-byte one closes
it, and windows of the other kind close (R203). -/
def Loft.touch (l : Loft) (write : Bool) (off len now : Nat) : Loft :=
  let b := offBlock off
  let l := if write then l.closeReads b else l.closeWrites b
  let open_ := if write then l.writes.any fun w => w.block == b && windowOpen w.openUntil now
               else l.tags.any fun t => t.block == b && windowOpen t.openUntil now
  if len < 512 then (if open_ then { l with merged := l.merged.inc now } else l)
  else if write then l.closeWrites b else l.closeReads b

/-- An indivisible read and write, of a claim word, an atomic or a reduce, is a request of both kinds: the open windows on its block
close (R203, R205). -/
def Loft.touchBoth (l : Loft) (off : Nat) : Loft := (l.closeReads (offBlock off)).closeWrites (offBlock off)

/-- Codewords that lie in part, or whole, in `n` bytes at an offset (R192). -/
def wordsIn (off n : Nat) : List Nat :=
  if n == 0 then [] else (List.range ((off + n - 1) / 16 - off / 16 + 1)).map fun i => off / 16 + i
def wordsOf (off n : Nat) : List Nat := (wordsIn off n).filter fun u => off ≤ 16 * u && 16 * u + 16 ≤ off + n

/-- Bytes of a loft change by `f` at `n` bytes from an offset: in the DRAM, and in each block that a read-and-zero may yet have
to leave as it was (R286). Codewords that it covers whole lose their uncorrectable mark, and the reads performed before it
keep what they found (R192, R205, R486). A channel whose path failed discards the write (R497). -/
def Loft.update (l : Loft) (off n now : Nat) (f : Mem → Mem) : Loft :=
  if l.deadChans.contains (offChannel off) then { l with ue := l.ue.inc now }
  else
    let whole := wordsOf off n
    { l with
      mem := f l.mem,
      badWords := l.badWords.filter fun u => !whole.contains u,
      tags := l.tags.map fun t =>
        if t.block == offBlock off then
          { t with redone := t.redone ++ whole, reqs := t.reqs.map fun r => { r with shadow := r.shadow.map f } }
        else t }

/-- Bytes written to the DRAM at an offset. -/
def Loft.store (l : Loft) (off : Nat) (bs : Bytes) (now : Nat) : Loft :=
  l.update off bs.length now fun m => m.writeN off bs

/-- Codewords of a range that are uncorrectable, all of them in a channel whose path failed (R212, R497). -/
def Loft.badOf (l : Loft) (off len : Nat) : List Nat :=
  if l.deadChans.contains (offChannel off) then wordsIn off len else (wordsIn off len).filter l.badWords.contains

/-- The 64-byte unit of a range that holds an uncorrectable codeword. -/
def Loft.badIn (l : Loft) (off len : Nat) : Option Nat := ((l.badOf off len).head?).map (· / 4)

/-- A corrected codeword at an offset is counted and recorded (R212, R495). -/
def Loft.corrected (l : Loft) (site off now : Nat) : Loft :=
  { l with ce := l.ce.inc now, ceAddr := BitVec.ofNat 64 (site * 2 ^ 33 + off / 64 * 64),
           ceHist := (rowKey off, off / 16, now) :: l.ceHist.filter fun x => now < x.2.2 + day }

/-- An uncorrectable codeword found at an offset is counted and recorded (R213, R214, R495). -/
def Loft.foundBad (l : Loft) (off now : Nat) : Loft :=
  { l with ue := l.ue.inc now, ueHist := (rowKey off, now) :: l.ueHist }

/-- An uncorrectable codeword at an offset is found, and stays until a write covers it. -/
def Loft.uncorrectable (l : Loft) (off now : Nat) : Loft :=
  { l.foundBad off now with badWords := insertNat (off / 16) l.badWords }

/-- What the code finds of the codeword at an offset, at a read made at once (R211 to R213): counts, and the data where
three or more bad symbols are corrected to other data, or pass. -/
def Dev.dramCode (d : Dev) (l : SiteId) (off : Nat) (ecc : DramEcc) : Dev :=
  let other (d : Dev) : Dev :=
    { d with freeCtr := d.freeCtr + 1 }.modLoft l fun lo =>
      { lo with mem := lo.mem.writeN (off / 16 * 16) (padTo 16 (Config.passedData d.freeCtr)) }
  if ((d.loft l).badOf off 1) != [] then d.modLoft l fun lo => lo.foundBad off d.now
  else match ecc with
    | .clean => d
    | .corrected => d.modLoft l fun lo => lo.corrected l.val off d.now
    | .uncorrectable => d.modLoft l fun lo => lo.uncorrectable off d.now
    | .miscorrected => (other d).modLoft l fun lo => lo.corrected l.val off d.now
    | .passed => other d

/-- A request that a controller turns to its requester: the place of the fault (R196, R212). -/
def Requester.site : Requester → SiteId × MsuId
  | .mover s m _ => (s, m)
  | .update s m _ => (s, m)

/-- The context whose descriptor made a request, and what the fault event names of it: STEP_ID, and of an update GROUP (R215,
R286). -/
def Dev.requesterCtx (d : Dev) (r : Requester) : CtxId × List Nat :=
  match r with
  | .mover s m seq => match (d.msu s m).mv.jobs.find? fun j => j.seq == seq with
    | some j => (j.issued.ctx, [mvStepId j.issued.desc])
    | none => (0, [0])
  | .update s m seq => match (d.msu s m).upd.jobs.find? fun j => j.seq == seq with
    | some j => (j.issued.ctx, [fld j.issued.desc 32 16, fld j.issued.desc 48 8])
    | none => (0, [0, 0])

/-- Stop the engine that made a request and raise its fault in the issuing context. A mover's read that ends so is in flight no
longer (R199, R200). -/
def Dev.faultRequester (d : Dev) (r : Requester) (read : Bool) (code addr area : Nat) : Dev :=
  let (s, m) := r.site
  let (c, names) := d.requesterCtx r
  let d := match r with
    | .mover .. => d.modMsu s m fun u => { u with mv := { u.mv with
        stopped := true, inFlight := if read then u.mv.inFlight - 1 else u.mv.inFlight } }
    | .update .. => d.modMsu s m fun u => { u with upd := { u.upd with stopped := true } }
  d.ctxFault s c { code := code, unit := some (msuUnit m).val, addr := addr, area := area, extra := names }

/-- Send a request to a loft: the own one over the direct path, any other through the router (R201). -/
def Dev.toLoft (d : Dev) (s : SiteId) (prio : Bool) (r : LoftReq) : Dev :=
  match finOf 48 (dramLoft r.addr) with
  | none => d
  | some l =>
    if l == s then d.modLoft l fun lo => { lo with direct := lo.direct ++ [{ r with arrive := d.now + 4, issued := d.now }] }
    else d.launch
      { at_ := s, dests := [l], loftEp := true, vc := 0, prio := prio, src := s.val,
        flits := if r.write then loftFlits r.len else 1, paddock := finOf 16 r.pad,
        body := .loft { r with issued := d.now, prio := prio } }

/-- A loft's answer to another site: it enters its router at LOFT, with the priority of the request (R315, R318). -/
def Dev.loftAnswer (d : Dev) (l dst : SiteId) (vc : Fin 4) (prio : Bool) (pad : Option PadId) (n : Nat) (body : MeshMsg) : Dev :=
  d.launch { at_ := l, dests := [dst], vc := vc, prio := prio, src := l.val, flits := loftFlits n, paddock := pad,
             inPort := 5, body := body }

/-- A request of the site to loft `l` has room on its way: nothing of the MSU's that has reached the own controller waits there,
and its flits fit the router's buffer at the TILE port (R202, R318). -/
def Dev.loftRoom (d : Dev) (s : SiteId) (m : MsuId) (l flits : Nat) (prio : Bool) : Bool :=
  if l == s.val then (match finOf 48 l with
    | some f => !(d.loft f).direct.any fun r => r.who.site.2 == m && r.arrive < d.now
    | none => true)
  else d.bufFlits s 4 0 prio + flits ≤ 8

end Sys2Proof.Machine
end

