-- ==== Sys2Proof/Machine/UpdUnit.lean ====
section
/-!
DEFINITION. The update path of an MSU (R269 to R286): the update descriptor, the schedule table, the arithmetic of a
record, and the walk over sign chunks and record blocks. The walk has one read out at a time.
-/
namespace Sys2Proof.Machine

/-! ### The update descriptor (R273) -/

def udSweep (x : Nat) : Bool := fld x 0 2 == 1
def udLoc (x : Nat) : Bool := bitOf x 2
def udStriped (x : Nat) : Bool := bitOf x 3
def udTally (x : Nat) : Bool := bitOf x 4
def udClear (x : Nat) : Bool := bitOf x 5
def udVote (x : Nat) : Bool := bitOf x 6
def udBell (x : Nat) : Nat := fld x 16 6
def udBellEn (x : Nat) : Bool := bitOf x 22
def udStepId (x : Nat) : Nat := fld x 32 16
def udGroup (x : Nat) : Nat := fld x 48 8
def udStep (x : Nat) : Nat := fld x 64 32
def udBlocks (x : Nat) : Nat := fld x 96 32
def udRecBase (x : Nat) : Nat := fld x 128 39
def udSignBase (x : Nat) : Nat := fld x 192 39
def udVoteBase (x : Nat) : Nat := fld x 256 39
def udSched (x : Nat) : Nat := fld x 320 39
def udIndex0 (x : Nat) : Nat := fld x 384 32

/-- Sign bytes of a record block (R270), and of all blocks in whole 64-byte units (R274). -/
def udSignLen (x : Nat) : Nat := if udTally x then 128 else 32
def udSignTotal (x : Nat) : Nat := if udSweep x then 0 else ceilDiv (udBlocks x * udSignLen x) 64 * 64

/-! ### FP32 arithmetic under RNE (R277, R550) -/

/-- An FP32 result and the flags so far: an intermediate raises INF and FLUSHED and no other flag (R277). -/
def updEnc (v : Val) : Nat × AFlags :=
  let (b, f) := encodeFloat 8 .rne false 0 v
  (b, f &&& (AFlags.inf ||| AFlags.flushed))

def f32add (a b : Nat) : Nat × AFlags := updEnc (Val.add (decodeEl 8 a) (decodeEl 8 b))
def f32sub (a b : Nat) : Nat × AFlags := updEnc (Val.add (decodeEl 8 a) (decodeEl 8 b).neg)
def f32mul (a b : Nat) : Nat × AFlags := updEnc (Val.mul (decodeEl 8 a) (decodeEl 8 b))
def f32ofInt (v : Int) : Nat × AFlags := updEnc (.ofInt v)

/-- Quotient of two finite values, the divisor not zero: a magnitude with a sticky bit below every rounding place. -/
def divVal (a b : Val) : Val :=
  match a, b with
  | .fin s m e, .fin t n f =>
    if n == 0 then .nan
    else
      let k := 64 + Nat.log2 n
      let q := m * 2 ^ k / n
      let sticky := if q * n == m * 2 ^ k then 0 else 1
      .fin (s != t) (2 * q + sticky) (e - f - (k : Int) - 1)
  | _, _ => .nan

def f32div (a b : Nat) : Nat × AFlags := updEnc (divVal (decodeEl 8 a) (decodeEl 8 b))

/-- FP32 one. -/
def f32one : Nat := 0x3F800000

/-- x^n by binary exponentiation from the least significant bit of n (R276). -/
def f32pow : Nat → Nat → Nat → Nat → AFlags → Nat × AFlags
  | 0, _, _, acc, fl => (acc, fl)
  | fuel + 1, x, n, acc, fl =>
    let (acc, f1) := if n % 2 == 1 then f32mul acc x else (acc, 0#8)
    if n / 2 == 0 then (acc, fl ||| f1)
    else
      let (x, f2) := f32mul x x
      f32pow fuel x (n / 2) acc (fl ||| f1 ||| f2)

/-! ### The schedule table (R282 to R284) -/

/-- STEP, LR, WD, BETA1, BETA2 of breakpoint `j` of a curve. -/
def bpStep (c : Bytes) (j : Nat) : Nat := fieldAt c (32 * j) 4
def bpField (c : Bytes) (j k : Nat) : Nat := fieldAt c (32 * j + 4 + 4 * k) 4

/-- The group entry passes R284; the answer is COUNT. -/
def groupCount (e : Bytes) : Option Nat :=
  let w := fieldAt e 0 16
  let n := fld w 0 6
  if n == 0 || 32 < n || fld w 7 25 != 0 || fld w 64 64 != 0 then none else some n

/-- A value of the curve is a number in its range (R284): LR and WD at least 0, BETA1 and BETA2 from 0 to 1. -/
def bpValid (k v : Nat) : Bool :=
  match decodeEl 8 v with
  | .fin s m e => !(s && m != 0) && (k < 2 || !(magGt m e 1 0))
  | _ => false

/-- The breakpoints pass R284. -/
def curveValid (c : Bytes) (n : Nat) : Bool :=
  (List.range n).all fun j =>
    (List.range 4).all (fun k => bpValid k (bpField c j k)) && fieldAt c (32 * j + 20) 12 == 0 &&
      (j == 0 || bpStep c (j - 1) < bpStep c j)

/-- A value of the curve at step t (R283), with the flags of its intermediates (R277). -/
def curveAt (c : Bytes) (n t k : Nat) : Nat × AFlags :=
  if t < bpStep c 0 then (bpField c 0 k, 0#8)
  else if bpStep c (n - 1) ≤ t then (bpField c (n - 1) k, 0#8)
  else
    let j := ((List.range (n - 1)).find? fun j => bpStep c j ≤ t && t < bpStep c (j + 1)).getD 0
    let a := bpField c j k
    let (span, f1) := f32sub (bpField c (j + 1) k) a
    let (part, f2) := f32div (f32ofInt ((t : Int) - bpStep c j)).1 (f32ofInt ((bpStep c (j + 1) : Int) - bpStep c j)).1
    let (step, f3) := f32mul span part
    let (v, f4) := f32add a step
    (v, f1 ||| f2 ||| f3 ||| f4)

/-! ### One record (R269, R276 to R280) -/

/-- The 16-bit value of R278 for record index `i` at step `t`. -/
def updRandom (seed t i : Nat) : Nat :=
  let x : Word := BitVec.ofNat 32 seed ^^^ (BitVec.ofNat 32 t * 0x9E3779B9#32) ^^^ (BitVec.ofNat 32 i * 0x85EBCA6B#32)
  let x := (x ^^^ (x >>> 16)) * 0x7FEB352D#32
  let x := (x ^^^ (x >>> 15)) * 0x846CA68B#32
  let x := x ^^^ (x >>> 16)
  x.toNat % 65536

/-- M read and written (R269): −128 reads as −127. -/
def readMoment (b : Nat) : Int := max (-127) (signedOf 8 b)

/-- M of an FP32 moment: 127 m rounded to an integer, clamped (R277). -/
def writeMoment (m : Nat) : Nat :=
  match decodeEl 8 m with
  | .fin s n e =>
    let r : Int := roundTo .rne 0 (127 * n) e 0
    unsignedOf 8 (max (-127) (min 127 (if s then -r else r)))
  | _ => 0

/-- P of an FP32 parameter under the group's mode (R277, R278), with its flags. -/
def writeParam (v : UpdVals) (t i p : Nat) : Nat × AFlags :=
  encodeFloat 6 (if v.stoch then .stoch else .rne) true (updRandom v.seed t i) (decodeEl 8 p)

/-- FP32 sign of a value; sign(0) = 0. -/
def f32sign (c : Nat) : Nat :=
  match decodeEl 8 c with
  | .fin _ 0 _ => 0
  | .fin s _ _ => if s then 0xBF800000 else f32one
  | .inf s => if s then 0xBF800000 else f32one
  | .nan => 0

/-- A record after an update with vote `s` (R276, R277) or, with none, after a sweep (R280): the record, whether it
stood at g = 0, and its flags. DESIGN CHOICE, log entry 79: a record at g = 0 is written back as it stands, an M of −128 too (R269,
R276). -/
def updRecord (v : UpdVals) (t i : Nat) (vote : Option Int) (r : Nat) : Nat × Bool × AFlags :=
  let g := (t + 256 - r % 256) % 256
  let mom := readMoment (r / 256 % 256)
  let p0 := r / 65536 % 65536 * 65536
  let nanIn := AFlags.when (decodeEl 8 p0).isNan AFlags.nan
  if g == 0 then (r, true, 0#8)
  else
    let (m0, f0) := f32div (f32ofInt mom).1 (f32ofInt 127).1
    let (p1, m1, f1) :=
      if g == 1 then (p0, m0, 0#8)
      else
        let (lw, a) := f32mul v.lr v.wd
        let (base, b) := f32sub f32one lw
        let (dp, c) := f32pow 9 base (g - 1) f32one 0#8
        let (dm, e) := f32pow 9 v.b2 (g - 1) f32one 0#8
        let (p, h) := f32mul p0 dp
        let (m, k) := f32mul m0 dm
        (p, m, a ||| b ||| c ||| e ||| h ||| k)
    match vote with
    | none =>
      let lo := (t + 255) % 256
      if g == 1 then (p0 + unsignedOf 8 mom * 256 + lo, false, 0#8)
      else
        let (pw, fw) := writeParam v t i p1
        (pw * 65536 + writeMoment m1 * 256 + lo, false, f0 ||| f1 ||| fw ||| nanIn)
    | some s =>
      let (sf, _) := f32ofInt s
      let (c1, a) := f32mul v.b1 m1
      let (c2, b) := f32sub f32one v.b1
      let (c3, c) := f32mul c2 sf
      let (cc, d) := f32add c1 c3
      let (q1, e) := f32mul v.wd p1
      let (q, h) := f32add (f32sign cc) q1
      let (l, k) := f32mul v.lr q
      let (p, o) := f32sub p1 l
      let (m2, w) := f32mul v.b2 m1
      let (m3, x) := f32sub f32one v.b2
      let (m4, y) := f32mul m3 sf
      let (m, z) := f32add m2 m4
      let (pw, fw) := writeParam v t i p
      (pw * 65536 + writeMoment m * 256 + t % 256, false,
        f0 ||| f1 ||| a ||| b ||| c ||| d ||| e ||| h ||| k ||| o ||| w ||| x ||| y ||| z ||| fw ||| nanIn)

/-! ### Votes and blocks -/

/-- Vote `j` of a block's sign bytes (R270). -/
def voteOf (x : Nat) (sign : Bytes) (j : Nat) : Int :=
  if udTally x then
    let v := signedOf 8 (fieldAt sign j 1)
    if 0 < v then 1 else if v < 0 then -1 else 0
  else match fieldAt sign (j / 4) 1 / 2 ^ (2 * (j % 4)) % 4 with
    | 1 => 1
    | 3 => -1
    | _ => 0

/-- Every vote of the block is zero. -/
def votesZero (x : Nat) (sign : Bytes) : Bool := (List.range 128).all fun j => voteOf x sign j == 0

/-- The 32 bytes of a block's votes in TERN2. -/
def voteBytes (x : Nat) (sign : Bytes) : Bytes :=
  (List.range 32).map fun i => BitVec.ofNat 8 (sumNat ((List.range 4).map fun k =>
    (match voteOf x sign (4 * i + k) with | 1 => 1 | -1 => 3 | _ => 0) * 4 ^ k))

/-- The 128 records of block `b` after the descriptor's operation: bytes, records left at g = 0, flags. -/
def updBlock (v : UpdVals) (x b : Nat) (sign rec_ : Bytes) : Bytes × Nat × AFlags :=
  (List.range 128).foldl (fun (acc : Bytes × Nat × AFlags) j =>
    let i := (udIndex0 x + 128 * b + j) % 2 ^ 32
    let vote := if udSweep x then none else some (voteOf x sign j)
    let (r, same, f) := updRecord v (udStep x) i vote (fieldAt rec_ (4 * j) 4)
    (acc.1 ++ leBytes 4 r, acc.2.1 + (if same then 1 else 0), acc.2.2 ||| f)) ([], 0, 0#8)

/-! ### The walk (R275) -/

/-- What the update path does next. -/
inductive UpdWant where
  | nothing
  | read (linear len : Nat) (clear : Bool)
  | write (linear : Nat) (data : Bytes)
  | spRead (addr len : Nat)
  | spWrite (addr : Nat) (data : Bytes)
  | fault (code addr : Nat)
  deriving DecidableEq, Repr

/-- Descriptor of the running update. -/
def Upd.x (u : Upd) : Nat := match u.running with | some r => r.desc | none => 0

/-- Sign bytes of the next block. -/
def Upd.sign (u : Upd) : Bytes := u.carry.take (udSignLen u.x)

/-- Bytes of the curve that are read: COUNT breakpoints in whole 64-byte units. -/
def Upd.curveLen (u : Upd) : Nat := ceilDiv (32 * u.count) 64 * 64

/-- Put a descriptor into the running place (R274). -/
def Upd.start (u : Upd) (r : Issued) (now : Nat) : Upd :=
  let seq := u.seq + 1
  let empty := udBlocks r.desc == 0
  { u with
    running := some r, seq := seq, stage := if empty then .finish else .group, asked := false, buf := [], count := 0,
    signOff := 0, carry := [], block := 0, outBlock := [], votes := [], voteOff := 0,
    jobs := u.jobs ++ [{ issued := r, seq := seq, since := now, sent := empty }] }

/-- The same, and an empty descriptor leaves the running place at once: it has no request to issue (R199, R274). -/
def Upd.place (u : Upd) (r : Issued) (now : Nat) : Upd :=
  let u := u.start r now
  if u.stage == .finish then { u with running := none, stage := .idle } else u

/-- Issue a descriptor: none where two are held (R274). -/
def Upd.issue (u : Upd) (r : Issued) (now : Nat) : Option Upd :=
  match u.running, u.pending with
  | none, _ => some (u.place r now)
  | some _, none => some { u with pending := some r }
  | some _, some _ => none

/-- Change the job of a number. -/
def Upd.modJob (u : Upd) (seq : Nat) (f : MvJob → MvJob) : Upd :=
  { u with jobs := u.jobs.map fun (j : MvJob) => if j.seq == seq then f j else j }

/-- The block's votes join the vote buffer, and its sign bytes are used up. -/
def Upd.nextBlock (u : Upd) : Upd :=
  { u with
    block := u.block + 1, carry := u.carry.drop (udSignLen u.x),
    votes := if udVote u.x then u.votes ++ voteBytes u.x u.sign else u.votes }

/-- Internal steps of the walk up to the next request. DESIGN CHOICE, log entry 79: TALLY8 votes wait until they fill 64 bytes or the
walk ends, and sign bytes of a block that straddles two chunks are carried to the next (R275). -/
def Upd.settle : Nat → Upd → Upd
  | 0, u => u
  | fuel + 1, u =>
    let x := u.x
    if u.stage != .walk then u
    else if u.block < udBlocks x && udSweep x then { u with stage := .record, asked := false }
    else if u.block < udBlocks x && udSignLen x ≤ u.carry.length then
      (if votesZero x u.sign then Upd.settle fuel { u.nextBlock with skipped := satInc u.skipped }
       else { u with stage := .record, asked := false })
    else if 64 ≤ u.votes.length || (udBlocks x ≤ u.block && !u.votes.isEmpty) then { u with stage := .vote }
    else if u.signOff < udSignTotal x then { u with stage := .chunk, asked := false }
    else { u with stage := .finish }

/-- A finished walk gives the running place to the pending descriptor (R199, R274). -/
def Upd.passOn (u : Upd) (now : Nat) : Upd :=
  if u.stage != .finish then u
  else
    let u := { (u.modJob u.seq fun j => { j with sent := true }) with running := none, stage := .idle }
    match u.pending with
    | some p => { u with pending := none }.place p now
    | none => u

/-- Into the walk, through its internal steps, and on to the next descriptor where it is done. -/
def Upd.walk (u : Upd) (now : Nat) : Upd := (Upd.settle 32 { u with stage := .walk }).passOn now

/-- A place in DRAM in the descriptor's mode, or in the scratchpad. -/
def updPlace (c : TileCtl) (x a n : Nat) (dram : Nat → UpdWant) (sp : UpdWant) : UpdWant :=
  if udLoc x then (if spadSize < a + n then .fault 0x3007 a else sp)
  else match dramAddr c (udStriped x) a with
    | none => .fault 0x3005 a
    | some lin => dram lin

/-- The next request of the walk (R275). -/
def Upd.want (u : Upd) (c : TileCtl) : UpdWant :=
  let x := u.x
  if u.running.isNone || u.stopped then .nothing
  else
    let sched (a n : Nat) : UpdWant := if linearValid (a : Int) then .read a n false else .fault 0x3005 a
    match u.stage with
    | .idle | .walk | .finish => .nothing
    | .group => if u.asked then .nothing else sched ((udSched x + 16 * udGroup x) / 64 * 64) 64
    | .curve =>
      if u.asked then .nothing
      else
        let off := u.buf.length
        sched (udSched x + 4096 + 1024 * udGroup x + off) (min (512 - off % 512) (u.curveLen - off))
    | .chunk =>
      if u.asked then .nothing
      else
        let a := udSignBase x + u.signOff
        let n := min (512 - a % 512) (udSignTotal x - u.signOff)
        updPlace c x a n (fun lin => .read lin n (udClear x)) (.spRead a n)
    | .zero => .spWrite (udSignBase x + u.signOff) (u.buf.map fun _ => 0#8)
    | .record =>
      if u.asked then .nothing
      else
        let a := udRecBase x + 512 * u.block
        updPlace c x a 512 (fun lin => .read lin 512 false) (.spRead a 512)
    | .write =>
      let a := udRecBase x + 512 * u.block
      updPlace c x a 512 (fun lin => .write lin u.outBlock) (.spWrite a u.outBlock)
    | .vote =>
      let a := udVoteBase x + u.voteOff
      let whole := if udBlocks x ≤ u.block then ceilDiv u.votes.length 64 * 64 else u.votes.length / 64 * 64
      let n := min (512 - a % 512) whole
      match dramAddr c (udStriped x) a with
      | none => .fault 0x3005 a
      | some lin => .write lin (padTo n u.votes)

/-- The request of the walk has been issued, or granted in the scratchpad: `units` 64-byte units, and `owed` bytes
that a controller must accept before the descriptor completes (R281). -/
def Upd.sent (u : Upd) (units owed now : Nat) : Upd :=
  let u := u.modJob u.seq fun j => { j with units := j.units + units, outstanding := j.outstanding + owed }
  match u.stage with
  | .group | .curve | .chunk | .record => { u with asked := true }
  | .zero =>
    { u with signOff := u.signOff + u.buf.length, carry := u.carry ++ u.buf, buf := [] }.walk now
  | .write => { { u with blocks := satInc u.blocks }.nextBlock with outBlock := [] }.walk now
  | .vote => { u with votes := u.votes.drop (64 * units), voteOff := u.voteOff + 64 * units }.walk now
  | .idle | .walk | .finish => u

/-- The bytes of a read have come back: the unit after it, and whether the schedule is invalid (R284). -/
def Upd.got (u : Upd) (bytes : Bytes) (now : Nat) : Upd × Bool :=
  let x := u.x
  let u := { u with asked := false }
  match u.stage with
  | .group =>
    let e := sliceAt bytes (16 * udGroup x % 64) 16
    (match groupCount e with
     | none => (u, true)
     | some n =>
       ({ u with stage := .curve, count := n, buf := [],
                 vals := { stoch := bitOf (fieldAt e 0 4) 6, seed := fieldAt e 4 4 } }, false))
  | .curve =>
    let b := u.buf ++ bytes
    if b.length < u.curveLen then ({ u with buf := b }, false)
    else if !(curveValid b u.count) then (u, true)
    else
      let at_ (k : Nat) : Nat × AFlags := curveAt b u.count (udStep x) k
      let v := { u.vals with lr := (at_ 0).1, wd := (at_ 1).1, b1 := (at_ 2).1, b2 := (at_ 3).1 }
      let f := (at_ 0).2 ||| (at_ 1).2 ||| (at_ 2).2 ||| (at_ 3).2
      ({ u with vals := v, buf := [], flags := u.flags.set now f }.walk now, false)
  | .chunk =>
    if udLoc x && udClear x then ({ u with buf := bytes, stage := .zero }, false)
    else ({ u with signOff := u.signOff + bytes.length, carry := u.carry ++ bytes }.walk now, false)
  | .record =>
    let (out, same, f) := updBlock u.vals x u.block u.sign bytes
    ({ u with outBlock := out, stage := .write, repeat_ := u.repeat_.add now same,
              flags := u.flags.set now f }, false)
  | _ => (u, false)

/-- A descriptor that has completed (R274, R281). -/
def Upd.finished (u : Upd) (now : Nat) : Option MvJob :=
  u.jobs.find? fun j => j.sent && j.outstanding == 0 && (udBlocks j.issued.desc != 0 || j.since < now)

/-- The completion record (R281): DIR = 0. -/
def udRecord (j : MvJob) : BitVec 64 :=
  BitVec.ofNat 64 (udStepId j.issued.desc + 2 ^ 17 + min j.units (2 ^ 32 - 1) * 2 ^ 32)

/-- Bytes of a read reach the update path of an MSU. -/
def Dev.updBytes (d : Dev) (s : SiteId) (m : MsuId) (seq : Nat) (bs : Bytes) : Dev :=
  let (u, bad) := (d.msu s m).upd.got bs d.now
  let d := d.modMsu s m fun v => { v with upd := u }
  if bad then
    d.faultRequester (.update s m seq) true 0x300D (udSched u.x) 0xFF
  else d

/-- The sample of a DRAM read (R517): from its issue to its data at the MSU write port. -/
def Dev.loftSample (d : Dev) (r : LoftReq) : Dev :=
  let (s, m) := r.who.site
  let (c, names) := d.requesterCtx r.who
  d.sample s { kind := 0, addr := r.addr, latency := d.now - r.issued, step := names.headD 0, unit := (msuUnit m).val,
               ctx := c.val, flags := (if r.merged then 1 else 0) + (if dramLoft r.addr == s.val then 0 else 2) }

/-- Bytes of a read come back to the engine that asked (R199, R204). -/
def Dev.loftBytes (d : Dev) (r : LoftReq) (bs : Bytes) : Dev :=
  let d := d.loftSample r
  match r.who with
  | .mover s m seq =>
    if (d.msu s m).mv.jobs.any fun j => j.seq == seq then
      d.modMsu s m fun u => { u with
        mv := { u.mv with
          inFlight := u.mv.inFlight - 1,
          inBuf := u.mv.inBuf ++ [{ seq := seq, at_ := r.dest, region := r.region, bytes := bs }] } }
    else d
  | .update s m seq =>
    let u := (d.msu s m).upd
    if u.seq == seq && u.asked && !u.stopped then d.updBytes s m seq bs else d

end Sys2Proof.Machine
end

