-- ==== Sys2Proof/Machine/SpadUnit.lean ====
section
/-!
DEFINITION. What the ports of a tile's MSUs and the tile port do at a section's grant (R158 to R190): the sources of each port,
their progress after an access, panel zeroing, and the section's round-robin.
-/
namespace Sys2Proof.Machine

/-! ### Sources of a port (R162) -/

/-- What shares a port of an MSU: the pattern generator, the mover, the update path, the elastic buffer, remote data; and what
shares the tile port: the control core and the sample unit. -/
inductive Src where
  | gen | mover | upd | elastic | remote | core | sample
  deriving DecidableEq, Repr

/-- The sources of an MSU's ports, in the order of their round-robin. -/
def srcs : List Src := [.gen, .mover, .upd, .elastic, .remote]

def Src.num : Src → Nat
  | .gen => 0
  | .mover => 1
  | .upd => 2
  | .elastic => 3
  | .remote => 4
  | .core => 5
  | .sample => 6

/-- E_REGION of an elastic MSU (R174). -/
def Tile.elasticRegion (t : Tile) (m : MsuId) : Nat := bvFld (t.grid[msuPos m]).cfg 131 4

def Tile.msuCfgMode (t : Tile) (m : MsuId) : Nat := msuMode (t.grid[msuPos m]).cfg.toNat

/-- Region of a mover's running transfer. -/
def Tile.mvReg (t : Tile) (m : MsuId) : Region := vgetN t.regions (mvRegion (t.msus[m]).mv.x) {}

/-- The row of a remote descriptor (R379): fabric address and scratchpad address. -/
def rdOp (x : Nat) : Nat := fld x 0 3
def rdMsu (x : Nat) : Nat := fld x 7 3
def rdRowBytes (x : Nat) : Nat := fld x 160 13
def rdRows (x : Nat) : Nat := fld x 192 32
def rdSp (x i : Nat) : Int := (fld x 128 25 : Int) + (i : Int) * signedOf 32 (fld x 320 32)
def rdStepId (x : Nat) : Nat := fld x 32 16

/-- Descriptor of the running remote descriptor. -/
def Remote.x (r : Remote) : Nat := match r.running with | some i => i.desc | none => 0

/-- What the remote engine reads through MSU `m` (R379): the next row of a PUT or TREDUCE. -/
def Remote.readWant (r : Remote) (m : MsuId) : Want :=
  let x := r.x
  let a := rdSp x r.row
  let n := rdRowBytes x
  if r.running.isNone || r.stopped || rdMsu x != m.val || !(rdOp x == 1 || rdOp x == 2) || rdRows x ≤ r.row then .nothing
  else if a < 0 || (spadSize : Int) < a + n || n ≤ r.outBuf.length then .nothing
  else
    let b := a.toNat + r.outBuf.length
    .access { addr := b, n := min (n - r.outBuf.length) (512 - b % 512) }

/-- The work from outside that the port of MSU `m` serves next: what arrived there first (R387). -/
def Tile.arrHead (t : Tile) (m : MsuId) : Option Arr := t.arr.find? fun a => a.msu == m.val

/-- A bell add stands first at the port of MSU `m`: it has the write port of the cycle (R386). -/
def Tile.bellFirst (t : Tile) (m : MsuId) : Bool := ((t.arrHead m).map fun a => a.kind == .bell).getD false

/-- Access of an arrival: up to the end of its 512-byte row. -/
def Arr.access (a : Arr) : Acc := { addr := a.addr, n := min a.left (512 - a.addr % 512) }

/-- A word access of the tile port (R158). -/
def wordAcc (a : Nat) : Acc := { addr := a, n := 8 }

/-- The job of the control core that presents an access to section `sec` (R162). -/
def Tile.coreJob (t : Tile) (sec : Nat) : Option CoreJob :=
  t.core.find? fun j => (wordAcc (j.addr + j.done)).section == sec

/-- The access that the tile port presents to section `sec`: the control core's, then the sample unit's (R162). The manual names
no access of the configuration port. -/
def Tile.portAccess (t : Tile) (sec : Nat) (up : Bool) : Option (Src × Bool × Acc) :=
  if !up then none
  else match t.coreJob sec with
  | some j => some (.core, j.recv, wordAcc (j.addr + j.done))
  | none => match t.pmc.smpWrites with
    | (a, _, _) :: _ => if (wordAcc a).section == sec then some (.sample, true, wordAcc a) else none
    | [] => none

/-- What a source of a read port wants. `live`: the tile issues work. -/
def Tile.readWant (t : Tile) (m : MsuId) (live : Bool) (now : Nat) : Src → Want
  | .gen => if live && t.msuCfgMode m == 1 then (t.msus[m]).readWant t.regions now else .nothing
  | .mover => if live then (t.msus[m]).mv.readWant t.ctl (t.mvReg m) now else .nothing
  | .upd =>
    if live && t.msuCfgMode m == 3 then
      (match (t.msus[m]).upd.want t.ctl with
       | .spRead a n => .access { addr := a, n := n }
       | _ => .nothing)
    else .nothing
  | .elastic =>
    let u := t.msus[m]
    let r := vgetN t.regions (t.elasticRegion m) {}
    let held := (t.grid[msuPos m]).outHeld 0 now + u.elFlight
    let start := r.tail - BitVec.ofNat 32 u.elBack.length
    if live && t.msuCfgMode m == 2 && !u.rd.stopped && (held < 10 || !u.elBack.isEmpty) then
      (match partAt (r.split start.toNat 256) u.elBack.length with
       | some a => if r.readable now < (if u.elBack.isEmpty then 256 else a.bytes) then .nothing else .access a
       | none => .nothing)
    else .nothing
  | .remote => match t.rm.readWant m with
    | .access a => if live then .access a else .nothing
    | w => match t.arrHead m with
      | some a => if a.kind == .read then .access a.access else w
      | none => w
  | .core | .sample => .nothing

/-- What a source of a write port wants. `up`: work already issued goes on. Data of a mover's issued requests is written
even after a stop, until the tile is reloaded (R215, R441). -/
def Tile.writeWant (t : Tile) (m : MsuId) (live up : Bool) (now : Nat) : Src → Want
  | .gen => if live && t.msuCfgMode m == 1 then (t.msus[m]).writeWant t.regions now else .nothing
  | .mover => (t.msus[m]).mv.writeWant t.regions now
  | .upd =>
    if live && t.msuCfgMode m == 3 then
      (match (t.msus[m]).upd.want t.ctl with
       | .spWrite a b => .access { addr := a, n := b.length }
       | _ => .nothing)
    else .nothing
  | .elastic =>
    let u := t.msus[m]
    let r := vgetN t.regions (t.elasticRegion m) {}
    let start := r.head - BitVec.ofNat 32 u.elDone
    if live && t.msuCfgMode m == 2 && !u.rd.stopped && !u.elWrite.isEmpty then
      (match partAt (r.split start.toNat 256) u.elDone with
       | some a => if r.writable now < (if u.elDone == 0 then 256 else a.bytes) then .nothing else .access a
       | none => .nothing)
    else .nothing
  | .remote =>
    match (if up then t.rm.inBuf.find? fun (w : RmIn) => w.msu == m.val else none) with
    | some w => .access { addr := w.addr, n := min w.bytes.length (512 - w.addr % 512) }
    | none => match t.arrHead m with
      | some a => if a.kind == .write then .access a.access else .nothing
      | none => .nothing
  | .core | .sample => .nothing

/-! ### Work without an access (R181, R182, R198) -/

/-- A read generator's run that makes no access: a null index, a spent secondary token or a SKIP record. -/
def Msu.readFree (m : Msu) (reg : Region) (now : Nat) : Msu × Region :=
  let g := m.rd
  let x := g.x
  if m.secDue then
    ({ m with rd := { g with secTok := g.secTok + 1 }, flight := m.flight ++ [(now, true, List.replicate 256 0#8)] }, reg)
  else if pdMode x == 2 then
    let len := match g.recHdr with | some (h, _) => bvFld h 0 16 | none => 0
    ({ m with rd := { g with recHdr := none } }, reg.advTail now len)
  else
    let n := pdRunBytes x
    let pad := g.runPad (g.bytes + n)
    ({ m with
       rd := ({ g with bytes := g.bytes + n } : Gen).nextRun pad,
       flight := m.flight ++ [(now, false, List.replicate (n + pad) 0#8)] }, reg)

/-- A write generator's run under a null index: its bytes are discarded. -/
def Msu.writeFree (m : Msu) : Msu :=
  let g := m.wr
  let n := pdRunBytes g.x
  let pad := g.runPad (g.bytes + n)
  { m with wr := ({ g with bytes := g.bytes + n } : Gen).nextRun pad, wbuf := m.wbuf.drop (n + pad) }

/-- A null row of a STORE moves nothing. -/
def Mover.readFree (m : Mover) : Mover := { m with rdRow := m.rdRow + 1, rdOff := 0 }

/-- All work of an MSU's ports that needs no access, up to `fuel` pieces. -/
def Tile.settle (t : Tile) (m : MsuId) (live : Bool) (now : Nat) : Nat → Tile
  | 0 => t
  | fuel + 1 =>
    let r := pdRegion (t.msus[m]).rd.x
    if t.readWant m live now .gen == .free then
      let (u, reg) := (t.msus[m]).readFree (vgetN t.regions r {}) now
      Tile.settle { t with msus := vmod t.msus m (fun _ => u), regions := vsetN t.regions r reg } m live now fuel
    else if t.writeWant m live true now .gen == .free then
      Tile.settle { t with msus := vmod t.msus m Msu.writeFree } m live now fuel
    else if t.readWant m live now .mover == .free then
      Tile.settle { t with msus := vmod t.msus m (fun u => { u with mv := u.mv.readFree }) } m live now fuel
    else t

/-! ### Progress after a granted access -/

/-- Accesses of the next run of an AFFINE or INDEXED pattern. -/
def Gen.parts (g : Gen) (reg : Region) : Nat :=
  let idx := match g.index with | some (some v) => some v | _ => none
  (runParts g.x reg (pdAddr g.x g.run idx)).length

/-- One more secondary part: the run and the token it belongs to move on (R182, R183). The Bool says that the token is
complete. -/
def Gen.secStep (g : Gen) : Gen × Bool :=
  let x := g.x
  let parts := (rowParts (pdSecAddr x g.secRun) (pdSecRun x)).length
  if g.secPart + 1 < parts then ({ g with secPart := g.secPart + 1 }, false)
  else
    let g := { g with secPart := 0, secRun := g.secRun + 1, secIn := g.secIn + 1 }
    if g.secIn == pdSecRuns x || pdSecTotal x ≤ g.secRun then ({ g with secIn := 0, secTok := g.secTok + 1 }, true)
    else (g, false)

/-- A generator's access is counted; the first of the primary stream is kept, within its region where the pattern's addresses are
offsets there (R187, R517). -/
def Gen.counted (g : Gen) (reg : Region) (a : Acc) (sec : Bool) : Gen :=
  let at_ := a.addr - (if pdRegEn g.x || pdMode g.x == 2 then reg.base else 0)
  { g with accesses := g.accesses + 1, first := if sec || g.first.isSome then g.first else some at_ }

/-- The read generator's access is granted in cycle `now` and delivers `bs` in `now + 3` (R164). -/
def Msu.readGranted (m : Msu) (reg : Region) (a : Acc) (bs : Bytes) (now : Nat) : Msu × Region :=
  let sec := m.secDue
  let m := { m with rd := m.rd.counted reg a sec, grantAt := some now }
  let g := m.rd
  let x := g.x
  if sec then
    let (g', done) := g.secStep
    let pad := if done then 256 - (g.secIn + 1) * pdSecRun x else 0
    ({ m with rd := g', flight := m.flight ++ [(now + 3, true, bs ++ List.replicate pad 0#8)] }, reg)
  else
    let finish (g : Gen) (bs : Bytes) (last : Bool) : Msu :=
      let g := { g with bytes := g.bytes + bs.length }
      if last then
        let pad := g.runPad g.bytes
        { m with
          rd := { g.nextRun pad with secIn := if pdMode x == 2 then 0 else g.secIn },
          flight := m.flight ++ [(now + 3, false, bs ++ List.replicate pad 0#8)] }
      else { m with rd := { g with part := g.part + 1 }, flight := m.flight ++ [(now + 3, false, bs)] }
    if pdMode x != 2 then (finish g bs (g.parts reg ≤ g.part + 1), reg)
    else if reg.mode == 1 then
      let g := { g with secIn := g.secIn + a.bytes }
      (finish g bs (pdRunBytes x ≤ g.secIn), reg.advTail now a.bytes)
    else match g.recHdr with
      | none => ({ m with rd := { g with recHdr := some (BitVec.ofNat 64 (leNat bs), now + 3) } }, reg)
      | some (h, _) =>
        let len := bvFld h 0 16
        let left := pdRunBytes x - g.secIn
        let got := g.secIn + a.bytes
        let last := len - 8 ≤ got
        let g := { g with secIn := got }
        (finish g (bs.take left) last,
          if last then reg.advTail now len else reg)

/-- The bytes that the write generator's next access writes. -/
def Msu.writeData (m : Msu) (reg : Region) (a : Acc) (now : Nat) : Bytes :=
  let g := m.wr
  let x := g.x
  if pdIlv x == 1 && m.wsec.isSome && g.secRun < pdSecTotal x then
    let first := match rowParts (pdSecAddr x g.secRun) (pdSecRun x) with | c :: _ => c.2 | [] => 0
    let off := g.secIn * pdSecRun x + (if g.secPart == 0 then 0 else first)
    sliceAt ((m.wsec.map Token.bytes).getD []) off a.bytes
  else if pdMode x != 2 || reg.mode == 1 then m.wbuf.take a.bytes
  else
    let n := pdRunBytes x
    let len := recLen n
    let rec_ := recHeader len 1 (recPad n) reg.seq ++ padTo (len - 8) (m.wbuf.take n)
    let skip := if g.secIn == 0 && !g.skipped then (reg.place now len).getD 0 else 0
    if skip != 0 then recHeader skip 2 0 reg.seq else sliceAt rec_ g.secIn a.bytes

/-- The write generator's access is granted. -/
def Msu.writeGranted (m : Msu) (reg : Region) (a : Acc) (now : Nat) : Msu × Region :=
  let sec := pdIlv m.wr.x == 1 && m.wsec.isSome && m.wr.secRun < pdSecTotal m.wr.x
  let m := { m with wr := m.wr.counted reg a sec, grantAt := some now }
  let g := m.wr
  let x := g.x
  if sec then
    let (g', done) := g.secStep
    ({ m with wr := g', wsec := if done then none else m.wsec }, reg)
  else
    let finish (g : Gen) (n : Nat) (last : Bool) : Msu :=
      let g := { g with bytes := g.bytes + n }
      if last then
        let pad := g.runPad g.bytes
        { m with
          wr := { g.nextRun pad with secIn := if pdMode x == 2 then 0 else g.secIn },
          wbuf := m.wbuf.drop (n + pad) }
      else { m with wr := { g with part := g.part + 1 }, wbuf := m.wbuf.drop n }
    if pdMode x != 2 then (finish g a.bytes (g.parts reg ≤ g.part + 1), reg)
    else if reg.mode == 1 then
      let g := { g with secIn := g.secIn + a.bytes }
      (finish g a.bytes (pdRunBytes x ≤ g.secIn), reg.advHead now a.bytes)
    else
      let n := pdRunBytes x
      let len := recLen n
      let skip := if g.secIn == 0 && !g.skipped then (reg.place now len).getD 0 else 0
      if skip != 0 then
        ({ m with wr := { g with skipped := true } }, reg.advHead now skip)
      else
        let got := g.secIn + a.bytes
        let reg := reg.advHead now a.bytes
        if len ≤ got then (finish { g with secIn := got } n true, { reg with seq := reg.seq + 1 })
        else ({ m with wr := { g with secIn := got, part := g.part + 1, skipped := true } }, reg)

/-- Change the head arrival at MSU `m`. -/
def Tile.modArr (t : Tile) (m : MsuId) (f : Arr → Arr) : Tile :=
  { t with arr := replaceFirst (fun a => a.msu == m.val) f t.arr }

/-- A read access of a source is granted: the tile after it. -/
def Tile.readGranted (t : Tile) (m : MsuId) (src : Src) (a : Acc) (bs : Bytes) (now nclk : Nat) : Tile :=
  let u := t.msus[m]
  match src with
  | .gen =>
    let r := pdRegion u.rd.x
    let (u', reg) := u.readGranted (vgetN t.regions r {}) a bs now
    { t with
      msus := vmod t.msus m fun _ => u',
      regions := if pdMode u.rd.x == 2 then vsetN t.regions r reg else t.regions }
  | .mover =>
    let x := u.mv.x
    let idx := u.mv.readDone bs
    let stream := mvRegEn x && (t.mvReg m).mode == 1 && idx.idx.length == u.mv.idx.length
    { t with
      msus := vmod t.msus m fun v => { v with mv := idx, grantAt := some now },
      regions := if stream then vmodN t.regions (mvRegion x) fun r => r.advTail now a.bytes else t.regions }
  | .upd => { t with
      msus := vmod t.msus m fun v => { v with
        upd := ((v.upd.sent (ceilDiv a.bytes 64) 0 nclk).got bs nclk).1, grantAt := some now } }
  | .elastic =>
    { t with
      msus := vmod t.msus m fun v =>
        let got := v.elBack ++ bs
        if got.length < 256 then { v with elBack := got, grantAt := some now }
        else { v with elBack := [], elFlight := v.elFlight + 1, flight := v.flight ++ [(now + 3, false, got)],
                      grantAt := some now },
      regions := vmodN t.regions (t.elasticRegion m) fun r => r.advTail now a.bytes }
  | .remote =>
    let t := { t with msus := vmod t.msus m fun v => { v with grantAt := some now } }
    (match t.rm.readWant m with
     | .access _ => { t with rm := { t.rm with outBuf := t.rm.outBuf ++ bs } }
     | _ => t.modArr m fun w => { w with addr := w.addr + a.bytes, left := w.left - a.bytes, bytes := w.bytes ++ bs })
  | .core =>
    { t with core := replaceFirst (fun j => wordAcc (j.addr + j.done) == a) (fun j =>
        { j with done := j.done + a.bytes, bytes := j.bytes ++ bs }) t.core }
  | .sample => t

/-- The bytes of a source's write access. -/
def Tile.writeData (t : Tile) (m : MsuId) (src : Src) (a : Acc) (now : Nat) : Bytes :=
  let u := t.msus[m]
  match src with
  | .gen => u.writeData (vgetN t.regions (pdRegion u.wr.x) {}) a now
  | .mover => match u.mv.inNext with
    | some w => w.bytes.take a.bytes
    | none => []
  | .upd => match u.upd.want t.ctl with | .spWrite _ b => b | _ => []
  | .elastic => match u.elWrite with | k :: _ => sliceAt k.bytes u.elDone a.bytes | [] => []
  | .remote => match t.rm.inBuf.find? fun (w : RmIn) => w.msu == m.val with
    | some w => w.bytes.take a.bytes
    | none => match t.arrHead m with
      | some w => w.bytes.take a.bytes
      | none => []
  | .core => match t.core.find? fun j => wordAcc (j.addr + j.done) == a with
    | some j => sliceAt j.bytes j.done a.bytes
    | none => []
  | .sample => match t.pmc.smpWrites with | (_, b, _) :: _ => b | [] => []

/-- A word of a sample record is written: HEAD advances, and the last word ends the record (R172, R519). -/
def Tile.sampleGranted (t : Tile) (now nclk : Nat) : Tile :=
  match t.pmc.smpWrites with
  | [] => t
  | (_, _, n) :: rest =>
    let adv (r : Region) : Region := r.advHead now n
    let last := rest.isEmpty
    { t with
      regions := vmodN t.regions t.pmc.sampleRegion fun r => if last then { adv r with seq := r.seq + 1 } else adv r,
      pmc := { t.pmc with
        smpWrites := rest, smpHeld := if last then none else t.pmc.smpHeld,
        smpWritten := if last then t.pmc.smpWritten.inc nclk else t.pmc.smpWritten } }

/-- A write access of a source is granted: the tile after it, memory apart. -/
def Tile.writeGranted (t : Tile) (m : MsuId) (src : Src) (a : Acc) (now nclk : Nat) : Tile :=
  let u := t.msus[m]
  match src with
  | .gen =>
    let r := pdRegion u.wr.x
    let (u', reg) := u.writeGranted (vgetN t.regions r {}) a now
    { t with
      msus := vmod t.msus m fun _ => u',
      regions := if pdMode u.wr.x == 2 then vsetN t.regions r reg else t.regions }
  | .mover =>
    let reg := u.mv.inNext.bind (·.region)
    { t with
      msus := vmod t.msus m fun v => { v with mv := v.mv.writeDone a.bytes, grantAt := some now },
      regions := match reg with
        | some r => vmodN t.regions r fun q => q.advHead now a.bytes
        | none => t.regions }
  | .upd => { t with
      msus := vmod t.msus m fun v => { v with upd := v.upd.sent (ceilDiv a.bytes 64) 0 nclk, grantAt := some now } }
  | .elastic =>
    { t with
      msus := vmod t.msus m fun v =>
        if v.elDone + a.bytes < 256 then { v with elDone := v.elDone + a.bytes, grantAt := some now }
        else { v with elDone := 0, elWrite := v.elWrite.drop 1, grantAt := some now },
      regions := vmodN t.regions (t.elasticRegion m) fun r => r.advHead now a.bytes }
  | .remote =>
    let t := { t with msus := vmod t.msus m fun v => { v with grantAt := some now } }
    let p (w : RmIn) : Bool := w.msu == m.val
    if t.rm.inBuf.any p then
      let rest (w : RmIn) : RmIn := { w with addr := w.addr + a.bytes, bytes := w.bytes.drop a.bytes }
      let l := replaceFirst p rest t.rm.inBuf
      { t with rm := { t.rm with inBuf := l.filter fun (w : RmIn) => !w.bytes.isEmpty } }
    else
      let reg := (t.arrHead m).bind (·.region)
      let n := match t.arrHead m with | some w => if w.skip == 0 then a.bytes else w.skip | none => 0
      let t := t.modArr m fun w => { w with addr := w.addr + a.bytes, left := w.left - a.bytes, bytes := w.bytes.drop a.bytes }
      { t with regions := match reg with
          | some r => vmodN t.regions r fun q => q.advHead now n
          | none => t.regions }
  | .core =>
    { t with core := replaceFirst (fun j => wordAcc (j.addr + j.done) == a) (fun j =>
        { j with done := j.done + a.bytes }) t.core }
  | .sample => t.sampleGranted now nclk

/-- The first arrival at MSU `m` leaves, and is answered. -/
def Dev.arrAnswer (d : Dev) (s : SiteId) (a : Arr) (typ status : Nat) (operand payload : Bytes) : Dev :=
  let d := d.modTile s fun t => { t with arr := eraseFirst (fun x => x == a) t.arr }
  match a.req with
  | some p => d.inject (some (.tile s)) (rspPkt p typ status operand payload)
  | none => d

/-- The first arrival at MSU `m` has made its last access: a LOAD or a STORE is answered (R385). -/
def Dev.arrDone (d : Dev) (s : SiteId) (m : MsuId) : Dev :=
  match (d.tile s).arrHead m with
  | none => d
  | some a =>
    if a.kind == .bell || a.left != 0 then d
    else if a.kind == .read then d.arrAnswer s a 0x11 0 [] a.bytes
    else d.arrAnswer s a 0x12 0 [] []

/-- A bell add that stands first at the port of MSU `m` is applied, and answered (R248, R385, R386). -/
def Dev.bellTurn (d : Dev) (s : SiteId) (m : MsuId) : Dev :=
  match (d.tile s).arrHead m with
  | none => d
  | some a => if a.kind == .bell then (d.bellAdd s a.addr a.left).arrAnswer s a 0x13 0 (leBytes 8 0) [] else d

/-- A LOAD that cannot be read is answered with a status and delivers nothing (R384). -/
def Dev.arrRefuse (d : Dev) (s : SiteId) (m : MsuId) (status : Nat) : Dev :=
  match (d.tile s).arrHead m with
  | none => d
  | some a => d.arrAnswer s a (if a.kind == ArrKind.read then 0x11 else 0x12) status [] []

/-- The control core's job has made its last access: a SEND's message enters its channel, a RECV's entry leaves its queue (R264,
R265). -/
def Dev.coreDone (d : Dev) (s : SiteId) : Dev :=
  match (d.tile s).core.find? fun j => j.len ≤ j.done with
  | none => d
  | some j =>
    let d := d.modTile s fun t => { t with core := eraseFirst (fun x => x == j) t.core }
    if j.recv then d.modTile s fun t => { t with
      queues := vmodN t.queues j.no fun q => { q with taking := q.taking - 1, entries := eraseFirst (fun e => e == j.entry) q.entries } }
    else match finOf 64 j.no with
      | some ch => (d.modCtx s j.ctx fun y => { y with msgs := y.msgs + 1 }).enqueue s ch { ctx := j.ctx, bytes := j.bytes }
      | none => d

/-! ### Faults of a source (R190, R215, R286, R379) -/

/-- Issuing context of a source's work, and what the fault event names of it: STEP_ID, and GROUP of an update (R190, R215,
R286). -/
def Tile.srcWho (t : Tile) (m : MsuId) (write : Bool) (src : Src) : CtxId × List Nat :=
  let u := t.msus[m]
  match src with
  | .gen =>
    let g := if write then u.wr else u.rd
    ((g.running.map (·.ctx)).getD 0, [pdStepId g.x])
  | .mover => ((u.mv.running.map (·.ctx)).getD 0, [mvStepId u.mv.x])
  | .upd => ((u.upd.running.map (·.ctx)).getD 0, [udStepId u.upd.x, udGroup u.upd.x])
  | .elastic => (0, [0])
  | .remote => ((t.rm.running.map (·.ctx)).getD 0, [rdStepId t.rm.x])
  | .core | .sample => (0, [])

/-- The source makes no further access until the tile is reloaded. -/
def Tile.stopSrc (t : Tile) (m : MsuId) (write : Bool) (src : Src) : Tile :=
  let f (u : Msu) : Msu := match src with
    | .gen => if write then { u with wr := { u.wr with stopped := true } } else { u with rd := { u.rd with stopped := true } }
    | .mover => { u with mv := { u.mv with stopped := true } }
    | .upd => { u with upd := { u.upd with stopped := true } }
    | .elastic => { u with rd := { u.rd with stopped := true } }
    | _ => u
  let t := { t with msus := vmod t.msus m f }
  if src == .remote then { t with rm := { t.rm with stopped := true } } else t

/-- Stop a source and raise its fault. -/
def Dev.srcFault (d : Dev) (s : SiteId) (m : MsuId) (write : Bool) (src : Src) (code addr : Nat) : Dev :=
  let (c, names) := (d.tile s).srcWho m write src
  (d.modTile s fun t => t.stopSrc m write src).ctxFault s c
    { code := code, unit := some (if src == .remote then 31 else (msuUnit m).val), addr := addr,
      area := if isClassE code then 0 else 0xFF, extra := names }

/-! ### Panels and words (R161, R165, R166) -/

/-- Words that an access touches, by number. -/
def Acc.words (a : Acc) : List Nat := (a.addrs.map (· / 8)).dedup

/-- Words of which an access names only part, and which a write therefore reads first (R160). -/
def Acc.merged (a : Acc) : List Nat := a.words.filter fun w => 8 > (a.addrs.filter fun x => x / 8 == w).length

/-- A panel is valid; its place in the zeroing queue. -/
def Spad.isValid (p : Spad) (panel : Nat) : Bool := p.valid.getLsbD panel
def Spad.queued (p : Spad) (panel : Nat) : Bool := (vgetN p.zeroQ (panel % 4) []).any fun z => z.1 == panel

/-- Zero the next row of a panel that is queued in its section (R165); the last row takes it from the queue. -/
def Spad.zeroRow (p : Spad) (panel : Nat) : Spad :=
  match (vgetN p.zeroQ (panel % 4) []).find? fun z => z.1 == panel with
  | none => p
  | some (_, row) =>
    let a := panel * 32768 + row * 512
    let z := (vgetN p.zeroQ (panel % 4) []).filter fun z => z.1 != panel
    { p with
      mem := p.mem.clear a (a + 512),
      badWords := p.badWords.filter fun w => w < a / 8 || a / 8 + 64 ≤ w,
      zeroQ := vsetN p.zeroQ (panel % 4) (if row + 1 == 64 then z else (panel, row + 1) :: z) }

/-- The bytes of a read access. -/
def Spad.readAcc (p : Spad) (a : Acc) : Bytes := a.addrs.map p.mem.read

/-- A write access: its bytes, the panel's valid bit, and the words it covers whole (R160, R161, R166). -/
def Spad.writeAcc (p : Spad) (a : Acc) (bs : Bytes) : Spad :=
  let whole := a.words.filter fun w => !(a.merged.contains w)
  { p with
    mem := (a.addrs.zip bs).foldl (fun m x => m.write x.1 x.2) p.mem,
    valid := p.valid ||| BitVec.ofNat 768 (2 ^ a.panel),
    badWords := p.badWords.filter fun w => !(whole.contains w) }

/-! ### The grant -/

/-- Accesses that a port presents to a section, by source, in the round-robin order of the port (R162). -/
def portAsks (want : Src → Want) (turn sec : Nat) : List (Src × Acc) :=
  (List.range 5).filterMap fun i =>
    match srcs[(turn + 1 + i) % 5]? with
    | none => none
    | some q => match want q with
      | .access a => if a.section == sec then some (q, a) else none
      | _ => none

/-- A requester's access of a section: its number (0 to 7 read ports, 8 to 15 write ports, 16 the tile port), its MSU, and
what it presents. -/
structure Ask where
  req : Nat
  msu : MsuId := 0
  write : Bool
  src : Src
  acc : Acc
  deriving DecidableEq, Repr

/-- What a requester presents to the section. -/
def Tile.asks (t : Tile) (sec r : Nat) (live up : Bool) (now : Nat) : Option Ask :=
  if r == 16 then (t.portAccess sec up).map fun (q, w, a) => { req := 16, write := w, src := q, acc := a }
  else match finOf 8 (r % 8) with
    | none => none
    | some m =>
      let u := t.msus[m]
      let l := if r < 8 then portAsks (t.readWant m live now) u.rdTurn sec
               else if t.bellFirst m then []
               else portAsks (t.writeWant m live up now) u.wrTurn sec
      (l.head?).map fun (q, a) => { req := r, msu := m, write := 8 ≤ r, src := q, acc := a }

/-- The requester after the last granted, in round-robin order, that presents an access (R162). -/
def Tile.pick (t : Tile) (sec : Nat) (live up : Bool) (now : Nat) : Option Ask :=
  (List.range 17).findSome? fun i => t.asks sec ((vgetN t.spad.lastReq sec 16 + 1 + i) % 17) live up now

/-- The place of a source faults before any request (R157, R168, R173, R181): the first such source, with code and address. -/
def Tile.placeFault (t : Tile) (m : MsuId) (live up : Bool) (now : Nat) : Option (MsuId × Bool × Src × Nat × Nat) :=
  srcs.findSome? fun q => match t.readWant m live now q, t.writeWant m live up now q with
    | .fault c a, _ => some (m, false, q, c, a)
    | _, .fault c a => some (m, true, q, c, a)
    | _, _ => none

/-- A read that a requester presents to the section finds its panel invalid (R166), or a source's place faults before any request:
the first such port, source, code and address. -/
def Tile.askFault (t : Tile) (sec : Nat) (live up : Bool) (now : Nat) : Option (MsuId × Bool × Src × Nat × Nat) :=
  let presented (r : Nat) : Option (MsuId × Bool × Src × Nat × Nat) := match t.asks sec r live up now with
    | some k => if k.write || t.spad.isValid k.acc.panel then none else some (k.msu, false, k.src, 0x3002, k.acc.addr)
    | none => none
  (presented 16).orElse fun _ => (fins 8).findSome? fun m =>
    (presented m.val).orElse fun _ => t.placeFault m live up now

/-- A fault of a step: the event names phase, context, step and record (R246). -/
def Dev.stepFaultAt (d : Dev) (s : SiteId) (c : CtxId) (pc code addr record : Nat) : Dev :=
  let t := d.tile s
  d.ctxFault s c { code := code, unit := some 31, addr := addr, area := if isClassE code then 0 else 0xFF,
                   extra := [t.ctl.phase.toNat, c.val, pc, record] }

/-- An access of the tile port meets a fault: the job ends, and its context faults at the step that issued it (R41, R190,
R265). -/
def Dev.coreFault (d : Dev) (s : SiteId) (a : Acc) (code addr : Nat) : Dev :=
  match (d.tile s).core.find? fun j => wordAcc (j.addr + j.done) == a with
  | none => d
  | some j =>
    let d := d.modTile s fun t => { t with core := eraseFirst (fun x => x == j) t.core }
    d.stepFaultAt s j.ctx (((d.tile s).ctxs[j.ctx]).pc - 1) code addr 0

/-- An access that a source presents meets a fault: of remote data only the answer tells (R384); of any other source the source
stops and its context faults. -/
def Dev.askFaulted (d : Dev) (s : SiteId) (m : MsuId) (write : Bool) (q : Src) (a : Acc) (code addr : Nat) : Dev :=
  let t := d.tile s
  let engine := if write then t.rm.inBuf.any fun (w : RmIn) => w.msu == m.val
                else match t.rm.readWant m with | .access _ => true | _ => false
  if q == .core || q == .sample then d.coreFault s a code addr
  else if q == .remote && !engine then d.arrRefuse s m (if code == 0x3002 then 4 else 3)
  else d.srcFault s m write q code addr

/-- Raise the faults of all ports before the section arbitrates. -/
def Dev.askFaults (d : Dev) (s : SiteId) (sec : Nat) : Nat → Dev
  | 0 => d
  | n + 1 =>
    match (d.tile s).askFault sec (d.tileLive s) (d.tileUp s) d.anow with
    | some (m, w, q, c, a) => Dev.askFaults (d.askFaulted s m w q (wordAcc a) c a) s sec n
    | none => d

/-- The section's grant in this cycle goes to requester `r`. -/
def Spad.granted (p : Spad) (sec r now : Nat) : Spad :=
  { p with lastReq := vsetN p.lastReq sec r, lastGrant := vsetN p.lastGrant sec (some now) }

/-- Perform a granted access whose words are readable, and what follows its last one. -/
def Dev.perform (d : Dev) (s : SiteId) (k : Ask) : Dev :=
  let a := k.acc
  let d := if k.req == 16 then d else d.noteFire s
  let d := d.countFixed s 4 1
  let d := d.modTile s fun t =>
    if k.write then
      let bs := t.writeData k.msu k.src a d.anow
      { t.writeGranted k.msu k.src a d.anow d.now with spad := t.spad.writeAcc a bs }
    else t.readGranted k.msu k.src a (t.spad.readAcc a) d.anow d.now
  match k.src with
  | .core => d.coreDone s
  | .remote => d.arrDone s k.msu
  | _ => d

/-- A section grants one access (R158 to R166): faults of presented reads first, then the round-robin; a write to a
panel still queued for zeroing gives its grant to the priority zeroing of that panel. -/
def grantEffect (s : SiteId) (sec : Fin 4) (ecc : Ecc) (d : Dev) : Dev :=
  let now := d.anow
  let d := d.modTile s fun t => (fins 8).foldl (fun t m => t.settle m (d.tileLive s) now 64) t
  let d := d.askFaults s sec.val 40
  let t := d.tile s
  match t.pick sec.val (d.tileLive s) (d.tileUp s) now with
  | none => d
  | some k =>
    let d := d.modSpad s fun p => p.granted sec.val k.req now
    if k.write && t.spad.queued k.acc.panel then d.modSpad s fun p => p.zeroRow k.acc.panel
    else
      let d := if k.req == 16 then d
        else d.modMsu s k.msu fun u => if k.write then { u with wrTurn := k.src.num } else { u with rdTurn := k.src.num }
      let reads := if k.write then k.acc.merged else k.acc.words
      let bad := reads.filter t.spad.badWords.contains
      let bad := if bad.isEmpty && ecc == .uncorrectable then reads.take 1 else bad
      match bad with
      | w :: _ =>
        let d := d.modSpad s fun p => { p with badWords := insertNat w p.badWords }
        let d := if k.write && k.src == .mover then d.modMsu s k.msu fun u => { u with mv := u.mv.writeDrop } else d
        ((d.countFixed s 4 1).askFaulted s k.msu k.write k.src k.acc 0xE001 (w * 8)).countSpadUe s
      | [] =>
        let d := d.perform s k
        match ecc, reads with
        | .corrected, w :: _ => (d.modSpad s fun p => { p with ecc := p.ecc.inc d.now }).countWord s w
        | _, _ => d

/-- The section can grant in this cycle: once in an ACLK cycle, and in ACTIVE only, for every other power state stops the
scratchpad's clock (R527). -/
def grantEnabled (s : SiteId) (sec : Fin 4) (d : Dev) : Bool :=
  d.running && d.hasTile s && d.power s == 0 && vgetN (d.tile s).spad.lastGrant sec.val none != some d.anow

end Sys2Proof.Machine
end

