-- ==== Sys2Proof/Machine/Scratch.lean ====
section
/-!
DEFINITION. Meanings of the scratchpad commands: a section's grant, the delivery of read bytes, panel zeroing, the
completion of a pattern and the read of a completion record (R158 to R190).
-/
namespace Sys2Proof.Machine

/-- SCRATCHPAD_GRANT (R162). -/
def execScratchpadGrant (s : SiteId) (sec : Fin 4) (ecc : Ecc) (st : State) : Host.Outcome State Fault Refusal :=
  onEvent st (grantEnabled s sec) fun _ => grantEffect s sec ecc

/-! ### READ_DELIVERY (R164, R189) -/

/-- Bytes of the MSU are due. -/
def deliveryEnabled (s : SiteId) (m : MsuId) (d : Dev) : Bool :=
  d.tileUp s && match (d.msu s m).flight with
  | f :: _ => f.1 ≤ d.anow
  | [] => false

/-- The oldest bytes in flight enter the read assembly buffer, or the output of an elastic MSU. -/
def deliveryEffect (s : SiteId) (m : MsuId) (d : Dev) : Dev :=
  match (d.msu s m).flight with
  | [] => d
  | (due, sec, bs) :: rest =>
    if (d.tile s).msuCfgMode m == 2 then
      (d.modPos s (msuPos m) fun p => { p with
          outQ := vmodN p.outQ 0 fun q => q ++ [(due + 1, Token.ofBytes 0#3 bs)] }).modMsu s m
        fun u => { u with flight := rest, elFlight := u.elFlight - 1 }
    else d.modMsu s m fun u =>
      if sec then { u with flight := rest, asmS := u.asmS ++ bs } else { u with flight := rest, asmP := u.asmP ++ bs }

/-- READ_DELIVERY (R164). -/
def execReadDelivery (s : SiteId) (m : MsuId) (st : State) : Host.Outcome State Fault Refusal :=
  onEvent st (deliveryEnabled s m) fun _ => deliveryEffect s m

/-! ### PANEL_ZERO (R165) -/

/-- The section is idle in this cycle: nothing has been granted and no port presents an access. -/
def panelZeroEnabled (s : SiteId) (sec : Fin 4) (d : Dev) : Bool :=
  grantEnabled s sec d && !(d.tile s).spad.zeroQ[sec].isEmpty &&
    ((d.tile s).pick sec.val (d.tileLive s) (d.tileUp s) d.anow).isNone

/-- The zeroing engine writes the next row of the panel at the head of the section's queue. -/
def panelZeroEffect (s : SiteId) (sec : Fin 4) (d : Dev) : Dev :=
  match (d.tile s).spad.zeroQ[sec] with
  | (panel, _) :: _ => d.modSpad s fun p =>
      { p.zeroRow panel with lastGrant := vsetN p.lastGrant sec.val (some d.anow) }
  | [] => d

/-- PANEL_ZERO (R165). -/
def execPanelZero (s : SiteId) (sec : Fin 4) (st : State) : Host.Outcome State Fault Refusal :=
  onEvent st (panelZeroEnabled s sec) fun _ => panelZeroEffect s sec

/-! ### MSU_PATTERN_COMPLETE (R185, R187) -/

/-- The running pattern of a generator has completed: an empty one in the cycle after it began to run, a read when its
last token has been emitted, a write when its last access has been granted. -/
def patternDone (d : Dev) (s : SiteId) (m : MsuId) (write : Bool) : Bool :=
  let u := d.msu s m
  let g := if write then u.wr else u.rd
  let x := g.x
  g.running.isSome && !g.stopped &&
    (if pdEmpty x then g.since < d.anow
     else if write then pdRuns x ≤ g.run && (pdIlv x != 1 || pdSecTotal x ≤ g.secRun)
     else g.outPrim == pdPrimTokens x && g.outSec == pdSecTokens x && (d.pos s (msuPos m)).outQ[0].isEmpty)

def patternEnabled (s : SiteId) (m : MsuId) (write : Bool) (d : Dev) : Bool := d.tileLive s && patternDone d s m write

/-- The completion record (R187). -/
def patternRecord (g : Gen) (write : Bool) : BitVec 64 :=
  BitVec.ofNat 64 (pdStepId g.x + (if write then 2 ^ 16 else 0) + 2 ^ 17 + min g.accesses (2 ^ 32 - 1) * 2 ^ 32)

/-- The pattern completes: record, count, next pattern, sample and bell. -/
def patternEffect (s : SiteId) (m : MsuId) (write : Bool) (d : Dev) : Dev :=
  let u := d.msu s m
  let g := if write then u.wr else u.rd
  let x := g.x
  let issued := ((g.running.map (·.at_)).getD 0)
  let ctx := ((g.running.map (·.ctx.val)).getD 0)
  let d := d.modMsu s m fun u =>
    let u := { u with done := u.done.push d.now (patternRecord g write), complete := u.complete + 1 }
    if write then { u with wr := u.wr.next d.anow } else { u with rd := u.rd.next d.anow }
  let d := d.firedOne s (msuPos m)
  let d := d.sample s { kind := 2, addr := if pdMode x == 0 then pdBase x else g.first.getD (pdBase x), latency := d.anow - issued, step := pdStepId x,
                        unit := (msuUnit m).val, ctx := ctx }
  if pdBellEn x then d.bellLater s (pdBell x) 1 else d

/-- MSU_PATTERN_COMPLETE (R187). -/
def execMsuPatternComplete (s : SiteId) (m : MsuId) (write : Bool) (st : State) : Host.Outcome State Fault Refusal :=
  onEvent st (patternEnabled s m write) fun _ => patternEffect s m write

/-! ### Reads of completion records (R9, R187, R200) -/

/-- A read of MSU_DONE removes the record that was oldest before the cycle's pushes, and LOST with it (R9). -/
def msuDoneEffect (s : SiteId) (m : MsuId) (d : Dev) : Dev :=
  (d.show ((d.msu s m).done.value d.now 18)).modMsu s m fun u => { u with done := u.done.taken d.now }

/-- MSU_DONE_READ (R187). -/
def execMsuDoneRead (s : SiteId) (m : MsuId) (st : State) : Host.Outcome State Fault Refusal :=
  onEvent st (fun d => d.running && d.hasTile s) fun _ => msuDoneEffect s m

/-- A read of MSU_MV_DONE does the same. -/
def mvDoneEffect (s : SiteId) (m : MsuId) (d : Dev) : Dev :=
  (d.show ((d.msu s m).mv.done.value d.now 18)).modMsu s m fun u => { u with
    mv := { u.mv with done := u.mv.done.taken d.now } }

/-- MSU_MV_DONE_READ (R200). -/
def execMsuMvDoneRead (s : SiteId) (m : MsuId) (st : State) : Host.Outcome State Fault Refusal :=
  onEvent st (fun d => d.running && d.hasTile s) fun _ => mvDoneEffect s m

end Sys2Proof.Machine
end

