-- ==== Sys2Proof/Machine/Lofts.lean ====
section
/-!
DEFINITION. Meanings of the loft commands: request issue and acceptance, merge windows, returns and bursts, completions
of transfers and updates, patrol scrub, refresh, sparing and zeroing (R191 to R215, R273 to R286, R442, R495 to R497).
-/
namespace Sys2Proof.Machine

/-! ### MOVER_REQUEST_ISSUE (R198, R199, R275) -/

/-- Index of the paddock that a site's requests carry (R196). -/
def Dev.reqPad (d : Dev) (s : SiteId) : Nat := ((d.padOf s).map (·.val)).getD 16

/-- Raise a mover's or update path's fault before the request is issued (R215, R286). -/
def Dev.engineFault (d : Dev) (s : SiteId) (m : MsuId) (upd : Bool) (code addr : Nat) : Dev :=
  d.srcFault s m false (if upd then .upd else .mover) code addr

/-- `n` bytes of a null row (R198): a LOAD writes zero bytes at `sp`, a STORE moves nothing. -/
def Dev.nullRow (d : Dev) (s : SiteId) (m : MsuId) (sp n : Nat) : Dev :=
  let t := d.tile s
  let mv := (t.msus[m]).mv
  let x := mv.x
  if mvStore x then d.modMsu s m fun u => { u with mv := u.mv.advance n d.now }
  else
    let stream := mvRegEn x && (t.mvReg m).mode == 1
    let w : InWrite :=
      { seq := mv.seq, at_ := if stream then mv.strIssued else sp, region := if stream then some (mvRegion x) else none,
        bytes := List.replicate n 0#8 }
    d.modMsu s m fun u =>
      let v := u.mv.modJob u.mv.seq fun j => { j with outstanding := j.outstanding + n }
      { u with mv := { v with
          inBuf := v.inBuf ++ [w],
          strIssued := if stream then v.strIssued + n else v.strIssued }.advance n d.now }

/-- Issue a mover's request. -/
def Dev.mvIssue (d : Dev) (s : SiteId) (m : MsuId) (lin len sp : Nat) : Dev :=
  let t := d.tile s
  let mv := (t.msus[m]).mv
  let x := mv.x
  let units := len / 64
  let stream := mvRegEn x && (t.mvReg m).mode == 1
  let r : LoftReq :=
    { who := .mover s m mv.seq, pad := d.reqPad s, write := mvStore x, addr := lin, len := len,
      data := if mvStore x then mv.outBuf.take len else [],
      dest := if stream then mv.strIssued else sp,
      region := if stream then some (mvRegion x) else none }
  let d := d.modMsu s m fun u =>
    let v := u.mv.modJob u.mv.seq fun j => { j with units := j.units + units, outstanding := j.outstanding + len }
    { u with mv := { v with
        lastIssue := some d.now,
        outBuf := if mvStore x then v.outBuf.drop len else v.outBuf,
        inFlight := if mvStore x then v.inFlight else v.inFlight + 1,
        strIssued := if stream && !mvStore x then v.strIssued + len else v.strIssued }.advance len d.now }
  (d.countFixed s 5 units).toLoft s (mvPrio x) r

/-- A mover's next step: null rows cost no DRAM slot, so up to `fuel` pieces of them go before a request. A request that finds
no room on its way is held (R202). -/
def Dev.mvStep (d : Dev) (s : SiteId) (m : MsuId) : Nat → Dev
  | 0 => d
  | fuel + 1 =>
    let t := d.tile s
    let mv := (t.msus[m]).mv
    match mv.next t.ctl (t.mvReg m) with
    | .nothing => d
    | .nullRow sp n => Dev.mvStep (d.nullRow s m sp n) s m fuel
    | .fault c a => d.engineFault s m false c a
    | .request lin len sp =>
      let store := mvStore mv.x
      if !d.loftRoom s m (dramLoft lin) (if store then loftFlits len else 1) (mvPrio mv.x) then d
      else if (if store then len ≤ mv.outBuf.length else mv.inFlight < 256) then d.mvIssue s m lin len sp
      else d

/-- The update path's next DRAM request, where it has room on its way (R202, R275). -/
def Dev.updStep (d : Dev) (s : SiteId) (m : MsuId) : Dev :=
  let t := d.tile s
  let u := (t.msus[m]).upd
  let base : LoftReq :=
    { who := .update s m u.seq, pad := d.reqPad s, write := false, addr := 0, len := 0 }
  let issue (units owed : Nat) (r : LoftReq) : Dev :=
    if !d.loftRoom s m (dramLoft r.addr) (if r.write then loftFlits r.len else 1) false then d
    else ((d.modMsu s m fun v => { v with upd := { v.upd.sent units owed d.now with lastIssue := some d.now } }).countFixed
      s 5 units).toLoft s false r
  match u.want t.ctl with
  | .read lin len clear =>
    issue (len / 64) (if clear then len else 0) { base with addr := lin, len := len, clear := clear }
  | .write lin bs => issue (bs.length / 64) bs.length { base with write := true, addr := lin, len := bs.length, data := bs }
  | .fault c a => d.engineFault s m true c a
  | _ => d

def moverIssueEnabled (s : SiteId) (m : MsuId) (d : Dev) : Bool :=
  d.tileLive s &&
    (if (d.tile s).msuCfgMode m == 3 then (d.msu s m).upd.lastIssue != some d.now
     else (d.msu s m).mv.lastIssue != some d.now)

def moverIssueEffect (s : SiteId) (m : MsuId) (d : Dev) : Dev :=
  let d := d.modMsu s m fun u => { u with mv := u.mv.settle d.now }
  if (d.tile s).msuCfgMode m == 3 then d.updStep s m else d.mvStep s m 64

/-- MOVER_REQUEST_ISSUE (R199). -/
def execMoverRequestIssue (s : SiteId) (m : MsuId) (st : State) : Host.Outcome State Fault Refusal :=
  onEvent st (moverIssueEnabled s m) fun _ => moverIssueEffect s m

/-! ### LOFT_REQUEST_ACCEPT (R201 to R207) -/

/-- MSU index of a direct request. -/
def LoftReq.msu (r : LoftReq) : Nat := r.who.site.2.val

/-- The direct request that the controller takes next: of the lowest MSU index, the oldest, once it has arrived. -/
def Loft.nextDirect (l : Loft) (now : Nat) : Option LoftReq :=
  (List.range 8).findSome? fun m => l.direct.find? fun r => r.msu == m && r.arrive ≤ now

/-- A tag or entry is free for the request, or it joins an open window (R202, R203). -/
def Loft.canTake (l : Loft) (r : LoftReq) (now : Nat) : Bool :=
  if r.write then (l.acceptWrite (dramOff r.addr) r.len now).isSome else (l.acceptRead r now).isSome

/-- Requests accepted in this NCLK cycle on the direct path and on the router port. -/
def Loft.taken (l : Loft) (now : Nat) : Nat × Nat := if l.acceptCyc == now then (l.acceptDirect, l.acceptRouter) else (0, 0)

/-- The request of the named path that can be accepted in this cycle. -/
def Loft.acceptable (l : Loft) (router : Bool) (now : Nat) : Option LoftReq :=
  let (dn, rn) := l.taken now
  let direct := if dn < 4 && rn == 0 then (l.nextDirect now).filter fun r => l.canTake r now else none
  if router then
    (if rn == 0 && direct.isNone then (l.router.head?).filter fun r => l.canTake r now else none)
  else direct

/-- Take a request out of its path and count it in the cycle. -/
def Loft.unqueue (l : Loft) (router : Bool) (r : LoftReq) (now : Nat) : Loft :=
  let (dn, rn) := l.taken now
  { l with
    direct := if router then l.direct else eraseFirst (fun q => q == r) l.direct,
    router := if router then l.router.drop 1 else l.router,
    acceptCyc := now,
    acceptDirect := if router then dn else dn + 1,
    acceptRouter := if router then rn + 1 else rn }

/-- A write, or a read that zeroes, of `n` bytes is known to be accepted: its engine owes that much less (R200, R281). -/
def Dev.accepted (d : Dev) (r : Requester) (n : Nat) : Dev :=
  let pay (j : MvJob) : MvJob := { j with outstanding := j.outstanding - n }
  match r with
  | .mover s m seq => d.modMsu s m fun u => { u with mv := u.mv.modJob seq pay }
  | .update s m seq => d.modMsu s m fun u => { u with upd := u.upd.modJob seq pay }

/-- The request lies in a window granted to its paddock (R196). -/
def Dev.windowOk (d : Dev) (l : SiteId) (r : LoftReq) : Bool :=
  match (finOf 16 r.pad).bind d.pad with
  | some p => p.granted l.val (dramOff r.addr) r.len
  | none => false

/-- The controller performs the request on its block (R205): a read takes its bytes, and what is uncorrectable among them; a
write stores them. A read-and-zero leaves a chunk with an uncorrectable codeword as it is, and keeps the block as it would be
without the zeroing until its data leave (R272, R286). -/
def Loft.performReq (l : Loft) (r : LoftReq) (now : Nat) : Loft :=
  let off := dramOff r.addr
  if r.write then ((l.acceptWrite off r.len now).getD l).store off r.data now
  else
    let bad := l.badOf off r.len
    let zeroes := r.clear && bad.isEmpty
    let keep : Mem := l.mem.filter fun c => offBlock c.1 == offBlock off
    let r' := { r with data := l.mem.readN off r.len, bad := bad, shadow := if zeroes then some keep else none }
    let l := if zeroes then l.update off r.len now fun m => m.clear off (off + r.len) else l
    (l.acceptRead r' now).getD l

def acceptEnabled (l : SiteId) (router : Bool) (d : Dev) : Bool :=
  d.running && ((d.loft l).acceptable router d.now).isSome

def acceptEffect (l : SiteId) (router : Bool) (d : Dev) : Dev :=
  match (d.loft l).acceptable router d.now with
  | none => d
  | some r =>
    let d := d.modLoft l fun lo => lo.unqueue router r d.now
    if !d.windowOk l r then d.faultRequester r.who (!r.write) 0x300A r.addr 0xFF
    else
      let d := d.modLoft l fun lo => lo.performReq r d.now
      if !(r.write || r.clear) then d
      else if !router then d.accepted r.who r.len
      else if r.write then
        d.loftAnswer l r.who.site.1 1 r.prio (finOf 16 r.pad) 0 (.loftAck r.who r.len)
      else d

/-- LOFT_REQUEST_ACCEPT (R202). -/
def execLoftRequestAccept (l : SiteId) (router : Bool) (st : State) : Host.Outcome State Fault Refusal :=
  onEvent st (acceptEnabled l router) fun _ => acceptEffect l router

/-! ### MERGE_WINDOW_CLOSE (R203) -/

/-- A window on the block has ended. -/
def mergeCloseEnabled (l : SiteId) (block : Nat) (d : Dev) : Bool :=
  let ended (o : Option Nat) : Bool := match o with | some t => t ≤ d.now | none => false
  d.running && ((d.loft l).tags.any (fun t => t.block == block && ended t.openUntil) ||
    (d.loft l).writes.any fun w => w.block == block && ended w.openUntil)

/-- The windows on the block that have ended close. -/
def mergeCloseEffect (l : SiteId) (block : Nat) (d : Dev) : Dev :=
  let shut (o : Option Nat) : Option Nat := o.filter fun t => d.now < t
  d.modLoft l fun lo => { lo with
    tags := lo.tags.map fun t => if t.block == block then { t with openUntil := shut t.openUntil } else t,
    writes := lo.writes.map fun w => if w.block == block then { w with openUntil := shut w.openUntil } else w }

/-- MERGE_WINDOW_CLOSE (R203). -/
def execMergeWindowClose (l : SiteId) (block : Nat) (st : State) : Host.Outcome State Fault Refusal :=
  onEvent st (mergeCloseEnabled l block) fun _ => mergeCloseEffect l block

/-! ### LOFT_READ_RETURN (R204, R212) -/

/-- The oldest tag whose window has ended or closed (R203). -/
def Loft.readyTag (l : Loft) (now : Nat) : Option LoftTag := l.tags.find? fun t => !windowOpen t.openUntil now

def readReturnEnabled (l : SiteId) (d : Dev) : Bool := d.running && ((d.loft l).readyTag d.now).isSome

/-- Codewords of a request's bytes that are uncorrectable: those it met when it was performed, and those found since that no
write has covered (R205, R212). -/
def Loft.badNow (l : Loft) (t : LoftTag) (r : LoftReq) : List Nat :=
  r.bad ++ (l.badOf (dramOff r.addr) r.len).filter fun u => !(r.bad.contains u) && !(t.redone.contains u)

/-- One requester of a tag gets its bytes, or its fault where they hold an uncorrectable codeword. -/
def Dev.returnOne (d : Dev) (l : SiteId) (t : LoftTag) (r : LoftReq) : Dev :=
  match (d.loft l).badNow t r with
  | u :: _ => d.faultRequester r.who true 0xE001 (l.val * 2 ^ 33 + 64 * (u / 4)) 1
  | [] =>
    if r.who.site.1 == l then d.modLoft l fun lo => { lo with back := lo.back ++ [(d.now + 4, r, r.data)] }
    else d.loftAnswer l r.who.site.1 1 r.prio (finOf 16 r.pad) r.len (.loftData r r.data)

/-- The bytes of codeword `u` in a request's data are replaced. -/
def LoftReq.swapWord (r : LoftReq) (u : Nat) (bs : Bytes) : LoftReq :=
  { r with data := (List.range r.len).map fun i =>
      let o := dramOff r.addr + i
      if o / 16 == u then (bs[o % 16]?).getD 0#8 else (r.data[i]?).getD 0#8 }

/-- The bytes of a read-and-zero that met an uncorrectable codeword stand as they would without the zeroing (R286). -/
def Loft.unzero (l : Loft) (r : LoftReq) : Loft :=
  match r.shadow with
  | none => l
  | some m =>
    let a := dramOff r.addr
    { l with mem := (m.filter fun c => a ≤ c.1 && c.1 < a + r.len).foldl (fun x c => x.write c.1 c.2) (l.mem.clear a (a + r.len)) }

/-- Codeword `u` holds bytes of the request. -/
def LoftReq.meets (r : LoftReq) (u : Nat) : Bool := (wordsIn (dramOff r.addr) r.len).contains u

/-- What the code finds in codeword `u` of a tag's block when the data leave, for the tag: counts and marks of the loft, and
the tag's requests with the data that they deliver (R211, R212). -/
def Dev.returnCode (d : Dev) (l : SiteId) (t : LoftTag) (u : Nat) (ecc : DramEcc) : Dev × LoftTag :=
  let off := 16 * u
  let fresh := !(t.redone.contains u)
  let counted (d : Dev) : Dev := d.modLoft l fun lo => lo.corrected l.val off d.now
  let other (d : Dev) : Dev × LoftTag :=
    let bs := padTo 16 (Config.passedData d.freeCtr)
    let d := { d with freeCtr := d.freeCtr + 1 }
    let d := if fresh && !(t.reqs.any fun r => r.shadow.isSome && r.meets u) then d.modLoft l fun lo => { lo with mem := lo.mem.writeN off bs } else d
    (d, { t with reqs := t.reqs.map fun r => r.swapWord u bs })
  match ecc with
  | .clean => (d, t)
  | .corrected => (counted d, t)
  | .passed => other d
  | .miscorrected => other (counted d)
  | .uncorrectable =>
    let d := d.modLoft l fun lo =>
      let lo := (t.reqs.filter fun r => r.meets u).foldl Loft.unzero (lo.foundBad off d.now)
      if fresh then { lo with badWords := insertNat u lo.badWords } else lo
    (d, { t with reqs := t.reqs.map fun r => if r.meets u then { r with bad := insertNat u r.bad, shadow := none } else r })

/-- The oldest closed tag leaves the controller. `found` says what the code finds in codewords of its block; those that its
requests met as uncorrectable already are found so again (R212, R214). -/
def readReturnEffect (l : SiteId) (found : List (Fin 32 × DramEcc)) (d : Dev) : Dev :=
  match (d.loft l).readyTag d.now with
  | none => d
  | some t =>
    let d := d.modLoft l fun lo => { lo with tags := eraseFirst (fun q => q == t) lo.tags }
    let known := (t.reqs.flatMap fun r => (d.loft l).badNow t r).dedup
    let d := known.foldl (fun d u => d.modLoft l fun lo => lo.foundBad (16 * u) d.now) d
    let (d, t) := found.foldl (fun (x : Dev × LoftTag) f =>
      let u := t.block * 32 + f.1.val
      if known.contains u then x else x.1.returnCode l x.2 u f.2) (d, t)
    t.reqs.foldl (fun d r => d.returnOne l t r) d

/-- LOFT_READ_RETURN (R204). -/
def execLoftReadReturn (l : SiteId) (found : List (Fin 32 × DramEcc)) (st : State) : Host.Outcome State Fault Refusal :=
  onEvent st (readReturnEnabled l) fun _ => readReturnEffect l found

/-! ### DRAM_WRITE_BURST (R202) -/

def writeBurstEnabled (l : SiteId) (d : Dev) : Bool :=
  d.running && (d.loft l).writes.any fun w => !windowOpen w.openUntil d.now

/-- The oldest closed write entry has been written to DRAM and is freed. -/
def writeBurstEffect (l : SiteId) (d : Dev) : Dev :=
  d.modLoft l fun lo => { lo with writes := eraseFirst (fun w => !windowOpen w.openUntil d.now) lo.writes }

/-- DRAM_WRITE_BURST (R202). -/
def execDramWriteBurst (l : SiteId) (st : State) : Host.Outcome State Fault Refusal :=
  onEvent st (writeBurstEnabled l) fun _ => writeBurstEffect l

/-! ### Completion of transfers and updates (R200, R281) -/

/-- A transfer whose requests have all been issued completes after a stop as well, until the tile is reloaded (R215,
R441). -/
def moverCompleteEnabled (s : SiteId) (m : MsuId) (d : Dev) : Bool :=
  d.running && d.hasTile s && ((d.msu s m).mv.finished d.now).isSome

def moverCompleteEffect (s : SiteId) (m : MsuId) (d : Dev) : Dev :=
  match (d.msu s m).mv.finished d.now with
  | none => d
  | some j =>
    let x := j.issued.desc
    let d := d.modMsu s m fun u =>
      { u with mv := { u.mv with
          done := u.mv.done.push d.now (mvRecord j), jobs := eraseFirst (fun k => k == j) u.mv.jobs,
          bytesMoved := u.mv.bytesMoved + 64 * j.units } }
    if mvBellEn x then d.bellLater s (mvBell x) 1 else d

/-- MOVER_TRANSFER_COMPLETE (R200). -/
def execMoverTransferComplete (s : SiteId) (m : MsuId) (st : State) : Host.Outcome State Fault Refusal :=
  onEvent st (moverCompleteEnabled s m) fun _ => moverCompleteEffect s m

/-- An update whose requests have all been accepted completes after a stop as well (R281, R441). -/
def updateCompleteEnabled (s : SiteId) (m : MsuId) (d : Dev) : Bool :=
  d.running && d.hasTile s && ((d.msu s m).upd.finished d.now).isSome

def updateCompleteEffect (s : SiteId) (m : MsuId) (d : Dev) : Dev :=
  match (d.msu s m).upd.finished d.now with
  | none => d
  | some j =>
    let x := j.issued.desc
    let d := d.modMsu s m fun u =>
      { u with
        mv := { u.mv with done := u.mv.done.push d.now (udRecord j), bytesMoved := u.mv.bytesMoved + 64 * j.units },
        upd := { u.upd with jobs := eraseFirst (fun k => k == j) u.upd.jobs },
        complete := u.complete + 1 }
    let d := d.firedOne s (msuPos m)
    if udBellEn x then d.bellLater s (udBell x) 1 else d

/-- UPDATE_COMPLETE (R281). -/
def execUpdateComplete (s : SiteId) (m : MsuId) (st : State) : Host.Outcome State Fault Refusal :=
  onEvent st (updateCompleteEnabled s m) fun _ => updateCompleteEffect s m

/-! ### PATROL_SCRUB (R213) and REFRESH_RATE_CHANGE (R209, R210) -/

/-- The 12-hour pass of the scrub in which an NCLK cycle lies, and the codewords that it has read (R213). -/
def scrubPass (now : Nat) : Nat := now / (day / 2)
def Loft.patrolSeen (l : Loft) (now : Nat) : List Nat := if l.patrolPass == scrubPass now then l.patrolled else []

/-- The scrub reads every codeword once in 12 hours: one that it has not read in the pass (R213). -/
def patrolEnabled (l : SiteId) (off : BitVec 33) (d : Dev) : Bool :=
  d.running && (d.loft l).trained && !((d.loft l).patrolSeen d.now).contains (off.toNat / 16)

/-- A scrub reads the codeword at an offset: a corrected one is written back and counted; an uncorrectable one is counted, posted
to the yardmaster and left. -/
def Dev.scrubCode (d : Dev) (l : SiteId) (o : Nat) (ecc : DramEcc) : Dev :=
  let d := d.dramCode l o ecc
  if ((d.loft l).badOf o 1).isEmpty then d
  else d.post 0 4 l.val 0xE001 (payloadE (l.val * 2 ^ 33 + o / 64 * 64) l.val 0xFF 1 0xFF 0 0)

/-- The patrol scrub reads one codeword. -/
def patrolEffect (l : SiteId) (off : BitVec 33) (ecc : DramEcc) (d : Dev) : Dev :=
  let d := d.modLoft l fun lo => { lo with
    patrolPass := scrubPass d.now, patrolled := insertNat (off.toNat / 16) (lo.patrolSeen d.now) }
  d.scrubCode l off.toNat ecc

/-- PATROL_SCRUB (R213). -/
def execPatrolScrub (l : SiteId) (off : BitVec 33) (ecc : DramEcc) (st : State) : Host.Outcome State Fault Refusal :=
  onEvent st (patrolEnabled l off) fun _ => patrolEffect l off ecc

/-- Refresh rate by the hottest sensor in units of 0.125 °C, with the two thresholds of each step (R209). -/
def refreshOf (cur : Nat) (temp : Int) : Nat :=
  let t := temp
  if 95 * 8 ≤ t then 2
  else if cur == 2 && 93 * 8 ≤ t then 2
  else if 85 * 8 ≤ t then 1
  else if cur ≥ 1 && 83 * 8 ≤ t then 1
  else 0

/-- The hottest of a loft's eight layer sensors (R209). -/
def hottestOf (layers : Vector (BitVec 16) 8) : BitVec 16 :=
  layers.toList.foldl (fun a b => if a.toInt < b.toInt then b else a) layers[0]

/-- A loft's sensors report; the rate follows the hottest, and above 105 °C the alert DRAM_HOT is raised (R209, R210). -/
def refreshEffect (l : SiteId) (layers : Vector (BitVec 16) 8) (d : Dev) : Dev :=
  let hottest := hottestOf layers
  let d := d.modLoft l fun lo => { lo with
    layers := layers, temp := hottest, refresh := BitVec.ofNat 8 (refreshOf lo.refresh.toNat hottest.toInt) }
  if 105 * 8 < hottest.toInt then d.alert alertDramHot else d

/-- REFRESH_RATE_CHANGE (R209). -/
def execRefreshRateChange (l : SiteId) (layers : Vector (BitVec 16) 8) (st : State) : Host.Outcome State Fault Refusal :=
  onEvent st Dev.running fun _ => refreshEffect l layers

/-! ### Sparing (R495 to R497) -/

/-- The row of a channel and bank, as `rowKey` numbers it. -/
def rowOf (ch : Fin 64) (bank : Fin 16) (row : Fin 4096) : Nat := ch.val * 65536 + bank.val * 4096 + row.val

/-- Spare rows used in a bank. -/
def Loft.bankSpares (l : Loft) (ch bank : Nat) : Nat := (l.sparedRows.filter fun r => r / 4096 == ch * 16 + bank).length

/-- A row meets a threshold of R495: corrected codewords at 4 distinct addresses, or one address 4 times, within 24 h, or an
uncorrectable one. -/
def Loft.rowBad (l : Loft) (key now : Nat) : Bool :=
  let ces := l.ceHist.filter fun x => x.1 == key && now < x.2.2 + day
  let addrs := ces.map (·.2.1)
  4 ≤ addrs.dedup.length || addrs.any (fun a => 4 ≤ (addrs.filter (· == a)).length) ||
    l.ueHist.any fun x => x.1 == key

def rowSparedEnabled (l : SiteId) (ch : Fin 64) (bank : Fin 16) (row : Fin 4096) (d : Dev) : Bool :=
  d.worvis && (d.loft l).rowBad (rowOf ch bank row) d.now && (d.loft l).bankSpares ch.val bank.val < 8

/-- Offset in the loft of the row's first byte (R191). -/
def rowOffset (ch : Fin 64) (bank : Fin 16) (row : Fin 4096) : Nat := row.val * 2 ^ 21 + bank.val * 2 ^ 15 + ch.val * 2 ^ 9

/-- The row is copied to a spare: recorded in the loft's repair table, and posted. Data and uncorrectable codewords stay
what they were at the row's addresses (R496). -/
def rowSparedEffect (l : SiteId) (ch : Fin 64) (bank : Fin 16) (row : Fin 4096) (d : Dev) : Dev :=
  let key := rowOf ch bank row
  let d := d.modLoft l fun lo => { lo with
    sparedRows := lo.sparedRows ++ [key],
    ceHist := lo.ceHist.filter fun x => x.1 != key,
    ueHist := lo.ueHist.filter fun x => x.1 != key }
  let d := { d with rowSpares := d.rowSpares ++ [(l.val, ch.val, bank.val, row.val)] }
  d.post 0 4 l.val 0xE007 (payloadE (l.val * 2 ^ 33 + rowOffset ch bank row) l.val 0xFF 1 0xFF 0
    (8 - (d.loft l).bankSpares ch.val bank.val))

/-- ROW_SPARED (R495). -/
def execRowSpared (l : SiteId) (ch : Fin 64) (bank : Fin 16) (row : Fin 4096) (st : State) :
    Host.Outcome State Fault Refusal :=
  onEvent st (rowSparedEnabled l ch bank row) fun _ => rowSparedEffect l ch bank row

/-- A channel meets a condition of R495, the parity of its paths apart: a bank without spares needs one, or 4 banks gave
uncorrectable codewords within 1 h. -/
def Loft.channelBad (l : Loft) (ch now : Nat) : Bool :=
  ((List.range 16).any fun b => 8 ≤ l.bankSpares ch b &&
    ((l.ceHist.map (·.1) ++ l.ueHist.map (·.1)).any fun k => k / 4096 == ch * 16 + b && l.rowBad k now)) ||
    4 ≤ ((l.ueHist.filter fun x => x.1 / 65536 == ch && now < x.2 + hour).map fun x => x.1 / 4096).dedup.length

/-- The layer of a channel has its spare in use. -/
def Loft.layerSpent (l : Loft) (ch : Nat) : Bool := l.sparedChans.any fun c => c / 8 == ch / 8

def channelSparedEnabled (l : SiteId) (ch : Fin 64) (path : ChanPath) (d : Dev) : Bool :=
  d.worvis && !(d.loft l).deadChans.contains ch.val && (path != .sound || (d.loft l).channelBad ch.val d.now)

/-- What a loft has noted of a channel is forgotten. -/
def Loft.forgetChan (l : Loft) (ch : Nat) : Loft :=
  { l with
    ceHist := l.ceHist.filter fun x => x.1 / 65536 != ch
    ueHist := l.ueHist.filter fun x => x.1 / 65536 != ch
    pathErrs := l.pathErrs.filter fun x => x.1 != ch }

/-- A channel is lost (R497): reported, and out of service where its path has failed. -/
def Dev.loseChan (d : Dev) (l : SiteId) (ch : Fin 64) (dead : Bool) : Dev :=
  let d := d.modLoft l fun lo => { lo.forgetChan ch.val with
    lostChans := insertNat ch.val lo.lostChans,
    deadChans := if dead then insertNat ch.val lo.deadChans else lo.deadChans }
  (d.post 0 4 l.val 0xE009
    (payloadE 0 l.val 0xFF 1 0xFF ch.val (8 - (d.loft l).sparedChans.length))).health.deadWindows

/-- A channel takes its layer's spare where that is free, with that spare's own spare rows, and else is lost but stays in service
(R495 to R497). -/
def Dev.spareChan (d : Dev) (l : SiteId) (ch : Fin 64) : Dev :=
  if (d.loft l).layerSpent ch.val then d.loseChan l ch false
  else
    let d := { d with rowSpares := d.rowSpares.filter fun r => !(r.1 == l.val && r.2.1 == ch.val) }
    let d := d.modLoft l fun lo => { lo.forgetChan ch.val with
      sparedChans := insertNat ch.val lo.sparedChans, sparedRows := lo.sparedRows.filter fun r => r / 65536 != ch.val }
    let d := d.recordRepair (.channel l ch.val)
    (d.post 0 4 l.val 0xE008
      (payloadE 0 l.val 0xFF 1 0xFF ch.val (8 - (d.loft l).sparedChans.length))).health

/-- The path of a channel fails its parity check: the third time within 1 s the channel is spared (R495). -/
def Dev.pathParity (d : Dev) (l : SiteId) (ch : Fin 64) : Dev :=
  let errs := (ch.val, d.now) :: (d.loft l).pathErrs.filter fun x => d.now < x.2 + msN 1000
  let d := d.modLoft l fun lo => { lo with pathErrs := errs }
  if 3 ≤ (errs.filter fun x => x.1 == ch.val).length then d.spareChan l ch else d

/-- What happens to a channel: it has met another condition of R495 and is spared, its path fails its parity check once more, or
its path has failed outright, of which no copy can be made. -/
def channelSparedEffect (l : SiteId) (ch : Fin 64) (path : ChanPath) (d : Dev) : Dev :=
  match path with
  | .sound => d.spareChan l ch
  | .parity => d.pathParity l ch
  | .failed => d.loseChan l ch true

/-- CHANNEL_SPARED (R496). -/
def execChannelSpared (l : SiteId) (ch : Fin 64) (path : ChanPath) (st : State) : Host.Outcome State Fault Refusal :=
  onEvent st (channelSparedEnabled l ch path) fun _ => channelSparedEffect l ch path

/-! ### WINDOW_ZEROING_COMPLETE (R442) -/

def zeroingEnabled (l : SiteId) (base4k : Nat) (d : Dev) : Bool :=
  d.running && (d.loft l).zeroing.any fun z => z.1 == base4k

/-- The returned window reads as zero and can be granted again. -/
def zeroingEffect (l : SiteId) (base4k : Nat) (d : Dev) : Dev :=
  match (d.loft l).zeroing.find? fun z => z.1 == base4k with
  | none => d
  | some (b, n) => d.modLoft l fun lo => { lo with
      mem := lo.mem.clear (b * 4096) ((b + n) * 4096),
      badWords := lo.badWords.filter fun u => 16 * u < b * 4096 || (b + n) * 4096 ≤ 16 * u,
      zeroing := eraseFirst (fun z => z == (b, n)) lo.zeroing }

/-- WINDOW_ZEROING_COMPLETE (R442). -/
def execWindowZeroingComplete (l : SiteId) (base4k : Nat) (st : State) : Host.Outcome State Fault Refusal :=
  onEvent st (zeroingEnabled l base4k) fun _ => zeroingEffect l base4k

end Sys2Proof.Machine
end

