-- ==== Sys2Proof/Machine/MxuUnit.lean ====
section
/-!
DEFINITION. The matrix unit (R101 to R124): the step descriptor, its walk, its ports, row slots, weight swaps, the
drain with its epilogue, and the completion of a step.
-/
namespace Sys2Proof.Machine

/-! ### The step descriptor (R117) -/

def mdShape (x : Nat) : Nat := fld x 0 3
def mdA (x : Nat) : Nat := fld x 4 4
def mdW (x : Nat) : Nat := fld x 8 4
def mdOut (x : Nat) : Nat := fld x 12 4
def mdSaturate (x : Nat) : Bool := bitOf x 16
def mdRound (x : Nat) : Nat := fld x 17 2
def mdSat (x : Nat) : Bool := bitOf x 19
def mdScaleEn (x : Nat) : Bool := bitOf x 20
def mdRelu (x : Nat) : Bool := bitOf x 21
def mdAccInit (x : Nat) : Bool := bitOf x 22
def mdDrain (x : Nat) : Bool := bitOf x 23
def mdBell (x : Nat) : Nat := fld x 24 6
def mdBellEn (x : Nat) : Bool := bitOf x 30
def mdScale (x : Nat) : Nat := fld x 32 32
def mdM (x : Nat) : Nat := fld x 64 32
def mdN (x : Nat) : Nat := fld x 96 32
def mdK (x : Nat) : Nat := fld x 128 32
def mdAccBase (x : Nat) : Nat := fld x 160 12
def mdStepId (x : Nat) : Nat := fld x 176 16

/-- K_s and N_s of the step's shape (R106, R109). -/
def mdKs (x : Nat) : Nat :=
  (match mdShape x with | 2 => 256 | 3 => 512 | _ => 128) * (if dualHalf (mdA x) (mdW x) then 2 else 1)
def mdNs (x : Nat) : Nat := match mdShape x with | 2 => 256 | 3 => 128 | _ => 512

/-- Rows of a block at most (R109). -/
def mdLimit (x : Nat) : Nat :=
  match mdShape x with | 1 => 512 | 2 => 2048 | 3 => 4096 | 4 => 16 | _ => 1024

/-- Rows of the fold (R109). -/
def mdFoldRows (x : Nat) : Nat := match mdShape x with | 2 => 2048 | 3 => 4096 | _ => 1024

/-- HELD_FOLD of the step's fold (R119). -/
def mdFoldCode (x : Nat) : BitVec 2 := match mdShape x with | 2 => 2#2 | 3 => 3#2 | _ => 1#2

/-- DOUBLE and THIN drain while they compute (R109). -/
def mdOverlap (x : Nat) : Bool := mdShape x == 1 || mdShape x == 4

def mdThin (x : Nat) : Bool := mdShape x == 4

/-- A blocked step; every other step is held (R110). -/
def mdBlocked (x : Nat) : Bool := !mdAccInit x && mdDrain x

/-- Passes of the pair (R83). -/
def mdPasses (x : Nat) : List (Nat × Nat) := (passesOf (mdA x) (mdW x)).getD [(0, 0)]

/-- The step moves no token (R123). -/
def mdEmpty (x : Nat) : Bool := mdM x == 0 || mdN x == 0

/-- K chunks of a block, blocks by m and n (R110, R113). -/
def mdChunks (x : Nat) : Nat := ceilDiv (mdK x) (mdKs x)
def mdNBlocks (x : Nat) : Nat := ceilDiv (mdN x) (mdNs x)
def mdMBlocks (x : Nat) : Nat := if mdBlocked x then ceilDiv (mdM x) (mdLimit x) else 1
def mdBlocks (x : Nat) : Nat := if mdEmpty x then 0 else mdMBlocks x * mdNBlocks x

/-- First row, rows, first column and columns of block `i`: m-blocks outermost (R113, R114). -/
def mdBlock (x i : Nat) : Nat × Nat × Nat × Nat :=
  let nb := max 1 (mdNBlocks x)
  let m0 := if mdBlocked x then i / nb * mdLimit x else 0
  let rows := if mdBlocked x then min (mdLimit x) (mdM x - m0) else mdM x
  let n0 := i % nb * mdNs x
  (m0, rows, n0, min (mdNs x) (mdN x - n0))

/-- The half of the accumulator that block `i` uses, and its first accumulator row (R109, R110, R112). -/
def mdHalf (x i : Nat) : Nat := if mdOverlap x then i % 2 else 0
def mdBaseRow (x i : Nat) : Nat :=
  if mdBlocked x then mdHalf x i * (if mdThin x then 16 else 512) else mdAccBase x

/-- Weight tokens of one block: elements, then MX scale tokens (R105, R106). -/
def mdWData (x : Nat) : Nat := mdKs x * mdNs x * fmtWidth (mdW x) / 2048
def mdWTokens (x : Nat) : Nat :=
  mdWData x + (if fmtIsMx (mdW x) then 8 * (if dualHalf (mdA x) (mdW x) then 2 else 1) else 0)

/-- Row of tokens of A that carry row `r` of a sequence of K_s-element rows: tokens needed up to and with it, MX scale
tokens included (R104). -/
def mdANeed (x r : Nat) : Nat :=
  ceilDiv ((r + 1) * mdKs x * fmtWidth (mdA x)) 2048 + (if fmtIsMx (mdA x) then r / (8192 / mdKs x) + 1 else 0)

/-- Element `k` of row `r` of such a sequence, with its block scale. -/
def mdAElem (x : Nat) (toks : List Token) (r k : Nat) : Nat × Nat :=
  let w := fmtWidth (mdA x)
  let idx := r * mdKs x + k
  if fmtIsMx (mdA x) then
    let run := 8192 / mdKs x
    let per := 4 * w
    let t := idx * w / 2048
    let tok := toks[t + t / per + 1]?.getD Token.zero
    let sc := toks[r / run * (per + 1)]?.getD Token.zero
    (tok.elem w (idx % (2048 / w)), sc.elem 8 (r % run * (mdKs x / 32) + k / 32))
  else (elemAt toks w idx, 0)

/-- Weight element (k, n) of a block with its scale: n-major in COLB, else k-major (R105). -/
def mdWElem (x : Nat) (toks : List Token) (k n : Nat) : Nat × Nat :=
  let w := fmtWidth (mdW x)
  let idx := if mdShape x == 5 then n * mdKs x + k else k * mdNs x + n
  let sc := if fmtIsMx (mdW x) then elemAt (toks.drop (mdWData x)) 8 (n * (mdKs x / 32) + k / 32) else 0
  (elemAt toks w idx, sc)

/-! ### Progress of the running step -/

/-- Descriptor of the running step. -/
def Mxu.desc (u : Mxu) : Nat := match u.running with | some r => r.desc.toNat | none => 0

/-- All chunks of the running step. -/
def Mxu.total (u : Mxu) : Nat := mdBlocks u.desc * mdChunks u.desc

/-- Block of chunk number `g`. -/
def chunkBlock (x g : Nat) : Nat := g / max 1 (mdChunks x)

/-- The last row slot of the current chunk has started, or no chunk is active yet. -/
def Mxu.chunkDone (u : Mxu) : Bool :=
  u.active == 0 || (mdBlock u.desc (chunkBlock u.desc (u.active - 1))).2.1 ≤ u.row

/-- Chunk and row of the next row slot. -/
def Mxu.nextSlot (u : Mxu) : Option (Nat × Nat) :=
  if u.chunkDone then (if u.active < u.total then some (u.active, 0) else none) else some (u.active - 1, u.row)

/-- Rows of K_s elements in the THIN hold, and its tokens (R118). -/
def Mxu.holdNeed (u : Mxu) : Nat :=
  let rows := mdM u.desc * mdChunks u.desc
  if rows == 0 then 0 else mdANeed u.desc (rows - 1)

/-- The running step may use its ports: it moves tokens, is not stopped by a fault, and where it draws on a generator the seed that
its start requested has been given (R115, R123, R124, R480). -/
def Mxu.runs (u : Mxu) (seeded : Bool) : Bool :=
  u.running.isSome && !u.stopped && !mdEmpty u.desc && (mdRound u.desc != 2 || seeded)

/-- The descriptor whose block the weight port loads: the running step while it has chunks to load, then the pending
step's first (R113). -/
def Mxu.weightDesc (u : Mxu) : Option Nat :=
  if u.active < u.total then some u.desc
  else match u.pending with
    | some p => if mdEmpty p.desc.toNat || mdK p.desc.toNat == 0 || mdThin p.desc.toNat then none else some p.desc.toNat
    | none => none

/-- Index in the block's sequence of the next token of the weight port, and of the A port in THIN (R107, R118). -/
def Mxu.nextW (u : Mxu) (x : Nat) : Nat := if mdThin x then 2 * u.wTaken else u.wTaken
def Mxu.nextWA (u : Mxu) : Nat := 2 * u.wTakenA + 1

/-- The weight port may take a token. -/
def Mxu.wantsW (u : Mxu) : Bool :=
  match u.weightDesc with
  | some x => u.nextW x < mdWTokens x && (!mdThin x || u.holdNeed ≤ u.hold.length)
  | none => false

/-- The A port may take a token: for the hold, for the shadow, or for the next row slot (R104, R118). -/
def Mxu.wantsA (u : Mxu) : Bool :=
  if mdK u.desc == 0 then false
  else if mdThin u.desc then
    u.hold.length < u.holdNeed || (u.active < u.total && u.nextWA < mdWTokens u.desc)
  else match u.nextSlot with
    | some (_, r) => u.aToks.length < mdANeed u.desc r
    | none => false

/-- Tokens of the shadow that make up a whole block (R107). -/
def Mxu.shadowFull (u : Mxu) : Bool := u.active < u.total && mdWTokens u.desc ≤ u.shadow.length

/-! ### Drain and epilogue (R114, R115) -/

/-- Columns of a block that drain `p` carries: first column within the block and count. -/
def drainCols (x w p : Nat) : Nat × Nat :=
  let h := min w (mdNs x / 2)
  if p == 0 then (0, h) else (h, w - h)

/-- Tokens that drain `p` emits for a block. -/
def drainTokens (x : Nat) (b : DrainBlk) (p : Nat) : Nat :=
  ceilDiv (b.rows * (drainCols x b.width p).2 * fmtWidth (mdOut x)) 2048

/-- The epilogue of one entry (R115): the bits of the output value, and FLUSHED where the scaled product was flushed (R93,
R550). A product that overflows in step 2 becomes an infinity under every ROUND and whatever SATFINITE says, which belongs to
the conversion of step 4 (DESIGN CHOICE, log entry 74: the rule names no result). -/
def epilogue (x entry r1 r2 r3 : Nat) : Nat × AFlags :=
  let rm := Round.ofCode (mdRound x)
  let isF := pairIsFloat (mdA x) (mdW x)
  let entry := if mdK x == 0 then 0 else entry
  let (isF, v, fl) : Bool × Nat × AFlags := if mdScaleEn x then
      let f := if isF then entry else (encodeFloat 8 rm false r1 (.ofInt (signedOf 32 entry))).1
      let (p, fl) := encodeFloat 8 rm false r2 (Val.mul (decodeEl 8 f) (decodeEl 8 (mdScale x)))
      (true, p, fl &&& AFlags.flushed)
    else (isF, entry, AFlags.none)
  let v := if mdRelu x then
      (if isF then
        (match decodeEl 8 v with
         | .nan => v
         | .inf true => 0
         | .fin true _ _ => 0
         | _ => v)
       else if signedOf 32 v < 0 then 0 else v)
    else v
  if isF && mdOut x == 8 then (v, fl)
  else if !isF && mdOut x == 3 then (v, fl)
  else ((encodeEl (mdOut x) rm (mdSat x) r3 (if isF then decodeEl 8 v else .ofInt (signedOf 32 v))).1, fl)

/-- Value of an accumulator entry. -/
def Mxu.entry (u : Mxu) (i : Nat) : Nat := ((lookupNat i u.acc).map (·.toNat)).getD 0

/-- Token `j` of drain `p` of a block, and the flags of its values. `rnd` gives the draws of the drain port's generator. DESIGN
CHOICE, log entry 77: entries stand in the store at row × N_s + column, whatever fold they were written in (R109). -/
def drainToken (u : Mxu) (x : Nat) (b : DrainBlk) (p j : Nat) (rnd : Nat → Nat) : Token × AFlags :=
  let w := fmtWidth (mdOut x)
  let (c0, h) := drainCols x b.width p
  let per := 2048 / w
  let vals := (List.range per).map fun i =>
    let v := j * per + i
    if h == 0 || b.rows * h ≤ v then (0, AFlags.none)
    else epilogue x (u.entry ((b.base + v / h) * mdNs x + c0 + v % h)) (rnd (3 * i)) (rnd (3 * i + 1)) (rnd (3 * i + 2))
  (((packTokens w (vals.map (·.1))).head?).getD Token.zero, AFlags.orAll (vals.map (·.2)))

/-- Blocks that the drain still has to read for port `p`: the first with tokens left. -/
def drainPick (x : Nat) (p : Nat) (l : List DrainBlk) : Option DrainBlk :=
  l.find? fun b => (if p == 0 then b.sent0 else b.sent1) < drainTokens x b p

/-- Blocks that have been read in full leave the drain. DESIGN CHOICE, log entry 77: a block has drained completely when its last
entries are read, not when their token is emitted 4 cycles later (R112, R114). -/
def drainTrim (x : Nat) (l : List DrainBlk) : List DrainBlk :=
  l.filter fun b => b.sent0 < drainTokens x b 0 || b.sent1 < drainTokens x b 1

/-- Hand block `i` of the step to the drain. -/
def Mxu.hand (u : Mxu) (i ready : Nat) : Mxu :=
  let x := u.desc
  let (_, rows, n0, w) := mdBlock x i
  { u with
    drains := u.drains ++ [{ base := mdBaseRow x i, rows := rows, n0 := n0, width := w, half := mdHalf x i, ready := ready }]
    blocksDone := i + 1 }

/-- A step with K = 0 has no chunk: its blocks go to the drain as their half, or the whole store, is free (R112, R123). A held
step runs no row slot then, so a row beyond its fold raises no ACC_OVERFLOW and is drained with the others (DESIGN CHOICE, log
entry 74: R124 names rows that the step reaches). -/
def Mxu.settle (u : Mxu) (now : Nat) : Mxu :=
  let x := u.desc
  if u.running.isSome && !mdEmpty x && mdK x == 0 && mdDrain x && u.blocksDone < mdBlocks x &&
      u.drains.length < (if mdOverlap x then 2 else 1) then u.hand u.blocksDone now else u

/-! ### Port firings (R103) -/

/-- A firing of the MXU in this cycle marks the step's first (R119). -/
def Mxu.mark (u : Mxu) (now : Nat) : Mxu := if u.firstFire.isNone then { u with firstFire := some now } else u

/-- The port may fire in this cycle, tokens and room apart. A port that fills the shadow waits for the cycle after a swap (R107). -/
def Mxu.portReady (u : Mxu) (pt : FirePort) (now : Nat) (seeded : Bool) : Bool :=
  let idle (n : Nat) : Bool := vgetN u.portLast n none != some now
  let free : Bool := u.swapAt != some now
  match pt with
  | .inp n => if n.val = 0 then u.runs seeded && idle 0 && (!mdThin u.desc || free) && u.wantsA
              else if n.val = 1 then !u.stopped && (u.running.isSome) && idle 1 && free && u.wantsW &&
                (u.active ≥ u.total || u.runs seeded)
              else false
  | .outp n => n.val < 2 && u.runs seeded && idle (2 + n.val) &&
      (match drainPick u.desc n.val u.drains with | some b => b.ready < now | none => false)
  | .whole => false

/-- An input port takes a token. -/
def Mxu.take (u : Mxu) (n now : Nat) (t : Token) : Mxu :=
  let u := if n == 1 && u.total ≤ u.active then
      { u with pendFire := match u.pendFire with | none => some now | x => x }
    else u.mark now
  let u := { u with portLast := vsetN u.portLast n (some now) }
  if n == 1 then
    match u.weightDesc with
    | some x => { u with shadow := setKey (u.nextW x) t u.shadow, wTaken := u.wTaken + 1 }
    | none => u
  else if mdThin u.desc then
    if u.hold.length < u.holdNeed then { u with hold := u.hold ++ [t] }
    else { u with shadow := setKey u.nextWA t u.shadow, wTakenA := u.wTakenA + 1 }
  else { u with aToks := u.aToks ++ [t] }

/-- A drain port reads and emits one token: the token, and the unit after it. -/
def Mxu.drain (u : Mxu) (p now : Nat) (rnd : Nat → Nat) : Token × Mxu :=
  let x := u.desc
  match drainPick x p u.drains with
  | none => (Token.zero, u)
  | some b =>
    let j := if p == 0 then b.sent0 else b.sent1
    let b' := if p == 0 then { b with sent0 := b.sent0 + 1 } else { b with sent1 := b.sent1 + 1 }
    let u' := { u.mark now with portLast := vsetN u.portLast (2 + p) (some now) }
    let l := drainTrim x (replaceFirst (fun c => c == b) (fun _ => b') u.drains)
    let (t, fl) := drainToken u x b p j rnd
    (t, { u' with drains := l, flags := u.flags ||| fl }.settle now)

/-! ### Row slots (R102, R108) -/

/-- Cycles from a row slot's start to its accumulator updates (R108). -/
def updateDelay (x : Nat) : Nat := match mdShape x with | 2 => 11 | 3 => 12 | _ => 10

/-- The first row slot of a block waits for the drain (R112): until the block's last entries have been read (DESIGN CHOICE, log
entry 77). -/
def Mxu.drainWaits (u : Mxu) (g r : Nat) : Bool :=
  let x := u.desc
  let i := chunkBlock x g
  r == 0 && g % max 1 (mdChunks x) == 0 &&
    (if mdOverlap x then u.drains.any fun b => b.half == mdHalf x i else !u.drains.isEmpty)

/-- A row slot can start in this cycle. -/
def Mxu.slotReady (u : Mxu) (now : Nat) (seeded : Bool) : Bool :=
  u.runs seeded && !u.chunkDone && u.slotFree ≤ now && !u.drainWaits (u.active - 1) u.row &&
    (if mdThin u.desc then u.holdNeed ≤ u.hold.length else mdANeed u.desc u.row ≤ u.aToks.length)

/-- Limbs of the A elements and of one weight column in K indices `[k0, k0 + 128)` of the chunk (R82, R85); columns at n ≥ N
are taken as zero (R105). DESIGN CHOICE, log entry 77: they meet A as any other zero weight does, so an infinity or a NaN of A
makes their entries NaN. -/
def slotPairs (u : Mxu) (g n k0 : Nat) : List (Limbs × Limbs) :=
  let x := u.desc
  let ck := g % max 1 (mdChunks x)
  let wt := u.activeToks.map (·.2)
  let left := mdK x - (ck * mdKs x + k0)
  (List.range (min 128 (min left (mdKs x - k0)))).map fun i =>
    let k := k0 + i
    let (a, sa) := if mdThin x then mdAElem x u.hold (u.row * mdChunks x + ck) k else mdAElem x u.aToks u.row k
    let (w, sw) := if n < (mdBlock x (chunkBlock x g)).2.2.2 then mdWElem x wt k n else (0, 0)
    (limbsOf (mdA x) a sa, limbsOf (mdW x) w sw)

/-- One entry after a row slot: pass by pass, group by group, one addition each (R85 to R92). DESIGN CHOICE, log entry 77: the
groups of one pass are added in rising K; R100 leaves their order open. -/
def slotEntry (u : Mxu) (g n old : Nat) : Nat × AFlags :=
  let x := u.desc
  let isF := pairIsFloat (mdA x) (mdW x)
  let groups := ((List.range (mdKs x / 128)).map fun q => slotPairs u g n (128 * q)).filter fun ps => !ps.isEmpty
  (mdPasses x).foldl (fun acc ij => groups.foldl (fun (acc : Nat × AFlags) ps =>
    let r := groupResult isF ij.1 ij.2 ps
    let (e, f) := if isF then accAddF32 acc.1 r else accAddInt (mdSaturate x) acc.1 r
    (e, acc.2 ||| f)) acc) (old, 0#8)

/-- Write an accumulator entry; zero entries are not listed. -/
def setAcc (i v : Nat) (acc : List (Nat × Word)) : List (Nat × Word) :=
  if v == 0 then acc.filter fun p => p.1 != i else setKey i (BitVec.ofNat 32 v) acc

/-- The effect of a row slot on the unit (R102, R108, R110). DESIGN CHOICE, log entry 77: the flags of all N_s columns count,
those at n ≥ N too (R90, R93, R105); and an entry's place in the one store is row × N_s + column of the step's fold (R109). -/
def Mxu.rowSlot (u : Mxu) (now : Nat) : Mxu :=
  let x := u.desc
  let g := u.active - 1
  let i := chunkBlock x g
  let rows := (mdBlock x i).2.1
  let first := g % max 1 (mdChunks x) == 0 && !mdAccInit x
  let row := mdBaseRow x i + u.row
  let (acc, fl) := (List.range (mdNs x)).foldl (fun (st : List (Nat × Word) × AFlags) n =>
    let idx := row * mdNs x + n
    let old := if first then 0 else u.entry idx
    let (e, f) := slotEntry u g n old
    (setAcc idx e st.1, st.2 ||| f)) (u.acc, u.flags)
  let last := u.row + 1 == rows
  let upd := now + updateDelay x
  let u := { u with
    acc := acc, flags := fl, row := u.row + 1, slotFree := now + (mdPasses x).length, lastUpdate := upd,
    slotAt := some now,
    aToks := if last then [] else u.aToks }
  let blockEnd := last && (g + 1) % max 1 (mdChunks x) == 0
  if blockEnd then (if mdDrain x then u.hand i upd else { u with blocksDone := i + 1 }) else u

/-- Row of a held step that lies beyond its fold (R124). -/
def Mxu.overflows (u : Mxu) : Bool := !mdBlocked u.desc && mdFoldRows u.desc ≤ mdAccBase u.desc + u.row

/-- A step with ACC_INIT = 1 is issued without matching the held fold (R124). -/
def Mxu.foldMismatch (u : Mxu) (x : Nat) : Bool :=
  mdAccInit x &&
    (u.heldFold != mdFoldCode x || u.heldType != pairIsFloat (mdA x) (mdW x))

/-! ### Weight swap (R107) -/

def Mxu.swapReady (u : Mxu) (now : Nat) (seeded : Bool) : Bool :=
  u.runs seeded && u.shadowFull && u.chunkDone && u.slotFree ≤ now

def Mxu.swap (u : Mxu) (now : Nat) : Mxu :=
  { u with
    activeToks := u.shadow, shadow := [], wTaken := 0, wTakenA := 0, active := u.active + 1, row := 0,
    slotFree := now + 1, swapAt := some now }

/-! ### Completion (R121) -/

/-- The running step has completed by this cycle, its drain ports' output buffers apart. A step with K = 0 and DRAIN = 0 has
neither an accumulator update nor a drain: it completes in the cycle after it became the running step, and its fold is recorded
(DESIGN CHOICE, log entry 74: R121 names no cycle for it). -/
def Mxu.finished (u : Mxu) (now : Nat) : Bool :=
  u.running.isSome && !u.stopped &&
    (if mdEmpty u.desc then u.since < now
     else if mdDrain u.desc then u.blocksDone == mdBlocks u.desc && u.drains.isEmpty
     else if mdK u.desc == 0 then u.since < now
     else u.blocksDone == mdBlocks u.desc && u.lastUpdate ≤ now)

/-- The completion record (R119). DESIGN CHOICE, log entry 77: CYCLES is the cycle of completion less that of the first port
firing, and 0 for a step that fires no port. -/
def mxuRecord (u : Mxu) (now : Nat) : BitVec 64 :=
  let x := u.desc
  let done := if mdEmpty x || mdK x == 0 && !mdDrain x then now else if mdDrain x then u.lastDrain else u.lastUpdate
  let cyc := match u.firstFire with | some f => min (done - f) (2 ^ 32 - 1) | none => 0
  BitVec.ofNat 64 (mdStepId x + u.flags.toNat * 2 ^ 16 + mdShape x * 2 ^ 24 + 2 ^ 27 + cyc * 2 ^ 32)

/-- Put a step into the running place (R111, R120, R121). -/
def Mxu.start (u : Mxu) (r : MxuStep) (now : Nat) : Mxu :=
  let u := { u with
    running := some r, since := now, active := 0, row := 0, activeToks := [], aToks := [], hold := [], blocksDone := 0,
    drains := [], firstFire := u.pendFire, pendFire := none, flags := 0#8, slotFree := max u.slotFree now,
    heldFold := if mdBlocked r.desc.toNat then 0#2 else u.heldFold }
  u.settle now

/-- The unit after the running step completes, in ACLK cycle `now` and NCLK cycle `ncycle`. -/
def Mxu.complete (u : Mxu) (now ncycle : Nat) : Mxu :=
  let x := u.desc
  let u := { u with
    done := u.done.push ncycle (mxuRecord u now), stepCount := u.stepCount + 1, running := none,
    heldFold := if mdDrain x then 0#2 else mdFoldCode x,
    heldType := pairIsFloat (mdA x) (mdW x) }
  match u.pending with
  | some p => { u with pending := none }.start p now
  | none => u

end Sys2Proof.Machine
end

