-- ==== Sys2Proof/Machine/Grid.lean ====
section
/-!
DEFINITION. Meanings of the unit grid's commands: firings, emission, pass-through, link queues, deadlock, and the
matrix unit's row slots, swaps and completions (R45 to R77, R101 to R124).
-/
namespace Sys2Proof.Machine

/-! ### Token kinds (R46, R64) -/

/-- Kind that input `n` of the unit at a position accepts: DATA, or the CKIND of a VXU's control input. -/
def Pos.wantKind (p : Pos) (n : Nat) : Nat :=
  let c := p.cfg.toNat
  if hdrInCtrl c n then vxCkind c n else 0

/-- The position's unit has fired FIRE_COUNT times (R58, R71). -/
def Pos.finished (p : Pos) : Bool := p.fireCount ≤ p.fired

/-- A token that the next firing takes from an input queue is of a kind that the port does not take (R46, R64). DEDUCED, log entry
78: of a port that takes several tokens a firing, each of them counts as one at the head. -/
def Pos.kindBad (p : Pos) (n : Nat) : Bool :=
  ((vgetN p.inQ n []).take (p.inRate n)).any fun t => t.kind.toNat != p.wantKind n

/-- TOKEN_KIND_MISMATCH where a token at the head of an input queue does not match its port (R64). -/
def Dev.kindCheck (d : Dev) (s : SiteId) (p : PosId) : Dev :=
  if (List.range 4).any (d.pos s p).kindBad then
    d.gridFault s { code := 0x1003, unit := some (posUnit p).val }
  else d

/-! ### Link queues and credits (R49 to R51, R65) -/

/-- Freed entries that are not yet credits again in cycle `now`. -/
def stillFreed (now : Nat) (l : List Nat) : List Nat := l.filter fun c => now < c

/-- Unit input that the incoming side feeds. -/
def Pos.inputOf (p : Pos) (side : Nat) : Option Nat :=
  (List.range 4).find? fun n => p.inRate n != 0 && hdrInSide p.cfg.toNat n == side

/-- The side feeds an elastic buffer whose region is full: it grants no credits (R69, R189). -/
def Tile.elasticFull (t : Tile) (p : PosId) (side : Nat) : Bool :=
  match finOf 8 ((posUnit p).val - 17) with
  | some m => decide (17 ≤ (posUnit p).val) && t.msuCfgMode m == 2 && (t.grid[p]).inputOf side == some 0 &&
      decide ((vgetN t.regions (t.elasticRegion m) {}).free < 256 * ((t.msus[m]).elWrite.length + 1))
  | none => false

/-- IN_EN of an incoming side: its link queue is enabled and grants credits (R52). -/
def Pos.inEn (p : Pos) (side : Nat) : Bool := p.switch.getLsbD (12 + side)

/-- The sender on the link into side `side` of a position holds a credit: the side is enabled, the position is not fenced and
its link queue has an entry free that the sender knows of. -/
def Dev.credit (d : Dev) (s : SiteId) (p : PosId) (side : Nat) : Bool :=
  let q := d.pos s p
  q.inEn side && !((d.tile s).fenced p) && !((d.tile s).elasticFull p side) &&
    (vgetN q.linkQ side []).length + (stillFreed d.anow (vgetN q.freed side [])).length < 4

/-- The position moves tokens: its paddock is live and it is not fenced (R54, R62). -/
def Dev.posLive (d : Dev) (s : SiteId) (p : PosId) : Bool := d.gridLive s && !((d.tile s).fenced p)

/-- A token goes onto the link out of side `k`, and arrives one cycle later, two across the seam (R50). A token that
fails parity is held at the receiver, and LINK_PARITY_ERROR is raised there (R65). -/
def Dev.ontoLink (d : Dev) (s : SiteId) (p : PosId) (k : Nat) (t : Token) (bad : Bool) : Dev :=
  match neighbour s p k with
  | none => d
  | some (s', p', seam) =>
    let side := oppSide k
    let avail := d.anow + (if seam then 2 else 1)
    let d := d.modPos s p fun q => { q with lastSent := vsetN q.lastSent k (some d.anow) }
    let d := d.modPos s' p' fun q => { q with
      linkQ := vmodN q.linkQ side fun l => l ++ [{ tok := t, avail := avail, bad := bad }],
      parityErrs := if bad then q.parityErrs + 1 else q.parityErrs }
    if bad then
      (d.gridFault s' { code := 0xE002, unit := some (posUnit p').val, side := side, area := 4 }).countParity s'
    else d

/-- The link out of side `k` can take a token in this cycle. -/
def Dev.linkFree (d : Dev) (s : SiteId) (p : PosId) (k : Nat) : Bool :=
  vgetN (d.pos s p).lastSent k none != some d.anow && match neighbour s p k with
    | some (s', p', _) => d.credit s' p' (oppSide k)
    | none => false

/-- Source that the switch word gives for the outgoing side `k` (R52). -/
def Pos.source (p : Pos) (k : Nat) : Nat := bvFld p.switch (3 * k) 3

/-- The head of a link queue can move in this cycle: available, not held for parity, none moved yet (R51). -/
def Pos.linkHead (p : Pos) (side now : Nat) : Option LinkTok :=
  if vgetN p.lastMove side none == some now then none
  else match (vgetN p.linkQ side []).head? with
    | some t => if t.avail ≤ now && !t.bad then some t else none
    | none => none

/-- The head of a link queue moves out: its entry becomes a credit one cycle later, two across the seam (R51). -/
def Dev.moveOut (d : Dev) (s : SiteId) (p : PosId) (side : Nat) : Dev :=
  let seam := match neighbour s p side with | some (_, _, x) => x | none => false
  let at_ := d.anow + (if seam then 2 else 1)
  d.modPos s p fun q => { q with
    linkQ := vmodN q.linkQ side fun l => l.drop 1,
    freed := vmodN q.freed side fun l => stillFreed d.anow l ++ [at_],
    lastMove := vsetN q.lastMove side (some d.anow) }

/-! ### TOKEN_EMIT (R49, R60) -/

/-- The oldest token of output `out` can be emitted in this cycle. -/
def emitEnabled (s : SiteId) (p : PosId) (out : Fin 4) (d : Dev) : Bool :=
  let q := d.pos s p
  let k := hdrOutSide q.cfg.toNat out.val
  d.posLive s p && d.hasTile s && q.source k == 1 && d.linkFree s p k && match q.outQ[out] with
    | (due, _) :: _ => due ≤ d.anow
    | [] => false

/-- The token leaves the output buffer for the link; an MSU counts it, and an MXU notes the emission (R121, R187). -/
def emitEffect (s : SiteId) (p : PosId) (out : Fin 4) (parityBad : Bool) (d : Dev) : Dev :=
  let q := d.pos s p
  match q.outQ[out] with
  | [] => d
  | (_, tok) :: rest =>
    let u := posUnit p
    let d := d.modPos s p fun q => { q with
      outQ := vmod q.outQ out fun _ => rest,
      outFreed := vmod q.outFreed out fun f => (d.anow, (if f.1 == d.anow then f.2 else 0) + 1) }
    let d := if u.val = 0 then d.modMxu s fun x => { x with lastDrain := d.anow }
      else match finOf 8 (u.val - 17) with
        | some m => if 17 ≤ u.val then d.modMsu s m fun x => { x with rdTokens := x.rdTokens + 1 } else d
        | none => d
    d.ontoLink s p (hdrOutSide q.cfg.toNat out.val) tok parityBad

/-- TOKEN_EMIT (R60). -/
def execTokenEmit (s : SiteId) (p : PosId) (out : Fin 4) (parityBad : Bool) (st : State) :
    Host.Outcome State Fault Refusal :=
  onEvent st (emitEnabled s p out) fun _ => emitEffect s p out parityBad

/-! ### PASS_THROUGH_FORWARD (R50) -/

/-- Incoming side whose tokens pass out of side `k`: FROM_N to FROM_W of the switch word. -/
def Pos.passFrom (p : Pos) (k : Nat) : Option Nat :=
  let x := p.source k
  if 2 ≤ x && x ≤ 5 then some (x - 2) else none

def passEnabled (s : SiteId) (p : PosId) (side : Side) (mv : PassMove) (d : Dev) : Bool :=
  let q := d.pos s p
  let k := sideNum side
  d.posLive s p && match mv with
    | .intoReg => (match q.passFrom k.val with
        | some x => q.passReg[k].isNone && q.passEmptied[k] != some d.anow && (q.linkHead x d.anow).isSome
        | none => false)
    | .ontoLink => (match q.passReg[k] with
        | some t => t.avail ≤ d.anow && !t.bad && d.linkFree s p k.val
        | none => false)

/-- A token moves from its link queue into the pass-through register, or from the register onto the link. -/
def passEffect (s : SiteId) (p : PosId) (side : Side) (mv : PassMove) (parityBad : Bool) (d : Dev) : Dev :=
  let q := d.pos s p
  let k := sideNum side
  match mv with
  | .intoReg => (match q.passFrom k.val with
    | none => d
    | some x => match q.linkHead x d.anow with
      | none => d
      | some t =>
        let d := d.moveOut s p x
        let d := d.modPos s p fun q => { q with
          passReg := vmod q.passReg k fun _ => some { t with avail := d.anow, bad := parityBad },
          parityErrs := if parityBad then q.parityErrs + 1 else q.parityErrs }
        if parityBad then
          (d.gridFault s { code := 0xE002, unit := some (posUnit p).val, side := x, area := 4 }).countParity s
        else d)
  | .ontoLink => match q.passReg[k] with
    | none => d
    | some t =>
      let d := d.modPos s p fun q => { q with
        passReg := vmod q.passReg k fun _ => none,
        passEmptied := vmod q.passEmptied k fun _ => some d.anow }
      d.ontoLink s p k.val t.tok parityBad

/-- PASS_THROUGH_FORWARD (R50). -/
def execPassThroughForward (s : SiteId) (p : PosId) (side : Side) (mv : PassMove) (parityBad : Bool) (st : State) :
    Host.Outcome State Fault Refusal :=
  onEvent st (passEnabled s p side mv) fun _ => passEffect s p side mv parityBad

/-! ### LINK_QUEUE_TRANSFER (R51, R64) -/

/-- Entries of an input queue in use: those consumed in this cycle are free only from its end (R51). -/
def Pos.inUsed (p : Pos) (n now : Nat) : Nat :=
  let f := vgetN p.inFreed n (0, 0)
  (vgetN p.inQ n []).length + (if f.1 == now then f.2 else 0)

def transferEnabled (s : SiteId) (p : PosId) (side : Side) (d : Dev) : Bool :=
  let q := d.pos s p
  d.posLive s p && (q.linkHead (sideNum side).val d.anow).isSome && match q.inputOf (sideNum side).val with
    | some n => q.inUsed n d.anow < 8
    | none => false

/-- The oldest token of a link queue moves into the input queue behind it. -/
def transferEffect (s : SiteId) (p : PosId) (side : Side) (d : Dev) : Dev :=
  let q := d.pos s p
  match q.linkHead (sideNum side).val d.anow, q.inputOf (sideNum side).val with
  | some t, some n =>
    let d := d.moveOut s p (sideNum side).val
    (d.modPos s p fun q => { q with inQ := vmodN q.inQ n fun l => l ++ [t.tok] }).kindCheck s p
  | _, _ => d

/-- LINK_QUEUE_TRANSFER (R51). -/
def execLinkQueueTransfer (s : SiteId) (p : PosId) (side : Side) (st : State) : Host.Outcome State Fault Refusal :=
  onEvent st (transferEnabled s p side) fun _ => transferEffect s p side

/-! ### UNIT_FIRE (R58 to R64, R103, R126 to R150, R176, R189) -/

/-- Take `k` tokens from an input queue in this cycle. -/
def Pos.consume (p : Pos) (n k now : Nat) : Pos :=
  let f := vgetN p.inFreed n (0, 0)
  { p with
    inQ := vmodN p.inQ n fun l => l.drop k,
    inFreed := vsetN p.inFreed n (now, (if f.1 == now then f.2 else 0) + k) }

/-- Commit tokens to an output, the first due in cycle `due`, one per cycle (R60). -/
def Pos.commit (p : Pos) (n due : Nat) (ts : List Token) : Pos :=
  { p with outQ := vmodN p.outQ n fun l => l ++ (ts.zip (List.range ts.length)).map fun x => (due + x.2, x.1) }

/-- The unit may fire at all: live, its tile in service, not fenced, not finished, no head of a wrong kind. -/
def Dev.unitLive (d : Dev) (s : SiteId) (p : PosId) : Bool :=
  d.posLive s p && d.hasTile s && !(d.pos s p).finished && !(List.range 4).any (d.pos s p).kindBad

/-- An input queue holds at least one token. -/
def Pos.hasTok (p : Pos) (n : Nat) : Bool := !(vgetN p.inQ n []).isEmpty

def Pos.headTok (p : Pos) (n : Nat) : Token := ((vgetN p.inQ n []).head?).getD Token.zero

/-- Some stage of a VXU's configuration rounds under STOCH. -/
def vxuStoch (c : Nat) : Bool := (List.range 6).any fun s => swRound (vxStage c s) == 2

/-- A vector unit can fire (R58). -/
def vxuReady (d : Dev) (s : SiteId) (u : UnitId) (v : VxuId) : Bool :=
  let q := d.pos s (unitPos u)
  let c := q.cfg.toNat
  (List.range 4).all (fun n => q.inRate n ≤ (vgetN q.inQ n []).length) &&
    (List.range 4).all (fun n => q.outRate n == 0 || q.outRoom u n d.anow) &&
    (match q.lastFire with | some t => t + vxII c ≤ d.anow | none => true) &&
    (!vxuStoch c || ((d.tile s).vxus[v]).seeded)

/-- A vector unit fires: tokens taken, results committed, registers and flags written (R126 to R152). -/
def vxuEffect (d : Dev) (s : SiteId) (u : UnitId) (v : VxuId) : Dev :=
  let p := unitPos u
  let q := d.pos s p
  let c := q.cfg.toNat
  let ins := (List.range 4).map fun n => (vgetN q.inQ n []).take (q.inRate n)
  let base := d.freeCtr
  let (outs, x) := vxuFire c ((d.tile s).vxus[v]) q.fired d.now ins fun k => Config.freeBits (base + k)
  let d := { d with freeCtr := base + 2 ^ 24 }
  let d := d.modTile s fun t => { t with vxus := vmod t.vxus v fun _ => x }
  let d := d.modPos s p fun q =>
    let q := (List.range 4).foldl (fun q n => if q.inRate n == 0 then q else q.consume n (q.inRate n) d.anow) q
    let q := (List.range 4).foldl (fun q n => q.commit n (d.anow + vxLatency c) (outs.getD n [])) q
    { q with lastFire := some d.anow }
  ((d.firedOne s p).noteFire s).countFixed s 3 1

/-- A port of the matrix unit can fire (R103). -/
def mxuPortOk (d : Dev) (s : SiteId) (pt : FirePort) : Bool :=
  let t := d.tile s
  let q := t.grid[mxuPos]
  t.mxu.portReady pt d.anow t.mxu.seeded && match pt with
    | .inp n => q.hasTok n.val
    | .outp n => q.outRoom 0 n.val d.anow
    | .whole => false

/-- A port of the matrix unit fires: an input takes a token, a drain commits one, due 4 cycles later (R114). -/
def mxuPortFire (d : Dev) (s : SiteId) (pt : FirePort) : Dev :=
  let now := d.anow
  match pt with
  | .whole => d
  | .inp n =>
    let tok := (d.pos s mxuPos).headTok n.val
    let d := d.modMxu s fun u => u.take n.val now tok
    (d.modPos s mxuPos fun q => q.consume n.val 1 now).noteFire s
  | .outp n =>
    let base := d.freeCtr
    let (tok, u) := (d.tile s).mxu.drain n.val now fun k => Config.freeBits (base + k)
    let d := { d with freeCtr := base + 2 ^ 12 }.modMxu s fun _ => u
    (d.modPos s mxuPos fun q => q.commit n.val (now + 4) [tok]).noteFire s

/-- The next token on OUT[0] of the read generator comes from the secondary stream (R182). -/
def Gen.secNext (g : Gen) : Bool := g.outSec < pdSecBefore g.x g.outPrim

/-- A port of an MSU can fire (R176, R189). DESIGN CHOICE, log entry 75: a token bypasses the region of an elastic MSU only where no
earlier token waits to be written to the region or is on its way back from it. -/
def msuPortOk (d : Dev) (s : SiteId) (m : MsuId) (pt : FirePort) : Bool :=
  let t := d.tile s
  let u := t.msus[m]
  let q := t.grid[msuPos m]
  let idle (n : Nat) : Bool := vgetN u.portLast n none != some d.anow
  match t.msuCfgMode m, pt with
  | 1, .inp n =>
    idle n.val && q.hasTok n.val &&
      (match n.val with
       | 0 => u.wbuf.length + 256 ≤ 1024
       | 1 => u.rd.wantsIndex
       | 2 => u.wr.wantsIndex
       | _ => u.wr.running.isSome && !u.wr.stopped && !pdEmpty u.wr.x && pdIlv u.wr.x == 1 && u.wsec.isNone && u.wr.secRun < pdSecTotal u.wr.x)
  | 1, .outp n =>
    n.val == 0 && idle 4 && u.rd.running.isSome && q.outRoom (msuUnit m) 0 d.anow &&
      (if u.rd.secNext then 256 ≤ u.asmS.length else u.rd.outPrim < pdPrimTokens u.rd.x && 256 ≤ u.asmP.length)
  | 2, .inp n =>
    n.val == 0 && idle 0 && q.hasTok 0 && !u.rd.stopped &&
      (let r := vgetN t.regions (t.elasticRegion m) {}
       (r.occ == 0 && u.elWrite.isEmpty && u.elFlight == 0 && q.outRoom (msuUnit m) 0 d.anow) ||
         256 * (u.elWrite.length + 1) ≤ r.free)
  | _, _ => false

/-- Index number of the token that a generator takes next. -/
def Gen.takeIndex (g : Gen) (t : Token) : Gen :=
  { g with idxBuf := some (pdIdxOf g.x g.run / (2048 / pdIdxW g.x), t), idxTaken := g.idxTaken + 1 }

/-- A port of an MSU fires. -/
def msuPortFire (d : Dev) (s : SiteId) (m : MsuId) (pt : FirePort) : Dev :=
  let now := d.anow
  let t := d.tile s
  let u := t.msus[m]
  let p := msuPos m
  let tok (n : Nat) : Token := (d.pos s p).headTok n
  match t.msuCfgMode m, pt with
  | 1, .inp n =>
    let d := d.modMsu s m fun u =>
      let u := { u with portLast := vsetN u.portLast n.val (some now) }
      match n.val with
      | 0 => { u with wbuf := u.wbuf ++ (tok 0).bytes, wrTokens := u.wrTokens + 1 }
      | 1 => { u with rd := u.rd.takeIndex (tok 1) }
      | 2 => { u with wr := u.wr.takeIndex (tok 2) }
      | _ => { u with wsec := some (tok 3) }
    (d.modPos s p fun q => q.consume n.val 1 now).noteFire s
  | 1, .outp _ =>
    let sec := u.rd.secNext
    let bs := if sec then u.asmS.take 256 else u.asmP.take 256
    let d := d.modMsu s m fun u =>
      let u := { u with portLast := vsetN u.portLast 4 (some now) }
      if sec then { u with asmS := u.asmS.drop 256, rd := { u.rd with outSec := u.rd.outSec + 1, lastAt := now } }
      else { u with asmP := u.asmP.drop 256, rd := { u.rd with outPrim := u.rd.outPrim + 1, lastAt := now } }
    (d.modPos s p fun q => q.commit 0 (now + 1) [Token.ofBytes 0#3 bs]).noteFire s
  | 2, .inp _ =>
    let r := vgetN t.regions (t.elasticRegion m) {}
    let bypass := r.occ == 0 && u.elWrite.isEmpty && u.elFlight == 0 && (d.pos s p).outRoom (msuUnit m) 0 now
    let d := d.modMsu s m fun u => { u with
      portLast := vsetN u.portLast 0 (some now),
      wrTokens := u.wrTokens + 1,
      elWrite := if bypass then u.elWrite else u.elWrite ++ [tok 0] }
    let d := d.modPos s p fun q =>
      let q := if bypass then q.commit 0 (now + 2) [tok 0] else q
      q.consume 0 1 now
    (d.firedOne s p).noteFire s
  | _, _ => d

/-- The unit, or its port, can fire in this cycle. -/
def fireEnabled (s : SiteId) (u : UnitId) (port : FirePort) (d : Dev) : Bool :=
  d.unitLive s (unitPos u) &&
    (if u.val = 0 then mxuPortOk d s port
     else match finOf 16 (u.val - 1), finOf 8 (u.val - 17) with
       | some v, _ => port == .whole && vxuReady d s u v
       | none, some m => msuPortOk d s m port
       | none, none => false)

/-- The firing, and the kinds of the heads it leaves (R64). -/
def fireEffect (s : SiteId) (u : UnitId) (port : FirePort) (d : Dev) : Dev :=
  let d := if u.val = 0 then mxuPortFire d s port
    else match finOf 16 (u.val - 1), finOf 8 (u.val - 17) with
      | some v, _ => vxuEffect d s u v
      | none, some m => msuPortFire d s m port
      | none, none => d
  d.kindCheck s (unitPos u)

/-- UNIT_FIRE (R58). -/
def execUnitFire (s : SiteId) (u : UnitId) (port : FirePort) (st : State) : Host.Outcome State Fault Refusal :=
  onEvent st (fireEnabled s u port) fun _ => fireEffect s u port

/-! ### GRID_DEADLOCK (R72) -/

/-- The idle counter has reached 65,536. -/
def deadlockEnabled (k : PadId) (d : Dev) : Bool :=
  d.padLive k && match d.pad k with | some p => 65536 ≤ p.idle | none => false

/-- GRID_DEADLOCK (R72). -/
def execGridDeadlock (k : PadId) (st : State) : Host.Outcome State Fault Refusal :=
  onEvent st (deadlockEnabled k) fun _ d => d.raise k none true { code := 0x1001 }

/-! ### ROW_SLOT_START (R102), WEIGHT_SWAP (R107) -/

/-- The matrix unit works: its tile's paddock is live and its position is not fenced. -/
def Dev.mxuLive (d : Dev) (s : SiteId) : Bool := d.tileLive s && d.hasTile s && !((d.tile s).fenced mxuPos)

def rowSlotEnabled (s : SiteId) (d : Dev) : Bool :=
  d.mxuLive s && (d.tile s).mxu.slotReady d.anow (d.tile s).mxu.seeded

/-- The matrix unit stops and raises a fault in the context that issued the step (R124). -/
def Dev.mxuFault (d : Dev) (s : SiteId) (code row : Nat) : Dev :=
  let u := (d.tile s).mxu
  let c := (u.running.map (·.ctx)).getD 0
  (d.modMxu s fun u => { u with stopped := true }).ctxFault s c
    { code := code, unit := some 0, extra := [mdStepId u.desc, row] }

/-- A row slot starts: a held step stops at
a row beyond its fold, and any other row is computed (R102, R108, R124). -/
def rowSlotEffect (s : SiteId) (d : Dev) : Dev :=
  let u := (d.tile s).mxu
  if u.overflows then d.mxuFault s 0x3003 u.row
  else ((d.modMxu s fun u => u.rowSlot d.anow).noteFire s).countFixed s 2 1

/-- ROW_SLOT_START (R102). -/
def execRowSlotStart (s : SiteId) (st : State) : Host.Outcome State Fault Refusal :=
  onEvent st (rowSlotEnabled s) fun _ => rowSlotEffect s

def swapEnabled (s : SiteId) (d : Dev) : Bool := d.mxuLive s && (d.tile s).mxu.swapReady d.anow (d.tile s).mxu.seeded

def swapEffect (s : SiteId) (d : Dev) : Dev := (d.modMxu s fun u => u.swap d.anow).noteFire s

/-- WEIGHT_SWAP (R107). -/
def execWeightSwap (s : SiteId) (st : State) : Host.Outcome State Fault Refusal :=
  onEvent st (swapEnabled s) fun _ => swapEffect s

/-! ### MXU_STEP_COMPLETE (R121), MXU_DONE_READ (R119) -/

/-- The running step has done all its work, and its drained tokens have been emitted. -/
def stepCompleteEnabled (s : SiteId) (d : Dev) : Bool :=
  let t := d.tile s
  let q := t.grid[mxuPos]
  d.mxuLive s && t.mxu.finished d.anow && (mdEmpty t.mxu.desc || !mdDrain t.mxu.desc || (q.outQ[0].isEmpty && q.outQ[1].isEmpty))

/-- The step completes: record, count, next step with its seed request, sample and bell. -/
def stepCompleteEffect (s : SiteId) (d : Dev) : Dev :=
  let u := (d.tile s).mxu
  let x := u.desc
  let rec_ := mxuRecord u d.anow
  let ctx := (u.running.map (·.ctx.val)).getD 0
  let d := d.modMxu s fun u => { u.complete d.anow d.now with seeded := d.entropyOk }
  let d := d.firedOne s mxuPos
  let d := d.sample s { kind := 1, addr := 0, latency := bvFld rec_ 32 32, step := mdStepId x, unit := 0, ctx := ctx }
  if mdBellEn x then d.bellLater s (mdBell x) 1 else d

/-- MXU_STEP_COMPLETE (R121). -/
def execMxuStepComplete (s : SiteId) (st : State) : Host.Outcome State Fault Refusal :=
  onEvent st (stepCompleteEnabled s) fun _ => stepCompleteEffect s

/-- A read of MXU_DONE removes the oldest record, and LOST with it (R119, R121). -/
def mxuDoneEffect (s : SiteId) (d : Dev) : Dev :=
  (d.show ((d.tile s).mxu.done.value d.now 28)).modMxu s fun u => { u with done := u.done.taken d.now }

/-- MXU_DONE_READ (R119). -/
def execMxuDoneRead (s : SiteId) (st : State) : Host.Outcome State Fault Refusal :=
  onEvent st (fun d => d.running && d.hasTile s) fun _ => mxuDoneEffect s

end Sys2Proof.Machine
end

