-- ==== Sys2Proof/Machine/DescChecks.lean ====
section
/-!
DEFINITION. Which descriptors and unit configurations are well formed: the rules that call one malformed (R56, R57,
R84, R109, R116, R117, R125 to R154, R174 to R186, R197, R215, R273, R274, R378). The loader and the planner use them.
-/
namespace Sys2Proof.Machine

/-- Bits `lo` to `lo + n − 1` are zero. -/
def zeroFld (x lo n : Nat) : Bool := fld x lo n == 0

/-- All reserved fields of a layout are zero (R5): pairs of first bit and width. -/
def reservedZero (x : Nat) (l : List (Nat × Nat)) : Bool := l.all fun p => zeroFld x p.1 p.2

/-- The largest count of a dimension. -/
def dimMax : Nat := 16777216

/-! ### MXU step descriptor (R109, R116, R117) -/

/-- OUT_FMT is a format that the drain can produce (R116). -/
def outFmtOk (f : Nat) : Bool := (1 ≤ f && f ≤ 8)

/-- Element size in bytes times two. -/
def halfBytes (f : Nat) : Nat := fmtWidth f / 4

def mxuDescOk (x : Nat) : Bool :=
  let held := !mdBlocked x
  reservedZero x [(3, 1), (31, 1), (172, 4), (192, 64)] &&
    mdShape x ≤ 5 && (passesOf (mdA x) (mdW x)).isSome && outFmtOk (mdOut x) && mdRound x ≤ 2 && mdBell x ≤ 47 &&
    mdM x ≤ dimMax && mdN x ≤ dimMax && mdK x ≤ dimMax &&
    !(held && mdOverlap x) && (held || mdAccBase x == 0) &&
    (!held || (mdN x ≤ mdNs x && mdM x ≤ mdFoldRows x && mdAccBase x ≤ mdFoldRows x)) &&
    (!mdThin x || (mdM x ≤ 16 && mdM x * mdChunks x * mdKs x * halfBytes (mdA x) ≤ 2 * 65536))

/-! ### MSU pattern descriptor (R177 to R186) -/

/-- The pattern is well formed, whichever side it is written to. -/
def patternDescOk (x : Nat) : Bool :=
  let es := pdEs x
  let mult (v : Int) : Bool := v % (es : Int) == 0
  reservedZero x [(23, 1), (31, 1), (58, 6), (89, 7), (409, 7), (425, 7), (464, 16), (608, 160)] &&
    pdMode x ≤ 2 && pdPad x ≤ 5 && pdIlv x ≤ 2 && pdBell x ≤ 47 && pdRunLen x ≤ 512 &&
    (List.range 4).all (fun d => pdCount x (d + 1) ≤ dimMax && mult (pdStride x (d + 1))) && mult (pdBase x) &&
    (if pdCol x then pdRunLen x ≤ 64 else pdRunBytes x ≤ 512) &&
    (pdMode x != 1 || (1 ≤ pdIdxDim x && pdIdxDim x ≤ 4)) &&
    (pdMode x != 2 || (pdRegEn x && !pdCol x && (List.range 4).all (fun d => pdStride x (d + 1) == 0) && pdIlv x == 0)) &&
    (pdIlv x == 0 ||
      (mult (pdSecBase x) && mult (pdSecStride x) && mult (pdSecStride2 x) &&
        1 ≤ pdSecRun x && pdSecRun x ≤ 256 && 1 ≤ pdSecRuns x && pdSecRuns x ≤ 256 && pdSecRuns x * pdSecRun x ≤ 256 &&
        1 ≤ pdSecWrap x && pdSecWrap x ≤ dimMax && pdSecTotal x ≤ pdSecWrap x * dimMax && pdSecTotal x != 2 ^ 32 - 1 &&
        1 ≤ pdPeriod x && pdPeriod x ≤ 65534 && 1 ≤ pdIlvTok x && pdIlvTok x ≤ 8))

/-- The region a pattern names is used, and of the mode its ADDR_MODE needs (R184, R186): STREAM or RECORD for
SEQUENTIAL, LINEAR otherwise. -/
def patternRegionOk (x : Nat) (regs : Nat → Region) : Bool :=
  let r := regs (pdRegion x)
  !pdRegEn x || (r.size != 0 && (if pdMode x == 2 then r.mode == 1 || r.mode == 2 else r.mode == 0))

/-- A pattern written to a generator of an MSU of configuration `c` finds the MSU in STREAM mode and the ports that it needs
declared: OUT[0] of a read, IN[0] of a write, the index input of an INDEXED one, IN[3] of a write with secondary tokens (R175,
R176, R186). -/
def patternPortsOk (c : Nat) (write : Bool) (x : Nat) : Bool :=
  let used (n : Nat) : Bool := hdrInRate c n != 0
  msuMode c == 1 &&
    (if write then used 0 && (pdMode x != 1 || used 2) && (pdIlv x != 1 || used 3)
     else hdrOutRate c 0 != 0 && (pdMode x != 1 || used 1))

/-! ### Loft mover, update and remote descriptors (R197, R215, R273, R274, R378) -/

def moverDescOk (x : Nat) : Bool :=
  let m64 (v : Int) : Bool := v % 64 == 0
  reservedZero x [(10, 6), (23, 9), (48, 16), (103, 25), (153, 7), (173, 19), (224, 32), (377, 7), (416, 96)] &&
    mvBell x ≤ 47 && m64 (mvDram x) && m64 (mvSp x) && mvRowBytes x % 64 == 0 && mvRowBytes x ≤ 4096 &&
    mvRows x ≤ dimMax && m64 (mvDStride x) && m64 (mvSStride x) && mvIdxBase x % 8 == 0 &&
    (!mvIndexed x || mvIdxBase x + mvRows x * (mvIdxW x / 8) ≤ spadSize)

/-- The scratchpad side's region is used and not RECORD, and a STREAM region has no base or stride (R198, R215). -/
def moverRegionOk (x : Nat) (regs : Nat → Region) : Bool :=
  let r := regs (mvRegion x)
  !mvRegEn x || (r.size != 0 && r.mode != 2 && (r.mode != 1 || (mvSp x == 0 && mvSStride x == 0)))

def updateDescOk (x : Nat) : Bool :=
  reservedZero x [(7, 9), (23, 9), (56, 8), (167, 25), (231, 25), (295, 25), (359, 25), (416, 96)] &&
    fld x 0 2 ≤ 1 && udBell x ≤ 47 && udBlocks x ≤ dimMax && udRecBase x % 512 == 0 && udSignBase x % 64 == 0 &&
    udVoteBase x % 64 == 0 && udSched x % 4096 == 0 &&
    !(udLoc x && udStriped x) && (!udLoc x || (udRecBase x < 2 ^ 25 && udSignBase x < 2 ^ 25)) &&
    !(udVote x && (!udTally x || udSweep x)) && !(udClear x && udSweep x)

def remoteDescOk (x : Nat) : Bool :=
  let atomic := rdOp x == 3
  if rdOp x == 4 then
    reservedZero x [(3, 13), (23, 9), (48, 464)] && fld x 16 6 ≤ 47
  else
    reservedZero x [(10, 6), (23, 9), (48, 16), (153, 7), (173, 19), (224, 32), (352, 32)] && rdOp x ≤ 3 &&
      fld x 16 6 ≤ 47 && rdRows x ≤ dimMax &&
      (if atomic then fld x 128 25 % 8 == 0 && rdRowBytes x == 8 && rdRows x == 1 && fld x 3 3 ≤ 4
       else fld x 128 25 % 64 == 0 && fld x 3 3 == 0 && rdRowBytes x ≤ 4096 && zeroFld x 384 128)

/-- A pool entry of 128 bytes (R216): its descriptor, its KIND, and zeros elsewhere. -/
def poolKind (e : Nat) : Nat := fld e 768 8
def poolDesc (e : Nat) : Nat := fld e 0 768

def poolFormOk (e : Nat) : Bool :=
  poolKind e ≤ 2 && zeroFld e 776 248 &&
    (match poolKind e with
     | 0 => zeroFld e 256 512 && mxuDescOk (poolDesc e)
     | 1 => patternDescOk (poolDesc e)
     | _ => true)

/-! ### Grid firing headers and unit records (R55 to R57, R125 to R154, R174, R175, R189) -/

/-- The grid firing header, its generation as the image carries it, zero (R55, R56, R227). -/
def headerOk (c : Nat) : Bool :=
  let ins := (List.range 4).filter fun n => hdrInRate c n != 0
  let outs := (List.range 4).filter fun n => hdrOutRate c n != 0
  zeroFld c 52 12 && zeroFld c 96 32 && (List.range 4).all (fun n => hdrInRate c n ≤ 8 && hdrOutRate c n ≤ 8) &&
    hdrFireCount c != 2 ^ 32 - 1 && (ins.map (hdrInSide c)).Nodup && (outs.map (hdrOutSide c)).Nodup

/-- The MXU record: the header R57 fixes, and nothing else. -/
def mxuRecOk (c : Nat) : Bool :=
  headerOk c && zeroFld c 128 128 &&
    hdrInRate c 0 == 1 && hdrInRate c 1 == 1 && hdrInRate c 2 == 0 && hdrInRate c 3 == 0 &&
    hdrOutRate c 0 == 1 && hdrOutRate c 1 == 1 && hdrOutRate c 2 == 0 && hdrOutRate c 3 == 0 &&
    hdrInSide c 0 == 3 && hdrInSide c 1 == 0 && hdrOutSide c 0 == 1 && hdrOutSide c 1 == 2 && zeroFld c 48 4

/-- The MSU record in its mode (R174, R175, R189, R273). -/
def msuRecOk (c : Nat) : Bool :=
  let used (n : Nat) : Bool := hdrInRate c n != 0
  headerOk c && zeroFld c 135 121 && msuMode c ≤ 3 &&
    (match msuMode c with
     | 0 => true
     | 1 => (List.range 4).all (fun n => hdrInRate c n ≤ 1) && hdrOutRate c 0 ≤ 1 && hdrOutRate c 1 == 0 &&
              hdrOutRate c 2 == 0 && hdrOutRate c 3 == 0 && zeroFld c 48 4
     | 2 => hdrInRate c 0 == 1 && hdrOutRate c 0 == 1 && !used 1 && !used 2 && !used 3 && hdrOutRate c 1 == 0 &&
              hdrOutRate c 2 == 0 && hdrOutRate c 3 == 0 && !(hdrInCtrl c 0)
     | _ => (List.range 4).all fun n => !used n && hdrOutRate c n == 0)

/-- Operands that an opcode reads (R136). -/
def readsA (op : Nat) : Bool := op != 0x5C && op != 0x59
def readsB (op : Nat) : Bool :=
  (0x01 ≤ op && op ≤ 0x06) || op == 0x09 || (0x0A ≤ op && op ≤ 0x0C) || (0x0E ≤ op && op ≤ 0x10) ||
  (0x18 ≤ op && op ≤ 0x1C) || op == 0x24 || op == 0x2D || (0x43 ≤ op && op ≤ 0x45) || op == 0x52 || op == 0x53
def readsC (op : Nat) : Bool := op == 0x04 || op == 0x09

/-- Opcodes that exist, with the LFMT and XFMT that each allows (R132, R136, R139, R140). -/
def opFmtOk (w : Nat) : Bool :=
  let op := swOp w
  let l := swLfmt w
  let x := swXfmt w
  let isInt := l == 1 || l == 2 || l == 3
  let isFloat := l == 6 || l == 7 || l == 8
  let all := isInt || isFloat
  let fp32 := l == 8
  if op ≤ 0x0D || (0x18 ≤ op && op ≤ 0x1C) || (0x38 ≤ op && op ≤ 0x3E) || (0x40 ≤ op && op ≤ 0x45) || op == 0x59 then all
  else if (0x0E ≤ op && op ≤ 0x10) || op == 0x5C then isInt
  else if op == 0x20 then
    ((l == 8 || l == 3) && (x == 8 || x == 3)) || ((l == 6 || l == 7 || l == 2) && (x == 6 || x == 7 || x == 2))
  else if op == 0x21 || op == 0x22 then
    all && [2, 6, 7, 1, 4, 5, 0, 13].contains x && fmtWidth x < fmtWidth l && fmtWidth l / fmtWidth x ≤ 8
  else if op == 0x23 || op == 0x24 then fp32 && 9 ≤ x && x ≤ 12
  else if (0x28 ≤ op && op ≤ 0x31) || (0x50 ≤ op && op ≤ 0x53) then fp32
  else op == 0x58 && l == 3

/-- Opcodes that use SEG, and those that use AUX. -/
def usesSeg (op : Nat) : Bool := (0x38 ≤ op && op ≤ 0x3B) || (0x50 ≤ op && op ≤ 0x53)
def usesAux (op : Nat) : Bool := op == 0x1C || op == 0x40 || op == 0x41 || op == 0x42 || op == 0x59

/-- Elements per vector of a stage. -/
def stagePer (w : Nat) : Nat := 2048 / max 1 (fmtWidth (swLfmt w))

/-- The fields of one stage word, by itself (R130, R133, R134, R143, R144, R154). -/
def stageOk (c w : Nat) : Bool :=
  let op := swOp w
  let seg := vxSeg c
  reservedZero w [(38, 2), (44, 4), (56, 8), (96, 32)] && opFmtOk w &&
    (swDst w == 0 || 8 ≤ swDst w) && swRound w ≤ 2 && swBcast w ≤ 2 &&
    (!usesSeg op || (2 ^ seg ≤ stagePer w && (op < 0x50 || (1 ≤ seg && seg ≤ 6)))) &&
    (swBcast w != 1 || 2 ^ seg ≤ stagePer w) &&
    (swBcast w != 2 || (swAux w < stagePer w && !usesAux op)) &&
    (op != 0x43 || swBcast w == 0) &&
    swXfmt w < 14 && (op != 0x40 || swAux w < 64) &&
    (swMaskSel w == 0 || !(op == 0x59 || (0x21 ≤ op && op ≤ 0x24) || (0x3C ≤ op && op ≤ 0x3E) || op == 0x51))

/-- Source codes that a stage reads. -/
def stageSrcs (w : Nat) : List Nat :=
  (if readsA (swOp w) then [swSrcA w] else []) ++ (if readsB (swOp w) then [swSrcB w] else []) ++
    (if readsC (swOp w) then [swSrcC w] else [])

/-- Predicate registers that a stage reads, and the one it writes. -/
def stagePredReads (w : Nat) : List Nat :=
  (if swMaskSel w == 1 then [0] else if swMaskSel w == 2 then [1] else []) ++
    (if swOp w == 0x1C || swOp w == 0x59 then [swAux w % 2] else [])
def stagePredWrite (w : Nat) : Option Nat := if 0x18 ≤ swOp w && swOp w ≤ 0x1B then some (swQdst w) else none

/-- The inputs that are PAD_MARK controls. -/
def padInputs (c : Nat) : List Nat :=
  (List.range 4).filter fun n => hdrInRate c n != 0 && hdrInCtrl c n && vxCkind c n == 2

/-- A read of a register at stage `s` is allowed (R135): written by no stage, or by one at or before it whose vectors
match one to one. -/
def regReadOk (c : Nat) (counts : List Nat) (writers : List Nat) (s : Nat) : Bool :=
  match writers with
  | [] => true
  | w :: _ =>
    if w == s then
      counts.getD (s + 1) 0 == counts.getD s 0 && opLatency (swOp (vxStage c s)) == 1
    else w < s && counts.getD (w + 1) 0 == counts.getD s 0 &&
      (List.range 6).all fun k => !(w < k && k < s) || counts.getD (k + 1) 0 == counts.getD k 0

/-- Inputs read by a stage: operands, the PAD_MARK mask. PREV at S0 reads IN[0] (R131). -/
def stageInputs (c s : Nat) : List Nat :=
  let w := vxStage c s
  ((stageSrcs w).filterMap fun x =>
      if 1 ≤ x && x ≤ 4 then some (x - 1)
      else if x == 0 && s == 0 && (vxSteer c == 0 || vxSteer c == 3) then some 0 else none) ++
    (if swMaskSel w == 3 then padInputs c else [])

/-- The steering mode's inputs and outputs (R146 to R148). -/
def steerOk (c : Nat) (counts : List Nat) : Bool :=
  let used := (List.range 4).filter fun n => hdrInRate c n != 0
  let sel := used.filter fun n => hdrInCtrl c n && vxCkind c n == 1
  let data := used.filter fun n => !(hdrInCtrl c n)
  let v0 := counts.getD 0 0
  match vxSteer c with
  | 0 => true
  | 1 => sel.length == 1 && 1 ≤ data.length && data.length ≤ 3 && (sel ++ data).all fun n => hdrInRate c n == v0
  | 2 => sel.length == 1 && 1 ≤ data.length && data.length ≤ 3 && (sel ++ data).all fun n => hdrInRate c n == 1
  | _ =>
    sel.length == 1 && sel.all (fun n => hdrInRate c n == v0) && counts.all (· == v0) &&
      (List.range 4).all fun n => hdrOutRate c n == 0 || vxOsrc c n == 5 || 6 ≤ vxOsrc c n

/-- The VXU record passes R154. -/
def vxuRecOk (c : Nat) : Bool :=
  let ins := (List.range 4).filter fun n => hdrInRate c n != 0
  let outs := (List.range 4).filter fun n => hdrOutRate c n != 0
  let counts := vxCounts c
  let st (s : Nat) : Nat := vxStage c s
  let exactCounts := (List.range 6).all fun s =>
    let op := swOp (st s)
    !(op == 0x21 || op == 0x23) || counts.getD s 0 % stageRatio (st s) == 0
  let writers (v : Nat) : List Nat := (List.range 6).filter fun s => swDst (st s) == 8 + v
  let qWriters (q : Nat) : List Nat := (List.range 6).filter fun s => stagePredWrite (st s) == some q
  let control := ins.filter (hdrInCtrl c)
  let steerSel := if vxSteer c == 0 then [] else control.filter fun n => vxCkind c n == 1
  let steerData := if vxSteer c == 1 || vxSteer c == 2 then ins.filter fun n => !(hdrInCtrl c n) else []
  let fwd := (outs.filter fun n => vxOsrc c n == 6).map fun _ => vxFwdIn c
  let reads (n : Nat) : Bool :=
    (List.range 6).any (fun s => (stageInputs c s).contains n) || steerSel.contains n || steerData.contains n || fwd.contains n
  let mxqs := (List.range 6).filter fun s => swOp (st s) == 0x23
  headerOk c && zeroFld c 169 7 && zeroFld c 184 8 && zeroFld c 224 32 && vxRowFirings c != 2 ^ 32 - 1 && vxSeg c ≤ 8 && vxColLen c ≤ 64 &&
    control.all (fun n => vxCkind c n != 0) &&
    counts.all (fun v => 1 ≤ v && v ≤ 8) && exactCounts &&
    (List.range 6).all (fun s => stageOk c (st s)) &&
    (List.range 6).all (fun s => (stageInputs c s).all fun n =>
      hdrInRate c n != 0 && (hdrInRate c n == counts.getD s 0 || hdrInRate c n == 1)) &&
    (List.range 6).all (fun s => (stageSrcs (st s)).all fun x =>
      (x != 5 || (vxColLen c != 0 && vxColBase c + vxColLen c ≤ 64)) &&
      (x < 8 || regReadOk c counts (writers (x - 8)) s) &&
      (!(1 ≤ x && x ≤ 4) || !(hdrInCtrl c (x - 1)))) &&
    (List.range 8).all (fun v => (writers v).length ≤ 1) && (List.range 2).all (fun q => (qWriters q).length ≤ 1) &&
    (List.range 6).all (fun s => (stagePredReads (st s)).all fun q => regReadOk c counts (qWriters q) s) &&
    (List.range 6).all (fun s => swMaskSel (st s) != 3 || (padInputs c).length == 1) &&
    outs.all (fun n =>
      let o := vxOsrc c n
      if o == 6 then hdrInRate c (vxFwdIn c) != 0 && hdrOutRate c n == hdrInRate c (vxFwdIn c)
      else if o == 7 then mxqs.length == 1 && hdrOutRate c n == 1
      else hdrOutRate c n == counts.getD (o + 1) 0) &&
    mxqs.length ≤ 1 && ins.all reads && steerOk c counts &&
    (List.range 6).all fun s => !(swOp (st s) == 0x58 || swOp (st s) == 0x59) ||
      ((s == 5 || !((stageSrcs (st (s + 1))).contains 0)) &&
        (swDst (st s) == 0 || (List.range 6).all fun k => !((stageSrcs (st k)).contains (swDst (st s)))))

end Sys2Proof.Machine
end

