-- ==== Sys2Proof/Machine/Planner.lean ====
section
/-!
DEFINITION. Step entries, value sources and step lists (R216 to R221), and the block planner (R231 to R239): the
estimate of a shape, the derived values, patches and what a PLAN or PATCH writes.
-/
namespace Sys2Proof.Machine

/-! ### Steps (R218, R219) -/

def stOp (x : Nat) : Nat := fld x 0 8
def stXd (x : Nat) : Nat := fld x 8 3
def stA16 (x : Nat) : Nat := fld x 16 16
def stA32 (x : Nat) : Nat := fld x 32 32
def stA64 (x : Nat) : Nat := fld x 64 64

/-- ISSUE: unit index and target. -/
def isUnit (x : Nat) : Nat := fld x 32 5
def isTarget (x : Nat) : Nat := fld x 37 2

/-- Step `i` of a bank. -/
def Bank.step (b : Bank) (i : Nat) : Nat := ((b.steps[i]?).map (·.toNat)).getD 0

/-- Steps that follow step `i` in its list (R219). -/
def stepSuccs (x i : Nat) : List Nat :=
  match stOp x with
  | 0x1F => []
  | 0x0E => [stA16 x]
  | 0x0D => [i + 1, stA16 x]
  | 0x09 => [i + 1, fld x 64 12]
  | _ => [i + 1]

/-- Steps reached from a work list; indices at or above the step count are kept in the answer and not followed. -/
def reachFrom (b : Bank) : Nat → List Nat → List Nat → List Nat
  | 0, _, seen => seen
  | _, [], seen => seen
  | fuel + 1, i :: todo, seen =>
    if seen.contains i then reachFrom b fuel todo seen
    else if b.steps.length ≤ i then reachFrom b fuel todo (i :: seen)
    else reachFrom b fuel (stepSuccs (b.step i) i ++ todo) (i :: seen)

/-- The step list of an entry: every step that a context can reach from it. -/
def Bank.reach (b : Bank) (entry : Nat) : List Nat := reachFrom b (3 * b.steps.length + 4) [entry] []

/-! ### Phase entries (R217) -/

/-- Phase entry `i` of a bank as a number. -/
def Bank.phase (b : Bank) (i : Nat) : Nat := ((b.phases[i]?).map (·.toNat)).getD 0
def phNext (e : Nat) : Nat := fld e 0 32
def phLast (e : Nat) : Bool := bitOf e 32
def phSection (e : Nat) : Nat := fld e 64 16
/-- CTX_ENTRY of context `c`, 2 to 15: it runs, and its first step. -/
def phRuns (e c : Nat) : Bool := 2 ≤ c && bitOf e (128 + 16 * (c - 2) + 15)
def phEntry (e c : Nat) : Nat := fld e (128 + 16 * (c - 2)) 12

/-- Contexts that a phase runs. -/
def phCtxs (e : Nat) : List Nat := (List.range 16).filter (phRuns e)

/-! ### Value sources (R221) -/

/-- The code names a source; 0x70 only in SET. -/
def srcOk (isSet : Bool) (v : Nat) : Bool :=
  v ≤ 0x47 || (0x50 ≤ v && v ≤ 0x61 && v != 0x62) || (isSet && v == 0x70)

/-- Value of a source. -/
def Tile.source (t : Tile) (c : CtxId) (tiles a64 v : Nat) : Nat :=
  if v ≤ 0x3F then (vgetN t.ctl.param v 0#64).toNat
  else if v ≤ 0x47 then (vgetN (t.ctxs[c]).x (v - 0x40) 0#64).toNat
  else if 0x50 ≤ v && v ≤ 0x5F then bvFld (vgetN t.ctl.seqLen (v - 0x50) 0#32) 0 25
  else if v == 0x60 then (t.ctl.bound.map (·.2)).getD 0
  else if v == 0x61 then tiles
  else if v == 0x70 then a64
  else 0

/-! ### The estimate (R232, R233) -/

/-- The template with SHAPE, M, N and K written (R234). -/
def withShape (x shape m n k : Nat) : Nat :=
  fld x 3 61 * 2 ^ 3 + shape + (m + n * 2 ^ 32 + k * 2 ^ 64) * 2 ^ 64 + x / 2 ^ 160 * 2 ^ 160

/-- Numbers of equal blocks with their size: all but the last full, the last the remainder. -/
def blockSizes (n b : Nat) : List (Nat × Nat) :=
  let k := ceilDiv n (max 1 b)
  if k == 0 then [] else [(k - 1, b), (1, n - (k - 1) * b)]

/-- Sum over the blocks of a step. -/
def overBlocks (x : Nat) (f : Nat → Nat → Nat) : Nat :=
  sumNat ((blockSizes (mdM x) (mdLimit x)).flatMap fun r => (blockSizes (mdN x) (mdNs x)).map fun c => r.1 * c.1 * f r.2 c.2)

/-- Drain tokens of a block of `b` rows on drain 0, and on drain 1 (R233, R236). -/
def drain0 (x b w : Nat) : Nat := ceilDiv (b * min w (mdNs x / 2) * fmtWidth (mdOut x)) 2048
def drain1 (x b w : Nat) : Nat := ceilDiv (b * (w - min w (mdNs x / 2)) * fmtWidth (mdOut x)) 2048

/-- A tokens of one chunk of `b` rows: ⌈b × a⌉ and the scale tokens. -/
def aTokens (x b : Nat) : Nat :=
  ceilDiv (b * mdKs x * fmtWidth (mdA x)) 2048 + (if fmtIsMx (mdA x) then ceilDiv (b * mdKs x) 8192 else 0)

/-- The hold load of a THIN step (R233). -/
def holdTokens (x : Nat) : Nat := ceilDiv (mdM x * mdChunks x * mdKs x * fmtWidth (mdA x)) 2048

/-- Chunk time t(b). -/
def chunkTime (x b : Nat) : Nat :=
  let p := (mdPasses x).length
  if mdChunks x == 0 then 0
  else if mdThin x then max (mdWTokens x / 2) (b * p + 1)
  else max (max (b * p) (aTokens x b)) (mdWTokens x) + 1

/-- Σ over blocks in walk order of max(c × t(bᵢ), Dᵢ₋₁) (R233). -/
def overlapSum (x : Nat) : Nat :=
  let c := mdChunks x
  let nb := mdNBlocks x
  let lim := mdLimit x
  let mb := ceilDiv (mdM x) lim
  let wLast := mdN x - (nb - 1) * mdNs x
  let prevD := drain0 x lim wLast
  let inner (b : Nat) : Nat := (nb - 1) * max (c * chunkTime x b) (drain0 x b (mdNs x))
  let bLast := mdM x - (mb - 1) * lim
  if nb == 0 then 0
  else if mb == 0 then (if mdThin x then nb * (c * chunkTime x 0) else 0)
  else if mb == 1 then c * chunkTime x bLast + inner bLast
  else
    c * chunkTime x lim + inner lim + (mb - 2) * (max (c * chunkTime x lim) prevD + inner lim) +
      max (c * chunkTime x bLast) prevD + inner bLast

/-- Drain of the last block; 0 where there is none. -/
def lastDrainTime (x : Nat) : Nat :=
  if mdEmpty x then 0
  else drain0 x (mdM x - (ceilDiv (mdM x) (mdLimit x) - 1) * mdLimit x) (mdN x - (mdNBlocks x - 1) * mdNs x)

/-- λ (R108). -/
def lambda (x : Nat) : Nat := updateDelay x

/-- The estimate E of the template with its shape (R233). -/
def estimate (x : Nat) : Nat :=
  let wt := if mdChunks x == 0 then 0 else mdWTokens x
  if mdThin x then
    (if mdChunks x == 0 then 0 else holdTokens x) + wt / 2 + overlapSum x + lambda x + lastDrainTime x + 4
  else if mdOverlap x then wt + overlapSum x + lambda x + lastDrainTime x + 4
  else wt + overBlocks x fun b w => mdChunks x * chunkTime x b + lambda x + drain0 x b w + 4

/-- A shape may be chosen (R117, R232). -/
def candidate (x : Nat) : Bool := !mdThin x || (mdM x ≤ 16 && mdM x * mdChunks x * mdKs x * fmtWidth (mdA x) ≤ 65536 * 8)

/-! ### Plan and patch records (R231, R236) -/

def plMxu (p : Nat) : Nat := fld p 0 8
def plMask (p : Nat) : Nat := fld p 8 6
def plM (p : Nat) : Nat := fld p 16 8
def plN (p : Nat) : Nat := fld p 24 8
def plK (p : Nat) : Nat := fld p 32 8
def plMax (p i : Nat) : Nat := fld p (64 + 32 * i) 32
def plFirst (p : Nat) : Nat := fld p 160 10
def plCount (p : Nat) : Nat := fld p 176 11

def paDesc (r : Nat) : Nat := fld r 0 8
def paValue (r : Nat) : Nat := fld r 8 8
def paBit (r : Nat) : Nat := fld r 16 10
def paWidth (r : Nat) : Nat := fld r 26 6
def paUnit (r : Nat) : Nat := fld r 32 5
def paSigned (r : Nat) : Bool := bitOf r 37
def paApply (r : Nat) : Nat := fld r 38 6
def paMul (r : Nat) : Int := signedOf 32 (fld r 64 32)
def paAdd (r : Nat) : Int := signedOf 32 (fld r 96 32)

/-- The shape chosen: smallest estimate, lowest code among equals, with its estimate (R234). -/
def planPick (x mask m n k : Nat) : Option (Nat × Nat) :=
  ((List.range 6).filter fun sh => bitOf mask sh && candidate (withShape x sh m n k)).foldl
    (fun best sh =>
      let e := estimate (withShape x sh m n k)
      match best with
      | none => some (sh, e)
      | some (_, b) => if e < b then some (sh, e) else best) none

/-- A derived value of the planned template (R236). `src` reads a value source. -/
def derived (x : Nat) (src : Nat → Nat) (code : Nat) : Nat :=
  let c := mdChunks x
  match code with
  | 0x00 => mdM x
  | 0x01 => mdN x
  | 0x02 => mdK x
  | 0x03 => mdShape x
  | 0x04 => c
  | 0x05 => mdNBlocks x
  | 0x06 => ceilDiv (mdM x) (mdLimit x)
  | 0x07 => mdKs x
  | 0x08 => mdNs x
  | 0x09 => min (mdM x) (mdLimit x)
  | 0x0A =>
    if mdThin x then holdTokens x + mdNBlocks x * c * (mdWTokens x / 2)
    else mdNBlocks x * sumNat ((blockSizes (mdM x) (mdLimit x)).map fun r => r.1 * (c * aTokens x r.2))
  | 0x0B =>
    if mdThin x then mdNBlocks x * c * (mdWTokens x / 2)
    else ceilDiv (mdM x) (mdLimit x) * mdNBlocks x * c * mdWTokens x
  | 0x0C => overBlocks x (drain0 x)
  | 0x0D => overBlocks x (drain1 x)
  | 0x0E => 1
  | v => src (v - 0x80)

/-- What a PLAN or PATCH has worked out: fields of pool entries and fire counts, in the order of the writes. -/
structure Writes where
  sets : List FieldSet := []
  fires : List FireSet := []
  deriving DecidableEq, Repr

/-- Add the write of patch record number `i`, `r`, with value `v`: none where the result does not fit (R236, R238). -/
def Writes.patch (w : Writes) (i r : Nat) (v : Int) : Option Writes :=
  if paDesc r == 0xFF then
    (if v < 0 || 0xFFFFFFFF ≤ v then none
     else some { w with fires := w.fires ++ [{ unit := paUnit r, value := v.toNat, record := i }] })
  else
    let k := paWidth r
    let fits := if paSigned r then -((2 ^ (k - 1) : Nat) : Int) ≤ v && v < ((2 ^ (k - 1) : Nat) : Int)
                else 0 ≤ v && v < ((2 ^ k : Nat) : Int)
    if !fits then none
    else some { w with sets := w.sets ++ [{ entry := paDesc r, lo := paBit r, len := k, value := unsignedOf k v }] }

/-- Work out patch records in order; the answer is the first record that fails, or the writes. -/
def applyPatches (val : Nat → Nat) : List (Nat × Nat) → Writes → Except Nat Writes
  | [], w => .ok w
  | (i, r) :: rs, w =>
    match w.patch i r ((val (paValue r) : Int) * paMul r + paAdd r) with
    | none => .error i
    | some w => applyPatches val rs w

/-- A pool entry with a field written. -/
def FieldSet.onto (f : FieldSet) (x : BitVec 1024) : BitVec 1024 := BitVec.ofNat 1024 (setFld x.toNat f.lo f.len f.value)

/-- The working pool with fields written in order. -/
def applySets (pool : List (BitVec 1024)) (sets : List FieldSet) : List (BitVec 1024) :=
  sets.foldl (fun l f => l.modify f.entry f.onto) pool

/-- Patch records `first` to `first + count − 1` of a bank, with their numbers. -/
def Bank.patchList (b : Bank) (first count : Nat) : List (Nat × Nat) :=
  (List.range count).map fun i => (first + i, ((b.patches[first + i]?).map (·.toNat)).getD 0)

/-! ### Layouts of KIND 2 entries (R216) -/

/-- What the ISSUEs that name a pool entry make of it: a mover's, an update or a remote descriptor, and the generators that take
it as a pattern, each with its MSU's configuration and whether it is the write generator. -/
structure Layouts where
  mover : Bool := false
  update : Bool := false
  remote : Bool := false
  patterns : List (Nat × Bool) := []
  deriving DecidableEq, Repr

/-- What the ISSUEs that name pool entry `idx` make of it. `cfg ph u` is the configuration of unit `u` in phase `ph`. DESIGN CHOICE,
log entry 79: only ISSUEs in step lists that a context of some phase reaches count, whatever unit they name (R216). -/
def Bank.layouts (b : Bank) (cfg : Nat → Nat → Nat) (idx : Nat) : Layouts :=
  (List.range b.phases.length).foldl (fun acc ph =>
    let e := b.phase ph
    let steps := ((phCtxs e).flatMap fun c => b.reach (phEntry e c)).dedup
    steps.foldl (fun (acc : Layouts) i =>
      let x := b.step i
      if stOp x == 1 && stA16 x == idx && isTarget x == 3 then
        (if isUnit x == 31 then { acc with remote := true }
         else if msuMode (cfg ph (isUnit x)) == 3 then { acc with update := true } else { acc with mover := true })
      else if stOp x == 1 && stA16 x == idx && isTarget x != 0 then
        { acc with patterns := acc.patterns ++ [(cfg ph (isUnit x), isTarget x == 2)] }
      else acc) acc) {}

/-- A KIND 2 entry passes every layout that names it. -/
def Layouts.pass (l : Layouts) (x : Nat) : Bool :=
  (!(l.mover || l.update || l.remote) || zeroFld x 512 256) && (!l.mover || moverDescOk x) && (!l.update || updateDescOk x) &&
    (!l.remote || remoteDescOk x)

/-- Layouts that a patched KIND 2 template is checked against: those of its ISSUEs, the mover's (R197) where no ISSUE
names it. DEDUCED, log entry 64: R216 leaves such an entry unchecked at loading, and R234 names R197 for every patched template. -/
def Layouts.patched (l : Layouts) : Layouts := if l.mover || l.update || l.remote then l else { l with mover := true }

/-- A patched template, entry `i` of the pool, is well formed (R117, R177, R186, R197, R234). -/
def templateOk (i e : Nat) (lay : Nat → Layouts) (regs : Nat → Region) : Bool :=
  poolFormOk e &&
    (match poolKind e with
     | 0 => true
     | 1 => patternRegionOk (poolDesc e) regs && (lay i).patterns.all fun p => patternPortsOk p.1 p.2 (poolDesc e)
     | _ =>
       let l := (lay i).patched
       l.pass (poolDesc e) && (!l.mover || moverRegionOk (poolDesc e) regs))

/-- Every template that the writes change is well formed once they are made (R234). -/
def setsOk (pool : List (BitVec 1024)) (sets : List FieldSet) (lay : Nat → Layouts) (regs : Nat → Region) : Bool :=
  let new := applySets pool sets
  sets.all fun f => match new[f.entry]? with
    | some x => templateOk f.entry x.toNat lay regs
    | none => true

/-! ### PLAN and PATCH (R234 to R239) -/

/-- What a PLAN writes: its writes, shape and estimate, or the record index that fails. -/
def planWrites (b : Bank) (pool : List (BitVec 1024)) (src : Nat → Nat) (idx : Nat) : Except Nat (Writes × Nat × Nat) :=
  let p := ((b.plans[idx]?).map (·.toNat)).getD 0
  let m := src (plM p)
  let n := src (plN p)
  let k := src (plK p)
  if plMax p 0 < m || plMax p 1 < n || plMax p 2 < k then .error idx
  else
    let t := plMxu p
    let x := fld (((pool[t]?).map (·.toNat)).getD 0) 0 256
    match planPick x (plMask p) m n k with
    | none => .error idx
    | some (sh, est) =>
      let x' := withShape x sh m n k
      let w : Writes := { sets := [{ entry := t, lo := 0, len := 3, value := sh }, { entry := t, lo := 64, len := 32, value := m },
                                   { entry := t, lo := 96, len := 32, value := n }, { entry := t, lo := 128, len := 32, value := k }] }
      let recs := (b.patchList (plFirst p) (plCount p)).filter fun r => bitOf (paApply r.2) sh
      match applyPatches (derived x' src) recs w with
      | .error i => .error i
      | .ok w => .ok (w, sh, est)

/-- What a PATCH step writes, or the record that fails. -/
def patchWrites (b : Bank) (src : Nat → Nat) (first count : Nat) : Except Nat Writes :=
  applyPatches (fun v => if v == 0x0E then 1 else src (v - 0x80)) (b.patchList first count) {}

/-- TILE_PLAN_LAST (R222). -/
def planLast (idx shape est : Nat) : BitVec 64 :=
  BitVec.ofNat 64 (shape + idx % 256 * 2 ^ 8 + min est (2 ^ 32 - 1) * 2 ^ 16)

/-! ### Configuration records (R292) -/

/-- A record of a CONFIG or PARTIAL body: its type, target, entry, offset in the body and payload. -/
structure CfgRec where
  rtype : Nat
  target : Nat
  entry : Nat
  at_ : Nat
  payload : Bytes
  deriving DecidableEq, Repr

/-- Records of a body, up to `fuel`; none where the body is cut short. -/
def parseRecs : Nat → Nat → Bytes → Option (List CfgRec)
  | 0, _, bs => if bs.isEmpty then some [] else none
  | fuel + 1, off, bs =>
    if bs.isEmpty then some []
    else if bs.length < 8 then none
    else
      let h := fieldAt bs 0 8
      let n := fld h 32 16
      if bs.length < 8 + n then none
      else
        let r : CfgRec := { rtype := fld h 0 8, target := fld h 8 8, entry := fld h 16 6, at_ := off, payload := sliceAt bs 8 n }
        (parseRecs fuel (off + 8 + n) (bs.drop (8 + n))).map fun l => r :: l

/-- Records of a body that the loader has accepted. -/
def recsOf (bs : Bytes) : List CfgRec := (parseRecs bs.length 0 bs).getD []

/-- The CONFIG records of a phase. -/
def Bank.phaseRecs (b : Bank) (ph : Nat) : List CfgRec := recsOf ((lookupNat (phSection (b.phase ph)) b.configs).getD [])

/-- The configuration record of a unit among records; empty where the phase leaves it unused (R225). -/
def unitCfg (rs : List CfgRec) (u : Nat) : Nat :=
  match rs.find? fun (r : CfgRec) => r.rtype == 5 && r.target == u with
  | some r => leNat r.payload
  | none => 0

/-- The link switch word of a position among records. -/
def linkWord (rs : List CfgRec) (p : Nat) : Nat :=
  match rs.find? fun (r : CfgRec) => r.rtype == 3 && r.target == p with
  | some r => fieldAt r.payload 0 4
  | none => 0

/-- Configuration of a unit in a phase of a bank, and its MODE. -/
def Bank.cfgIn (b : Bank) (ph u : Nat) : Nat := unitCfg (b.phaseRecs ph) u
def Bank.modeIn (b : Bank) (ph u : Nat) : Nat := msuMode (b.cfgIn ph u)

end Sys2Proof.Machine
end

