-- ==== Sys2Proof/Machine/Program.lean ====
section
/-!
DEFINITION. Tile programs: which context issues (R38 to R40), the steps (R219, R220), what a step sends (R249 to R265),
the configuration port (R228 to R230, R237), the full commit (R225, R226) and the end of a phase (R70, R71, R224).
A step takes its effect in one command, at its last issue slot; the slots before it are taken as time passes (R220).
-/
namespace Sys2Proof.Machine

/-- The site's paddock is held outside its beats (R444). -/
def Dev.heldSite (d : Dev) (s : SiteId) : Bool := (((d.padOf s).bind d.pad).map (·.held)).getD false

/-! ### Contexts (R38 to R43) -/

/-- The context that issues: context 0 when it is READY, else round-robin after the last to issue (R39). While the paddock is held
only a step under way goes on (R444). -/
def Tile.pickCtx (t : Tile) (held : Bool) : Option CtxId :=
  let ready (c : CtxId) : Bool := (t.ctxs[c]).state == .ready && (!held || (t.ctxs[c]).slots != 0)
  if ready 0 then some 0
  else ((List.range 16).filterMap fun i => finOf 16 ((t.lastCtx + 1 + i) % 16)).find? ready

/-- The step that a context stands at. -/
def Tile.curStep (t : Tile) (c : CtxId) : Nat := t.active.step (t.ctxs[c]).pc

/-- The tile runs a phase of a paddock that runs, held or not (R222, R441). -/
def Dev.phaseLive (d : Dev) (s : SiteId) : Bool :=
  d.running && d.hasTile s && (d.tile s).ctl.phaseState == 2#8 && match (d.padOf s).bind d.pad with
  | some p => p.state == .running && !p.reloading && p.unstopped d.now
  | none => false

/-- Issue slots of an ISSUE: one per 32-bit word of the target register (R219). -/
def issueSlots (x : Nat) : Nat := match isTarget x with | 0 => 8 | 1 => 24 | 2 => 24 | _ => 16

/-- Issue slots of a step (R219); of a PLAN the least, one. -/
def stepSlots (x : Nat) : Nat :=
  match stOp x with
  | 0x01 => issueSlots x
  | 0x03 => 2 + 4 * stA32 x
  | 0x06 | 0x07 | 0x09 | 0x0F | 0x10 => 2
  | 0x0A => 3
  | _ => 1

/-- The most issue slots that a step takes: of a PLAN 900 and 4 for each of its patch records (R235). -/
def Bank.slotsMost (b : Bank) (x : Nat) : Nat :=
  if stOp x == 0x02 then 900 + 4 * plCount (((b.plans[stA16 x]?).map (·.toNat)).getD 0) else stepSlots x

/-- Context `c` issues a step of code `op` in this cycle, which is the step's last slot. -/
def stepEnabled (s : SiteId) (c : CtxId) (op : Nat) (d : Dev) : Bool :=
  let t := d.tile s
  d.phaseLive s && t.pickCtx (d.heldSite s) == some c && t.lastIssue != some d.now && stOp (t.curStep c) == op &&
    stepSlots (t.curStep c) ≤ (t.ctxs[c]).slots + 1

/-- The core takes one issue slot for the context, whose step has now taken `n` (R39, R220); those of contexts 2 to 15 are counted
(R510). -/
def Dev.slotFor (d : Dev) (s : SiteId) (c : CtxId) (n : Nat) : Dev :=
  ((d.modTile s fun t => { t with lastCtx := c.val, lastIssue := some d.now }).modCtx s c fun x => { x with slots := n }).countFixed s 6
    (if 2 ≤ c.val then 1 else 0)

/-- The last slot of a context's step. -/
def Dev.issued (d : Dev) (s : SiteId) (c : CtxId) : Dev := d.slotFor s c 0

/-- A cycle in which no step has had its effect goes to a step of several slots, where it is that context's turn (R39, R220). -/
def Dev.passSlot (d : Dev) (s : SiteId) : Dev :=
  let t := d.tile s
  if !d.phaseLive s || t.lastIssue == some d.now then d
  else match t.pickCtx (d.heldSite s) with
    | none => d
    | some c =>
      let n := (t.ctxs[c]).slots + 1
      if n < t.active.slotsMost (t.curStep c) then d.slotFor s c n else d

/-- The context goes on at a step. -/
def Dev.goto (d : Dev) (s : SiteId) (c : CtxId) (pc : Nat) : Dev := d.modCtx s c fun x => { x with pc := pc }

/-- The context goes on at the next step of its list. -/
def Dev.advance (d : Dev) (s : SiteId) (c : CtxId) : Dev := d.modCtx s c fun x => { x with pc := x.pc + 1 }

/-- The context is descheduled (R39). -/
def Dev.desched (d : Dev) (s : SiteId) (c : CtxId) (st : CtxState) (w : WaitFor) : Dev :=
  d.modCtx s c fun x => { x with state := st, wait := w, met := false }

/-- What a context waits for has come (R40). -/
def Dev.arrived (d : Dev) (s : SiteId) (c : CtxId) : Dev := d.modCtx s c fun x => { x with wait := .nothing }

/-- X[i] of a context. -/
def Ctx.reg (x : Ctx) (i : Nat) : BitVec 64 := vgetN x.x i 0#64

/-- Write X[i] of a context. -/
def Dev.setX (d : Dev) (s : SiteId) (c : CtxId) (i v : Nat) : Dev :=
  d.modCtx s c fun x => { x with x := vsetN x.x i (BitVec.ofNat 64 v) }

/-- A fault of the step that the context stands at (R246). -/
def Dev.stepFault (d : Dev) (s : SiteId) (c : CtxId) (code addr record : Nat) : Dev :=
  d.stepFaultAt s c ((d.tile s).ctxs[c]).pc code addr record

/-- The meaning of a step: it issues, then has its effect. -/
def onStep (s : SiteId) (c : CtxId) (op : Nat) (f : Nat → Dev → Dev) (st : State) : Host.Outcome State Fault Refusal :=
  onEvent st (stepEnabled s c op) fun _ d => f ((d.tile s).curStep c) (d.issued s c)

/-! ### NOP, SET, ADD, JUMP_LT, JUMP (R219) -/

/-- NOP. -/
def execStepNop (s : SiteId) (c : CtxId) (st : State) : Host.Outcome State Fault Refusal :=
  onStep s c 0x00 (fun _ d => d.advance s c) st

/-- Tiles of the paddock of a site. -/
def Dev.padTiles (d : Dev) (s : SiteId) : Nat := (((d.padOf s).bind d.pad).map fun p => p.tiles.length).getD 0

/-- Value of a source for a context (R221). -/
def Dev.sourceOf (d : Dev) (s : SiteId) (c : CtxId) (a64 v : Nat) : Nat := (d.tile s).source c (d.padTiles s) a64 v

/-- SET (R219). -/
def execStepSet (s : SiteId) (c : CtxId) (st : State) : Host.Outcome State Fault Refusal :=
  onStep s c 0x0B (fun x d => (d.setX s c (stXd x) (d.sourceOf s c (stA64 x) (stA16 x))).advance s c) st

/-- ADD (R219). -/
def execStepAdd (s : SiteId) (c : CtxId) (st : State) : Host.Outcome State Fault Refusal :=
  onStep s c 0x0C (fun x d =>
    (d.setX s c (stXd x) ((((d.tile s).ctxs[c]).reg (stXd x)).toNat + stA64 x)).advance s c) st

/-- JUMP_LT (R219). -/
def execStepJumpLt (s : SiteId) (c : CtxId) (st : State) : Host.Outcome State Fault Refusal :=
  onStep s c 0x0D (fun x d =>
    if (((d.tile s).ctxs[c]).reg (fld x 32 3)).toNat < stA64 x then d.goto s c (stA16 x) else d.advance s c) st

/-- JUMP (R219). -/
def execStepJump (s : SiteId) (c : CtxId) (st : State) : Host.Outcome State Fault Refusal :=
  onStep s c 0x0E (fun x d => d.goto s c (stA16 x)) st

/-! ### ISSUE (R219, R220) -/

/-- The fault of a unit that cannot take a descriptor, with what the event names of it: STEP_ID, and GROUP of an update (R215, R286). -/
def Dev.issueFault (d : Dev) (s : SiteId) (c : CtxId) (code unit : Nat) (names : List Nat) : Dev :=
  d.ctxFault s c { code := code, unit := some unit, extra := names }

/-- ACC_FOLD_MISMATCH: the unit stops before any port of the step fires (R124). -/
def Dev.mxuFoldFault (d : Dev) (s : SiteId) (c : CtxId) (x : Nat) : Dev :=
  (d.modMxu s fun u => { u with stopped := true }).issueFault s c 0x3006 0 [mdStepId x]

/-- The MXU takes a step descriptor (R120, R124, R480). DESIGN CHOICE, log entry 74: a third descriptor that also mismatches the
held fold raises 0x3006 and stops the unit, and no 0x4010. -/
def Dev.issueMxu (d : Dev) (s : SiteId) (c : CtxId) (x : Nat) : Dev :=
  let u := (d.tile s).mxu
  let r : MxuStep := { desc := BitVec.ofNat 256 x, ctx := c }
  if u.foldMismatch x then d.mxuFoldFault s c x
  else match u.running, u.pending with
    | none, _ => (d.modMxu s fun u => { u.start r d.anow with seeded := d.entropyOk }).advance s c
    | some _, none => (d.modMxu s fun u => { u with pending := some r }).advance s c
    | some _, some _ => d.issueFault s c 0x4010 0 [mdStepId x]

/-- A generator of an MSU takes a pattern (R187). One that the MSU's configuration makes malformed is not taken (R5, R186). -/
def Dev.issueGen (d : Dev) (s : SiteId) (c : CtxId) (m : MsuId) (write : Bool) (x : Nat) : Dev :=
  let u := d.msu s m
  let r : Issued := { desc := x, ctx := c, at_ := d.anow }
  if !patternPortsOk (d.pos s (msuPos m)).cfg.toNat write x then d.advance s c
  else match (if write then u.wr else u.rd).issue r d.anow with
  | none => d.issueFault s c 0x4011 (msuUnit m).val [pdStepId x]
  | some g => (d.modMsu s m fun u => if write then { u with wr := g } else { u with rd := g }).advance s c

/-- The mover, or the update path where MODE is 3, takes a descriptor; at a third it stops (R200, R215, R273, R286). -/
def Dev.issueMv (d : Dev) (s : SiteId) (c : CtxId) (m : MsuId) (x : Nat) : Dev :=
  let u := d.msu s m
  let r : Issued := { desc := x, ctx := c, at_ := d.now }
  if (d.tile s).msuCfgMode m == 3 then
    match u.upd.issue r d.now with
    | none => (d.modMsu s m fun u => { u with upd := { u.upd with stopped := true } }).issueFault s c 0x4011 (msuUnit m).val
        [udStepId x, udGroup x]
    | some v => (d.modMsu s m fun u => { u with upd := v }).advance s c
  else match u.mv.issue r d.now with
    | none => (d.modMsu s m fun u => { u with mv := { u.mv with stopped := true } }).issueFault s c 0x4011 (msuUnit m).val [mvStepId x]
    | some v => (d.modMsu s m fun u => { u with mv := v }).advance s c

/-- The remote engine with a descriptor in the running place (R378). -/
def Remote.start (r : Remote) (i : Issued) (now : Nat) : Remote :=
  { r with running := some i, since := now, row := 0, answered := 0, outBuf := [] }

/-- The remote engine takes a descriptor (R363, R378). -/
def Dev.issueRm (d : Dev) (s : SiteId) (c : CtxId) (x : Nat) : Dev :=
  let r := (d.tile s).rm
  let i : Issued := { desc := x, ctx := c, at_ := d.now }
  if !d.fabAvailable s || (d.tileSealed s && rdOp x != 4 && !d.inMyHitch (BitVec.ofNat 14 (fld x 64 64 / 2 ^ 39))) then
    d.issueFault s c 0x6012 31 [rdStepId x]
  else match r.running, r.pending with
    | none, _ => (d.modTile s fun t => { t with rm := t.rm.start i d.now }).advance s c
    | some _, none => (d.modTile s fun t => { t with rm := { t.rm with pending := some i } }).advance s c
    | some _, some _ => d.issueFault s c 0x4012 31 [rdStepId x]

/-- The working entry is written to the target register, which issues it. -/
def issueEffect (s : SiteId) (c : CtxId) (x : Nat) (d : Dev) : Dev :=
  let e := ((((d.tile s).pool)[stA16 x]?).map (·.toNat)).getD 0
  match isTarget x, finOf 8 (isUnit x - 17) with
  | 0, _ => d.issueMxu s c (fld e 0 256)
  | 1, some m => d.issueGen s c m false (fld e 0 768)
  | 2, some m => d.issueGen s c m true (fld e 0 768)
  | _, some m => if isUnit x == 31 then d.issueRm s c (fld e 0 512) else d.issueMv s c m (fld e 0 512)
  | _, none => if isUnit x == 31 then d.issueRm s c (fld e 0 512) else d.advance s c

/-- ISSUE (R219). -/
def execStepIssue (s : SiteId) (c : CtxId) (st : State) : Host.Outcome State Fault Refusal :=
  onStep s c 0x01 (issueEffect s c) st

/-! ### PLAN, PATCH and PARTIAL (R230, R234, R238) -/

/-- A request to the configuration port, served in the order of issue; the context waits (R220, R230). -/
def Dev.portAsk (d : Dev) (s : SiteId) (c : CtxId) (r : PortReq) : Dev :=
  ((d.modTile s fun t => { t with portQ := t.portQ ++ [r] }).advance s c).desched s c .waitTransfer .port

/-- The region descriptors in force. -/
def Tile.regionAt (t : Tile) (n : Nat) : Region := vgetN t.regions n {}

/-- What the ISSUEs of the tile's active image make of a pool entry. -/
def Tile.layouts (t : Tile) (idx : Nat) : Layouts := t.active.layouts t.active.cfgIn idx

def planEffect (s : SiteId) (c : CtxId) (x : Nat) (d : Dev) : Dev :=
  let t := d.tile s
  match planWrites t.active t.pool (d.sourceOf s c 0) (stA16 x) with
  | .error i => d.stepFault s c 0x3004 0 i
  | .ok (w, sh, est) => d.portAsk s c (.writes c (stA16 x) w.sets w.fires (some (planLast (stA16 x) sh est)))

/-- PLAN (R234). -/
def execStepPlan (s : SiteId) (c : CtxId) (st : State) : Host.Outcome State Fault Refusal :=
  onStep s c 0x02 (planEffect s c) st

def patchEffect (s : SiteId) (c : CtxId) (x : Nat) (d : Dev) : Dev :=
  let t := d.tile s
  match patchWrites t.active (d.sourceOf s c 0) (stA16 x) (stA32 x) with
  | .error i => d.stepFault s c 0x300C 0 i
  | .ok w => d.portAsk s c (.writes c (stA16 x) w.sets w.fires none)

/-- PATCH (R219, R238). -/
def execStepPatch (s : SiteId) (c : CtxId) (st : State) : Host.Outcome State Fault Refusal :=
  onStep s c 0x03 (patchEffect s c) st

/-- PARTIAL (R230). -/
def execStepPartial (s : SiteId) (c : CtxId) (st : State) : Host.Outcome State Fault Refusal :=
  onStep s c 0x0F (fun x d => d.portAsk s c (.partialCommit c (stA16 x))) st

/-! ### Bells (R247 to R251) -/

/-- Take `n` from a bell where it holds as much; deschedule otherwise (R250). -/
def waitBellEffect (s : SiteId) (c : CtxId) (x : Nat) (d : Dev) : Dev :=
  let b := stA16 x
  let n := stA32 x
  if n ≤ (d.tile s).bell b then (d.modTile s fun t => t.takeBell b n).advance s c
  else d.desched s c .waitBell (.bell b n)

/-- WAIT_BELL (R250). -/
def execStepWaitBell (s : SiteId) (c : CtxId) (st : State) : Host.Outcome State Fault Refusal :=
  onStep s c 0x04 (waitBellEffect s c) st

/-- A local add takes effect in the next cycle; a remote one is sent and owes an acknowledgement (R249, R252). -/
def bellAddEffect (s : SiteId) (c : CtxId) (x : Nat) (d : Dev) : Dev :=
  if !(bitOf x 127) then (d.advance s c).bellLater s (stA16 x) (stA32 x)
  else
    let d := (d.advance s c).modCtx s c fun y => { y with bellAcks := y.bellAcks + 1 }
    match (d.padOf s).bind fun k => d.tileSite k (fld x 64 6) with
    | some dst => d.meshTo s dst 2 true (.bellAdd (stA16 x) (stA32 x) s c)
    | none => d

/-- BELL_ADD (R249). -/
def execStepBellAdd (s : SiteId) (c : CtxId) (st : State) : Host.Outcome State Fault Refusal :=
  onStep s c 0x05 (bellAddEffect s c) st

/-! ### Messages (R261 to R267) -/

/-- The channel has an entry free for one more message, those that SENDs are copying counted, and is neither resending nor stuck
(R265). -/
def Tile.chanFree (t : Tile) (ch : Nat) : Bool :=
  let h := vgetN t.chans ch {}
  let held := (if h.current.isSome then 1 else 0) + (if h.waiting.isSome then 1 else 0) +
    (t.core.filter fun j => !j.recv && j.no == ch).length
  decide (held < 2) && h.state != .backoff && h.state != .stuck

/-- The core's accesses through the tile port begin, and the context waits for the last of them. DEDUCED, log entry 51. -/
def Dev.coreStart (d : Dev) (s : SiteId) (c : CtxId) (j : CoreJob) : Dev :=
  ((d.modTile s fun t => { t with core := t.core ++ [j] }).advance s c).desched s c .waitTransfer .tilePort

/-- A message is copied into a free entry of the channel, through the tile port (R265). -/
def sendEffect (s : SiteId) (c : CtxId) (x : Nat) (d : Dev) : Dev :=
  match finOf 64 (stA16 x) with
  | none => d
  | some ch =>
    if !(d.tile s).chanFree ch.val then d.desched s c .waitTransfer (.channel ch.val)
    else d.coreStart s c { ctx := c, recv := false, no := ch.val, addr := stA32 x, len := (d.chan s ch).bytes }

/-- SEND (R265). -/
def execStepSend (s : SiteId) (c : CtxId) (st : State) : Host.Outcome State Fault Refusal :=
  onStep s c 0x06 (sendEffect s c) st

/-- The first entry of a queue that no RECV is taking. -/
def MsgQueue.next (q : MsgQueue) : Option Bytes := q.entries[q.taking]?

/-- The head entry of a queue is written to the scratchpad, through the tile port, and then removed; an empty queue deschedules
(R264). -/
def recvEffect (s : SiteId) (c : CtxId) (x : Nat) (d : Dev) : Dev :=
  let q := stA16 x
  match (vgetN (d.tile s).queues q {}).next with
  | none => d.desched s c .waitQueue (.queue q)
  | some e =>
    (d.modTile s fun t => { t with queues := vmodN t.queues q fun v => { v with taking := v.taking + 1 } }).coreStart s c
      { ctx := c, recv := true, no := q, addr := stA32 x, len := 64, bytes := padTo 64 e, entry := e }

/-- RECV (R264). -/
def execStepRecv (s : SiteId) (c : CtxId) (st : State) : Host.Outcome State Fault Refusal :=
  onStep s c 0x07 (recvEffect s c) st

/-! ### Barriers, claims, sequences (R240 to R244, R253, R255) -/

/-- Fields of TILE_CAR_MAP (R253). -/
def TileCtl.barBase (t : TileCtl) : Nat := bvFld t.carMap 0 8
def TileCtl.barCount (t : TileCtl) : Nat := bvFld t.carMap 8 8
def TileCtl.workBase (t : TileCtl) : Nat := bvFld t.carMap 16 8
def TileCtl.workCount (t : TileCtl) : Nat := bvFld t.carMap 24 9

/-- The blocks of barriers and work counters that a paddock holds until its release, whether or not a tile of it is in place
(R437, R442). -/
def Paddock.block (p : Paddock) : TileCtl := { carMap := p.carMap }

/-- The tile's copy of a barrier's episode (R253). -/
def TileCtl.episode (t : TileCtl) (b : Nat) : BitVec 2 := BitVec.ofNat 2 (bvFld t.barEpisode (2 * b) 2)

/-- Write the tile's copy of a barrier's episode. -/
def TileCtl.setEpisode (t : TileCtl) (b : Nat) (e : BitVec 2) : TileCtl :=
  { t with barEpisode := BitVec.ofNat 512 (setFld t.barEpisode.toNat (2 * b) 2 e.toNat) }

/-- Send an arrival and wait for the episode to change (R255). -/
def Dev.arriveAt (d : Dev) (s : SiteId) (c : CtxId) (b : Nat) : Dev :=
  let e := (d.tile s).ctl.episode b
  (d.desched s c .waitTransfer (.barrier b e)).meshToPr s 7 2 true (.arrive b e s)

/-- BARRIER (R253, R255). -/
def execStepBarrier (s : SiteId) (c : CtxId) (st : State) : Host.Outcome State Fault Refusal :=
  onStep s c 0x08 (fun x d => (d.advance s c).arriveAt s c ((d.tile s).ctl.barBase + stA16 x)) st

/-- CLAIM asks the carillon; its answer sends the context on (R242, R259). -/
def execStepClaim (s : SiteId) (c : CtxId) (st : State) : Host.Outcome State Fault Refusal :=
  onStep s c 0x09 (fun x d =>
    (d.desched s c .waitTransfer (.work (stXd x) (stA32 x) (fld x 64 12))).meshToPr s 7 2 false
      (.workReq ((d.tile s).ctl.workBase + stA16 x) s c)) st

/-- COMMIT: a stale grant ends at once; any other goes to the loft that owns its claim word (R243, R244). -/
def commitEffect (s : SiteId) (c : CtxId) (x : Nat) (d : Dev) : Dev :=
  let t := d.tile s
  let g := ((t.ctxs[c]).reg (fld x 32 3)).toNat
  let gen := fld g 32 16
  let work := t.ctl.workBase + fld x 40 8
  if BitVec.ofNat 16 gen != (vgetN d.car.works work {}).gen then
    ((d.setX s c (stXd x) 2).modCtl s fun q => { q with claimStale := q.claimStale.inc d.now }).advance s c
  else
    let a := (vgetN t.ctl.param (stA16 x) 0#64).toNat + 8 * fld g 0 32
    if !linearValid (a : Int) then d.stepFault s c 0x3005 a 0
    else match finOf 48 (dramLoft a) with
      | none => d
      | some l =>
        let m : MeshMsg := .claimReq a (BitVec.ofNat 16 gen) (d.tileNum s) s c
        let d := d.desched s c .waitTransfer (.claim (stXd x))
        if l == s then { d with claims := vmod d.claims l fun q => q ++ [m] }
        else d.launch { at_ := s, dests := [l], loftEp := true, vc := 0, prio := false, src := s.val, paddock := d.padOf s, body := m }

/-- COMMIT (R243). -/
def execStepCommit (s : SiteId) (c : CtxId) (st : State) : Host.Outcome State Fault Refusal :=
  onStep s c 0x0A (commitEffect s c) st

/-- SEQ_ADVANCE (R240). -/
def seqAdvanceEffect (s : SiteId) (c : CtxId) (x : Nat) (d : Dev) : Dev :=
  let n := (((d.tile s).ctxs[c]).reg (fld x 32 3)).toNat
  let sl := vgetN d.seqs (stA16 x) {}
  if sl.bound.isNone || sl.bound != d.padOf s || 16777216 < sl.length + n then d.stepFault s c 0x300B 0 (stA16 x)
  else ({ d with seqs := vmodN d.seqs (stA16 x) fun q => { q with length := q.length + n } }).advance s c

/-- SEQ_ADVANCE (R240). -/
def execStepSeqAdvance (s : SiteId) (c : CtxId) (st : State) : Host.Outcome State Fault Refusal :=
  onStep s c 0x10 (seqAdvanceEffect s c) st

/-! ### END (R224, R252) -/

/-- Every context of the phase has executed END: the tile is ENDING (R224). -/
def Tile.checkEnding (t : Tile) : Tile :=
  if t.ctl.phaseState == 2#8 && t.ctxs.toList.all (fun x => x.state == .idle) then
    { t with ctl := { t.ctl with phaseState := 3#8 } }
  else t

/-- END waits for the acknowledgements of the context's messages and remote bell adds (R252). -/
def endEffect (s : SiteId) (c : CtxId) (d : Dev) : Dev :=
  let x := (d.tile s).ctxs[c]
  if x.bellAcks != 0 || x.msgs != 0 then d.desched s c .waitTransfer .acks
  else (d.modCtx s c fun x => { x with state := .idle, wait := .nothing }).modTile s Tile.checkEnding

/-- END (R219). -/
def execStepEnd (s : SiteId) (c : CtxId) (st : State) : Host.Outcome State Fault Refusal :=
  onStep s c 0x1F (fun _ d => endEffect s c d) st

/-! ### CONTEXT_WAKE (R40) -/

/-- The condition of a descheduled context holds. -/
def Tile.wakes (t : Tile) (c : CtxId) : Bool :=
  let x := t.ctxs[c]
  (x.state == .waitBell || x.state == .waitQueue || x.state == .waitTransfer) &&
    (match x.wait with
     | .nothing => true
     | .bell b n => n ≤ t.bell b
     | .queue q => (vgetN t.queues q {}).next.isSome
     | .barrier b e => t.ctl.episode b != e
     | .tilePort => !t.core.any fun j => j.ctx == c
     | .channel ch => t.chanFree ch
     | .acks => x.bellAcks == 0 && x.msgs == 0
     | .work .. | .claim _ | .port => false)

/-- What a wait tests in the NCLK cycle in which it issues includes what comes later in that cycle (R40): where the condition holds
at the cycle's end, the context goes on and was never descheduled. A step that waits where it stands has its effect then; one whose
effect came before its wait is done. -/
def Dev.retest (d : Dev) (s : SiteId) : Dev :=
  let t := d.tile s
  match (if t.lastIssue == some d.now then finOf 16 t.lastCtx else none) with
  | none => d
  | some c =>
    if !(d.phaseLive s && t.wakes c) then d
    else
      let x := t.curStep c
      let d := d.modCtx s c fun y => { y with state := .ready, wait := .nothing }
      match (t.ctxs[c]).wait with
      | .bell .. => waitBellEffect s c x d
      | .channel _ => sendEffect s c x d
      | .queue _ => recvEffect s c x d
      | .acks => endEffect s c d
      | _ => d

/-- The end of an NCLK cycle for a context: the condition that it waits for has held in that cycle, or has not yet (R40). -/
def Tile.noteWakes (t : Tile) : Tile :=
  { t with ctxs := Vector.ofFn fun c => let x := t.ctxs[c]; { x with met := x.met || t.wakes c } }

/-- The condition first held in an earlier cycle (R40). -/
def wakeEnabled (s : SiteId) (c : CtxId) (d : Dev) : Bool :=
  let x := (d.tile s).ctxs[c]
  d.tileLive s && d.hasTile s && x.met && !((d.tile s).commitWait && c == 0)

/-- CONTEXT_WAKE (R40). -/
def execContextWake (s : SiteId) (c : CtxId) (st : State) : Host.Outcome State Fault Refusal :=
  onEvent st (wakeEnabled s c) fun _ d => d.modCtx s c fun x => { x with state := .ready, wait := .nothing, met := false }

/-! ### CONFIG_PORT_SERVE (R228 to R230, R237) -/

/-- The configuration with the tile's generation in its header (R227). -/
def withGen (cfg : Nat) (gen : BitVec 16) : BitVec 1024 := BitVec.ofNat 1024 (setFld cfg 96 16 gen.toNat)

/-- A position's queues, buffers and pipeline hold nothing. -/
def Pos.quiet (q : Pos) : Bool := q.inQ.toList.all (·.isEmpty) && q.outQ.toList.all (·.isEmpty)

/-- The buffers of an MSU hold nothing: no bytes to write or on their way from the scratchpad, and of an elastic one no token on its
way into its region, in it or on its way out (R176, R189, R228). -/
def Tile.msuQuiet (t : Tile) (m : MsuId) : Bool :=
  let u := t.msus[m]
  u.wbuf.isEmpty && u.wsec.isNone && u.asmP.isEmpty && u.asmS.isEmpty && u.flight.isEmpty && u.elWrite.isEmpty && u.elFlight == 0 &&
    u.elBack.isEmpty && (t.msuCfgMode m != 2 || (vgetN t.regions (t.elasticRegion m) {}).occ == 0)

/-- The pipeline of the unit at a position holds nothing (R228). -/
def Tile.pipeQuiet (t : Tile) (p : PosId) : Bool :=
  let n := (posUnit p).val
  if n = 0 then t.mxu.running.isNone && t.mxu.shadow.isEmpty
  else match finOf 8 (n - 17) with
    | some m => n < 17 || t.msuQuiet m
    | none => true

/-- Source code of an outgoing side in a link switch word. -/
def swSource (w : BitVec 16) (k : Nat) : Nat := bvFld w (3 * k) 3

/-- Link queues and pass-through registers on the sides whose source the new word changes are empty (R228). -/
def Pos.swapQuiet (q : Pos) (w : BitVec 16) : Bool :=
  (List.range 4).all fun k =>
    swSource q.switch k == swSource w k || ((vgetN q.linkQ k []).isEmpty && (vgetN q.passReg k none).isNone)

/-- What a commit makes of the unit at a position (R135, R152, R480); a full commit also clears the registers that a phase commit
resets (R119, R187, R200, R285). DESIGN CHOICE, log entry 75: bytes left in an MSU's write buffer, and a secondary token there,
stay, and the next write pattern takes them. -/
def Tile.resetUnit (t : Tile) (p : PosId) (full seeded : Bool) : Tile :=
  let u := posUnit p
  if u.val = 0 then (if full then { t with mxu := { t.mxu with stepCount := 0#32 } } else t)
  else match finOf 16 (u.val - 1), finOf 8 (u.val - 17) with
    | some v, _ => { t with vxus := vmod t.vxus v fun x => { x with
        regs := Vector.replicate 8 Token.zero, preds := Vector.replicate 2 0#256,
        tcount := Vector.replicate 6 0, seeded := seeded } }
    | none, some m => { t with msus := vmod t.msus m fun x =>
        if full then { x with
          complete := 0, rdTokens := 0#32, wrTokens := 0#32, mv := { x.mv with bytesMoved := 0 },
          upd := { x.upd with blocks := 0#32, skipped := 0#32, repeat_ := {}, flags := {} } }
        else { x with complete := 0 } }
    | none, none => t

/-- The port writes a position: its link word, its unit's configuration where one is given, FIRED = 0. -/
def Tile.writePos (t : Tile) (p : PosId) (w : BitVec 16) (cfg : Option Nat) (full seeded : Bool) : Tile :=
  let t := { t with
    grid := vmod t.grid p fun q => match cfg with
      | some x => { q with switch := w, cfg := withGen x t.ctl.cfgGen, fired := 0, lastFire := none }
      | none => { q with switch := w },
    scrub := { t.scrub with badPos := t.scrub.badPos.filter (· != p.val) } }
  if cfg.isSome then t.resetUnit p full seeded else t

/-- Positions of a PARTIAL body with their words and configurations. -/
def partialPos (rs : List CfgRec) : List (PosId × BitVec 16 × Option Nat) :=
  (fins 25).filterMap fun p =>
    match rs.find? fun (r : CfgRec) => r.rtype == 3 && r.target == p.val with
    | none => none
    | some l =>
      some (p, BitVec.ofNat 16 (fieldAt l.payload 0 4),
        (rs.find? fun (r : CfgRec) => r.rtype == 5 && r.target == (posUnit p).val).map fun r => leNat r.payload)

/-- The checks of a partial commit (R228). -/
def Tile.partialOk (t : Tile) (l : List (PosId × BitVec 16 × Option Nat)) : Bool :=
  l.all fun (p, w, _) => let q := t.grid[p]; (q.fireCount ≤ q.fired) && q.quiet && t.pipeQuiet p && q.swapQuiet w

/-- The unit can take a FIRE_COUNT patch (R237). -/
def Tile.fireOk (t : Tile) (u : Nat) : Bool :=
  match finOf 25 u with
  | some u => let q := t.grid[unitPos u]; q.fired == 0 && q.inQ.toList.all (·.isEmpty)
  | none => false

/-- Write the fire count of a unit. -/
def Tile.writeFire (t : Tile) (u n : Nat) : Tile :=
  match finOf 25 u with
  | some u => { t with grid := vmod t.grid (unitPos u) fun q => { q with cfg := BitVec.ofNat 1024 (setFld q.cfg.toNat 64 32 n) } }
  | none => t

/-- Serve a request of the port, checked as it is served (R230): the tile after it, or the fault's code and the record that it
names (R228, R237, R238). DESIGN CHOICE, log entry 79: where a patched template is malformed that is the plan's record of a PLAN and
the first record of a PATCH (R246). -/
def Tile.serve (t : Tile) (seeded : Bool) : PortReq → Except (Nat × Nat) Tile
  | .partialCommit _ idx =>
    let l := partialPos (recsOf ((lookupNat idx t.active.partials).getD []))
    if t.partialOk l then .ok (l.foldl (fun t x => t.writePos x.1 x.2.1 x.2.2 false seeded) t) else .error (0x1004, idx)
  | .writes _ record sets fires last =>
    if !setsOk t.pool sets t.layouts t.regionAt then .error (if last.isSome then 0x3004 else 0x300C, record)
    else match fires.find? fun f => !t.fireOk f.unit with
      | some f => .error (0x1004, f.record)
      | none =>
        let t := { t with
          pool := applySets t.pool sets,
          ctl := match last with | some v => { t.ctl with planLast := v } | none => t.ctl }
        .ok (fires.foldl (fun t f => t.writeFire f.unit f.value) t)

def PortReq.ctx : PortReq → CtxId
  | .partialCommit c _ => c
  | .writes c .. => c

def portEnabled (s : SiteId) (d : Dev) : Bool :=
  d.phaseLive s && !(d.tile s).portQ.isEmpty && !(d.tile s).commitDue

/-- The port serves its oldest request: all of it, or a fault at the step that made it and nothing (R246). -/
def portEffect (s : SiteId) (d : Dev) : Dev :=
  match (d.tile s).portQ with
  | [] => d
  | r :: rest =>
    let d := d.modTile s fun t => { t with portQ := rest, portAt := some d.now }
    match (d.tile s).serve d.entropyOk r with
    | .ok t => (d.modTile s fun _ => t).arrived s r.ctx
    | .error (code, i) => d.stepFaultAt s r.ctx (((d.tile s).ctxs[r.ctx]).pc - 1) code 0 i

/-- CONFIG_PORT_SERVE (R230). -/
def execConfigPortServe (s : SiteId) (st : State) : Host.Outcome State Fault Refusal :=
  onEvent st (portEnabled s) fun _ => portEffect s

/-! ### FULL_COMMIT (R225 to R227, R241) -/

/-- TILE_CFG_GEN after one more full commit (R227). -/
def nextGen (g : BitVec 16) : BitVec 16 := if g == 0xFFFF#16 then 1#16 else g + 1

/-- The phase that a full commit writes: phase 0 first, NEXT after that, and NEXT of the phase that a RESTORE wrote (R223, R225,
R448). -/
def Tile.nextPhase (t : Tile) : Nat :=
  if t.ctl.cfgGen == 0#16 && !t.restored then 0 else phNext (t.active.phase t.ctl.phase.toNat)

/-- Slot lengths as a tile latches them (R222, R241). -/
def latchSeqs (seqs : Vector SeqSlot 16) (k : Option PadId) : Vector Word 16 :=
  seqs.map fun q => BitVec.ofNat 32 (q.length + (if q.bound.isSome && q.bound == k then 2 ^ 31 else 0))

/-- The tile's part of a full commit: regions, constants, its own link words and all 25 units. -/
def Tile.fullCommit (t : Tile) (lens : Vector Word 16) (seeded : Bool) : Tile :=
  let ph := t.nextPhase
  let rs := t.active.phaseRecs ph
  let t := { t with ctl := { t.ctl with
    cfgGen := nextGen t.ctl.cfgGen, phase := BitVec.ofNat 32 ph, phaseState := 1#8, seqLen := lens } }
  let t := rs.foldl (fun (t : Tile) (r : CfgRec) =>
    if r.rtype == 1 then { t with regions := vsetN t.regions r.target { desc := BitVec.ofNat 128 (leNat r.payload) } }
    else if r.rtype == 2 then { t with
      vxus := vmodN t.vxus (r.target - 1) fun v => { v with
        consts := (List.range (r.payload.length / 256)).foldl (fun cs i =>
          vsetN cs (r.entry + i) (Token.ofBytes 0#3 (sliceAt r.payload (256 * i) 256))) v.consts } }
    else t) t
  (fins 25).foldl (fun t p =>
    t.writePos p (BitVec.ofNat 16 (linkWord rs p.val)) (some (unitCfg rs (posUnit p).val)) true seeded) t

/-- Link switch words of the hosted pass site of index `j` (R292). -/
def passWords (rs : List CfgRec) (j : Nat) (p : PosId) : BitVec 16 :=
  match rs.find? fun (r : CfgRec) => r.rtype == 4 && r.target == p.val && r.entry == j with
  | some r => BitVec.ofNat 16 (fieldAt r.payload 0 4)
  | none => 0#16

/-- Pass sites that tile number `n` hosts, with their index. -/
def ImageInfo.hosted (im : ImageInfo) (n : Nat) : List (SiteId × Nat) :=
  (im.pass.zipIdx.filter fun x => x.1.2 == n).map fun x => (x.1.1, x.2)

/-- A hold lets the configuration port finish its writes (R445). -/
def fullCommitEnabled (s : SiteId) (d : Dev) : Bool :=
  d.running && d.hasTile s && (d.tile s).commitDue && match (d.padOf s).bind d.pad with
    | some p => p.state == .running && !p.reloading && p.unstopped d.now
    | none => false

/-- A phase that the first tile of a paddock commits counts as one phase of its run (R431). -/
def Dev.countPhase (d : Dev) (k : PadId) (s : SiteId) : Dev :=
  match d.pad k with
  | some p => match p.run, p.sites.head? == some s with
    | some i, true => d.modOp i fun o => { o with progress := o.progress + 1 }
    | _, _ => d
  | none => d

/-- Context 0 writes the next phase and arrives at the commit barrier. -/
def fullCommitEffect (s : SiteId) (d : Dev) : Dev :=
  let k := d.padOf s
  let lens := latchSeqs d.seqs k
  let d := d.modTile s fun t => t.fullCommit lens d.entropyOk
  let rs := (d.tile s).active.phaseRecs (d.tile s).ctl.phase.toNat
  let sites := (((k.bind d.pad).bind (·.image)).map fun im => im.hosted (d.tileNum s)).getD []
  let d := sites.foldl (fun d x => d.modTile x.1 fun t => { t with
    grid := Vector.ofFn fun p => { t.grid[p] with switch := passWords rs x.2 p }
    scrub := { t.scrub with badPos := [] } }) d
  let d := d.modTile s fun t => { t with commitDue := false, commitWait := true, restored := false, portAt := some d.now }
  match k with
  | some k => (d.countPhase k s).arriveAt s 0 (240 + k.val)
  | none => d

/-- FULL_COMMIT (R226). -/
def execFullCommit (s : SiteId) (st : State) : Host.Outcome State Fault Refusal :=
  onEvent st (fullCommitEnabled s) fun _ => fullCommitEffect s

/-- The release of the commit barrier starts the phase: each of its contexts is READY at its first step with X zero
(R221, R226). -/
def Tile.startPhase (t : Tile) : Tile :=
  let e := t.active.phase t.ctl.phase.toNat
  Tile.checkEnding { t with
    commitWait := false, ctl := { t.ctl with phaseState := 2#8 },
    ctxs := Vector.ofFn fun c =>
      if phRuns e c.val then { state := .ready, pc := phEntry e c.val } else { t.ctxs[c] with state := .idle, wait := .nothing } }

/-- The NCLK cycle after the commit barrier's release has reached the tile: the phase runs (R226). -/
def Tile.startDuePhase (t : Tile) : Tile := if t.startDue then { t with startDue := false }.startPhase else t

/-! ### PHASE_END (R70, R71, R224, R225) -/

/-- The head of a link queue has somewhere to go: a pass-through output or room in the input queue behind it. -/
def Pos.canMove (q : Pos) (side : Nat) : Bool :=
  match (vgetN q.linkQ side []).head? with
  | some t => !t.bad && ((List.range 4).any (fun k => q.passFrom k == some side) || match q.inputOf side with
      | some n => (vgetN q.inQ n []).length < 8
      | none => false)
  | none => false

/-- The tokens of a position have come to rest (R70): pipelines, output buffers and pass-through registers are empty,
none is on a link, and none can move on from its link queue. -/
def Pos.still (q : Pos) (now : Nat) : Bool :=
  q.outQ.toList.all (·.isEmpty) && q.passReg.toList.all (·.isNone) &&
    q.linkQ.toList.all (fun l => l.all (·.avail ≤ now)) && (List.range 4).all fun side => !q.canMove side

/-- Input and link queues are empty. -/
def Pos.dry (q : Pos) : Bool := q.inQ.toList.all (·.isEmpty) && q.linkQ.toList.all (·.isEmpty)

/-- No transfer, pattern or remote request of the tile is open, and no elastic buffer holds a token (R224). -/
def Tile.atRest (t : Tile) : Bool :=
  (fins 8).all (fun m =>
    let u := t.msus[m]
    u.mv.jobs.isEmpty && u.mv.running.isNone && u.upd.jobs.isEmpty && u.upd.running.isNone &&
      u.rd.running.isNone && u.wr.running.isNone && u.elWrite.isEmpty && u.elFlight == 0 &&
      (t.msuCfgMode m != 2 || (t.regionAt (t.elasticRegion m)).occ == 0)) &&
    t.rm.running.isNone && t.rm.tail.isEmpty

/-- Every unit of the tile has fired its count. -/
def Tile.unitsDone (t : Tile) : Bool := t.grid.toList.all fun q => q.fireCount ≤ q.fired

/-- The phase has ended on every site of the paddock (R70, R224). -/
def phaseEndEnabled (k : PadId) (d : Dev) : Bool :=
  d.padLive k && match d.pad k with
  | none => false
  | some p =>
    !p.sites.isEmpty &&
      p.sites.all (fun s => let t := d.tile s; t.ctl.phaseState == 3#8 && !t.commitDue && t.unitsDone && t.atRest) &&
      p.allSites.all fun s => (d.tile s).grid.toList.all fun q => q.still d.anow

/-- Positions with tokens left, first site and unit (R71). -/
def leftOver (d : Dev) (p : Paddock) : Option (SiteId × Nat) :=
  p.allSites.findSome? fun s => ((fins 25).find? fun q => !((d.tile s).grid[q]).dry).map fun q => (s, (posUnit q).val)

/-- The tile has a full commit to perform: COMMITTING, context 0 READY, and fenced until it has performed it (R62, R226). -/
def Tile.startCommit (t : Tile) : Tile :=
  { t with
    commitDue := true, ctl := { t.ctl with phaseState := 1#8 },
    ctxs := vmod t.ctxs 0 fun x => { x with state := .ready, wait := .nothing } }

/-- A drained phase: the run is DONE after a LAST phase; otherwise each tile has a full commit to perform (R225), unless
the run is to be suspended at this point (R419). -/
def phaseEndEffect (k : PadId) (d : Dev) : Dev :=
  match d.pad k with
  | none => d
  | some p =>
    match leftOver d p with
    | some (s, u) => d.raise k none true { code := 0x1002, site := some s, unit := some u }
    | none =>
      let last := match p.sites with
        | s :: _ => phLast ((d.tile s).active.phase (d.tile s).ctl.phase.toNat)
        | [] => true
      if last then
        let d := d.forSites p.sites fun t => Tile.dropSample { t with ctl := { t.ctl with phaseState := 0#8 } } d.now
        let d := d.modPad k fun q => { q with state := .ready, suspendDue := false }
        d.endOp p.run .done 0
      else if p.suspendDue then d
      else d.forSites p.sites Tile.startCommit

/-- PHASE_END (R70). -/
def execPhaseEnd (k : PadId) (st : State) : Host.Outcome State Fault Refusal :=
  onEvent st (phaseEndEnabled k) fun _ => phaseEndEffect k

end Sys2Proof.Machine
end

