-- ==== Sys2Proof/Machine/Sync.lean ====
section
/-!
DEFINITION. Bells, the carillon, message queues and claims as they arrive (R243 to R267), and the records of the sample
unit (R519): what an endpoint does with a packet that has reached it.
-/
namespace Sys2Proof.Machine

/-! ### Carillon barriers (R253 to R260) -/

/-- Fields of CAR_BAR_CFG and CAR_BAR_STATE (R260). -/
def CarBarrier.target (b : CarBarrier) : Nat := bvFld b.cfg 0 16
def CarBarrier.childCount (b : CarBarrier) : Nat := bvFld b.cfg 16 8
def CarBarrier.hasParent (b : CarBarrier) : Bool := b.cfg.getLsbD 24
def CarBarrier.slot (b : CarBarrier) : Nat := bvFld b.cfg 25 4
def CarBarrier.spanning (b : CarBarrier) : Bool := b.cfg.getLsbD 29
def CarBarrier.parent (b : CarBarrier) : Nat := bvFld b.cfg 32 14
def CarBarrier.brand (b : CarBarrier) : BitVec 16 := BitVec.ofNat 16 (bvFld b.cfg 48 16)
def CarBarrier.pad (b : CarBarrier) : Nat := bvFld b.cfg 64 4
def CarBarrier.enabled (b : CarBarrier) : Bool := b.cfg.getLsbD 68
def CarBarrier.count (b : CarBarrier) : Nat := bvFld b.state 0 16
def CarBarrier.arrivedChildren (b : CarBarrier) : Nat := bvFld b.state 16 8
def CarBarrier.episode (b : CarBarrier) : BitVec 2 := BitVec.ofNat 2 (bvFld b.state 24 2)
def CarBarrier.sentUp (b : CarBarrier) : Bool := b.state.getLsbD 26
def CarBarrier.releases (b : CarBarrier) : Nat := bvFld b.state 32 32

/-- Set a field of CAR_BAR_STATE. -/
def CarBarrier.setState (b : CarBarrier) (lo len v : Nat) : CarBarrier :=
  { b with state := BitVec.ofNat 64 (setFld b.state.toNat lo len v) }

def Dev.bar (d : Dev) (b : BarId) : CarBarrier := d.car.bars[b]
def Dev.modBar (d : Dev) (b : BarId) (f : CarBarrier → CarBarrier) : Dev :=
  { d with car := { d.car with bars := vmod d.car.bars b f } }

/-- BARRIER_OVERRUN: recorded in context 0 of every tile of the paddock, one event, and the paddock stops (R255, R268). -/
def Dev.overrun (d : Dev) (k : PadId) (b : BarId) : Dev :=
  match d.pad k with
  | none => d
  | some p =>
    let q := d.bar b
    if !p.faultsOpen d.now then d
    else (d.forSites p.sites fun t => t.recordFault 0 0x4004 d.now).raise k none true
      { code := 0x4004, extra := [b.val, q.episode.toNat, q.count, q.arrivedChildren] }

/-- The barrier's own paddock is overrun, and its episode is not released (R255). -/
def Dev.overrunBar (d : Dev) (b : BarId) : Dev :=
  let d := d.modBar b fun q => { q with stuck := true }
  match finOf 16 (d.bar b).pad with
  | some k => d.overrun k b
  | none => d

/-- A barrier message of the fabric; its TAG names the carillon, at site 21 (R369, R389, R391). -/
def barPkt (dest code logical episode : Nat) (brand : BitVec 16) : FabPkt :=
  { reqPkt dest 5 0 0x20 0 brand (tagOf 0 21 2) 0#16 true
      (leBytes 2 code ++ [0#8, 0#8] ++ leBytes 1 logical ++ leBytes 1 episode ++ [0#8, 0#8]) [] with cls := 2#2 }

/-- Logical number of a physical barrier in the paddock's block (R253). -/
def Dev.logicalBar (d : Dev) (b : BarId) : Nat :=
  match (finOf 16 (d.bar b).pad).bind d.pad with
  | some p => b.val - p.block.barBase
  | none => 0

/-- Devices of the child list (R260). -/
def Dev.children (d : Dev) (b : BarId) : List (BitVec 14) :=
  let q := d.bar b
  (vgetN d.car.spans q.slot []).take q.childCount

/-- Release the barrier: release packets to the children, counts zero, episode on, broadcast on the release tree, which
reaches every site within 12 cycles (R255, R256, R258). -/
def Dev.releaseBar (d : Dev) (b : BarId) : Dev :=
  let q := d.bar b
  let e := q.episode + 1
  let d := if q.spanning then
      (d.children b).foldl (fun d c => d.inject (some prCarillon) (barPkt c.toNat 0x0009 (d.logicalBar b) e.toNat q.brand)) d else d
  let d := d.modBar b fun q =>
    { ((((q.setState 0 16 0).setState 16 8 0).setState 24 2 e.toNat).setState 26 1 0).setState 32 32 (q.releases + 1) with
      children := [] }
  { d with car := { d.car with releases := d.car.releases ++ (fins 48).map fun s => (s, b.val, e, d.now + 12) } }

/-- A barrier whose counts are complete releases, or reports to its parent once (R255, R258). -/
def Dev.checkBar (d : Dev) (b : BarId) : Dev :=
  let q := d.bar b
  if q.stuck || q.count != q.target || (q.spanning && q.arrivedChildren != q.childCount) then d
  else if q.spanning && q.hasParent then
    (if q.sentUp then d
     else (d.modBar b fun q => q.setState 26 1 1).inject (some prCarillon)
       (barPkt q.parent 0x0008 (d.logicalBar b) q.episode.toNat q.brand))
  else d.releaseBar b

/-- Arrivals at a barrier that wait in the carillon: NCLK cycle of their arrival, tag and site. -/
def Carillon.allArrivals (c : Carillon) (b : Nat) : List (Nat × BitVec 2 × SiteId) :=
  c.inbox.filterMap fun m => match m.2 with
    | .arrive bar tag src => if bar == b then some (m.1, tag, src) else none
    | _ => none

/-- The first cycle from which arrivals at a barrier wait. -/
def Carillon.arrivalCycle (c : Carillon) (b : Nat) : Nat := (((c.allArrivals b).map (·.1)).min?).getD 0

/-- The arrivals of that cycle: tag and site. -/
def Carillon.arrivals (c : Carillon) (b : Nat) : List (BitVec 2 × SiteId) :=
  ((c.allArrivals b).filter fun a => a.1 == c.arrivalCycle b).map (·.2)

def arrivalEnabled (b : BarId) (d : Dev) : Bool := d.running && !(d.car.arrivals b.val).isEmpty

/-- The paddock that an arrival concerns: the barrier's, or the arriving one where the barrier is disabled (R254). -/
def Dev.arrivalPad (d : Dev) (b : BarId) (src : SiteId) : Option PadId :=
  if (d.bar b).enabled then finOf 16 (d.bar b).pad else d.padOf src

/-- All arrivals of one cycle are counted together; after an overrun none is (R255, R268). At a disabled barrier those of one cycle
are one fault of each paddock that they come from (R254, R551). -/
def arrivalEffect (b : BarId) (d : Dev) : Dev :=
  let l := d.car.arrivals b.val
  let d := { d with car := { d.car with inbox := d.car.inbox.filter fun m => match m.2 with
    | .arrive bar .. => bar != b.val || m.1 != d.car.arrivalCycle b.val
    | _ => true } }
  let q := d.bar b
  let good := (l.filter fun a => a.1 == q.episode).length
  let stale := l.any fun a => a.1 == q.episode - 1
  if !q.enabled then
    (l.filterMap fun a => d.padOf a.2).dedup.foldl (fun d k => d.overrun k b) d
  else if q.stuck then d
  else
    let n := q.count + good
    let d := d.modBar b fun q => q.setState 0 16 n
    if stale || q.target < n then d.overrunBar b
    else d.checkBar b

/-- BARRIER_ARRIVAL (R255). -/
def execBarrierArrival (b : BarId) (st : State) : Host.Outcome State Fault Refusal :=
  onEvent st (arrivalEnabled b) fun _ => arrivalEffect b

/-- A release can reach the site; that of the commit barrier of a held paddock waits for the paddock (R445). -/
def Dev.releaseDue (d : Dev) (s : SiteId) (r : SiteId × Nat × BitVec 2 × Nat) : Bool :=
  r.1 == s && !(d.heldSite s && (d.padOf s).map (·.val + 240) == some r.2.1)

def releaseEnabled (s : SiteId) (d : Dev) : Bool := d.running && d.car.releases.any (d.releaseDue s)

/-- The oldest release for the site reaches it: the local copy takes the new episode; the release of the commit barrier
starts the phase (R226, R256). -/
def releaseEffect (s : SiteId) (d : Dev) : Dev :=
  match d.car.releases.find? (d.releaseDue s) with
  | none => d
  | some r =>
    let d := { d with car := { d.car with releases := eraseFirst (fun q => q == r) d.car.releases } }
    let (_, b, e, _) := r
    let d := d.modCtl s fun c => c.setEpisode b e
    let commit := (d.tile s).commitWait && (d.padOf s).map (·.val + 240) == some b
    if commit && d.tileUp s then d.modTile s fun t => { t with startDue := true } else d

/-- RELEASE_ARRIVAL (R256). -/
def execReleaseArrival (s : SiteId) (st : State) : Host.Outcome State Fault Refusal :=
  onEvent st (releaseEnabled s) fun _ => releaseEffect s

/-! ### Work counters (R242, R259) -/

/-- The request that a counter serves next: by arrival, then site, then context. -/
def Carillon.nextWork (c : Carillon) (w : Nat) : Option (Nat × MeshMsg) :=
  let key (m : Nat × MeshMsg) : Nat := match m.2 with
    | .workReq _ src ctx => m.1 * 1024 + src.val * 16 + ctx.val
    | _ => 0
  (c.inbox.filter fun m => match m.2 with | .workReq n .. => n == w | _ => false).foldl
    (fun best m => match best with
      | none => some m
      | some b => if key m < key b then some m else best) none

/-- The counter can serve an operation in this cycle: one per counter and cycle, eight in all (R259). -/
def Dev.workTurn (d : Dev) (c : Fin 256) : Bool :=
  (d.car.works[c]).lastOp != some d.now && (d.car.opCycle != d.now || d.car.opCount < 8)

def workEnabled (c : Fin 256) (d : Dev) : Bool :=
  d.running && (d.car.nextWork c.val).isSome && d.workTurn c

/-- The operation: the pair before the addition, VALUE saturating. -/
def Dev.workAdd (d : Dev) (c : Fin 256) : Dev × BitVec 16 × BitVec 64 :=
  let w := d.car.works[c]
  ({ d with car := { d.car with
      works := vmod d.car.works c fun w => { w with value := satInc w.value, lastOp := some d.now },
      opCycle := d.now, opCount := if d.car.opCycle == d.now then d.car.opCount + 1 else 1 } }, w.gen, w.value)

def workEffect (c : Fin 256) (d : Dev) : Dev :=
  match d.car.nextWork c.val with
  | none => d
  | some m =>
    let d := { d with car := { d.car with inbox := eraseFirst (fun q => q == m) d.car.inbox } }
    match m.2 with
    | .workReq _ src ctx =>
      let (d, gen, v) := d.workAdd c
      d.meshFromCarillon src false (.workRsp ctx gen v)
    | _ => d

/-- WORK_COUNTER_OP (R259). -/
def execWorkCounterOp (c : Fin 256) (st : State) : Host.Outcome State Fault Refusal :=
  onEvent st (workEnabled c) fun _ => workEffect c

/-- The pair of a CLAIM reaches its context (R242). -/
def Dev.workAnswer (d : Dev) (s : SiteId) (c : CtxId) (gen : BitVec 16) (index : BitVec 64) : Dev :=
  match ((d.tile s).ctxs[c]).wait with
  | .work xd limit target =>
    let d := if index.toNat < limit then
        (d.setX s c xd (index.toNat + gen.toNat * 2 ^ 32)).advance s c else d.goto s c target
    d.arrived s c
  | _ => d

/-! ### Claim words (R243, R244) -/

/-- The answer to a claim reaches its context: 1 committed, 0 duplicate. -/
def Dev.claimAnswer (d : Dev) (s : SiteId) (c : CtxId) (result : Nat) : Dev :=
  match ((d.tile s).ctxs[c]).wait with
  | .claim xd =>
    let d := (d.setX s c xd result).advance s c
    let d := if result == 0 then d.modCtl s fun q => { q with claimDup := q.claimDup.inc d.now } else d
    d.arrived s c
  | _ => d

def claimEnabled (l : SiteId) (d : Dev) : Bool := d.running && !(d.claims[l]).isEmpty

/-- A claim as one indivisible operation on its word (R205, R243): checked like any loft request. -/
def claimEffect (l : SiteId) (ecc : DramEcc) (d : Dev) : Dev :=
  match d.claims[l] with
  | .claimReq a gen tile src c :: rest =>
    let d := { d with claims := vmod d.claims l fun _ => rest }
    let off := dramOff a
    let ok := match (d.padOf src).bind d.pad with | some p => p.granted l.val off 8 | none => false
    if !ok then d.stepFault src c 0x300A a 0
    else
      let d := (d.modLoft l fun lo => lo.touchBoth off).dramCode l off ecc
      match (d.loft l).badIn off 8 with
      | some _ => d.stepFault src c 0xE001 a 0
      | none =>
        let w := leNat ((d.loft l).mem.readN off 8)
        let dup := fld w 0 16 == gen.toNat && bitOf w 16
        let d := if dup then d else d.modLoft l fun lo => lo.store off (leBytes 8 (gen.toNat + 2 ^ 16 + tile % 64 * 2 ^ 32)) d.now
        let r := if dup then 0 else 1
        if src == l then d.claimAnswer src c r
        else d.launch { at_ := l, dests := [src], vc := 1, prio := false, src := l.val, paddock := d.padOf src, inPort := 5,
                        body := .claimRsp c r }
  | _ => d

/-- CLAIM_WORD_UPDATE (R243). -/
def execClaimWordUpdate (l : SiteId) (ecc : DramEcc) (st : State) : Host.Outcome State Fault Refusal :=
  onEvent st (claimEnabled l) fun _ => claimEffect l ecc

/-! ### Bells (R248, R249, R252) -/

/-- The first packet in a tile's inbox of a kind. -/
def Tile.firstMsg (t : Tile) (p : MeshMsg → Bool) : Option MeshMsg := t.inbox.find? p

/-- Take a packet from a tile's inbox. -/
def Dev.takeMsg (d : Dev) (s : SiteId) (m : MeshMsg) : Dev :=
  d.modTile s fun t => { t with inbox := eraseFirst (fun q => q == m) t.inbox }

def MeshMsg.isBellAdd : MeshMsg → Bool | .bellAdd .. => true | _ => false
def MeshMsg.isBellAck : MeshMsg → Bool | .bellAck _ => true | _ => false
def MeshMsg.isMessage : MeshMsg → Bool | .message .. => true | _ => false
def MeshMsg.isMsgResp : MeshMsg → Bool | .msgResp .. => true | _ => false

def bellArrivalEnabled (s : SiteId) (d : Dev) : Bool := d.running && ((d.tile s).firstMsg MeshMsg.isBellAdd).isSome

/-- A remote add takes effect and is acknowledged (R249). -/
def bellArrivalEffect (s : SiteId) (d : Dev) : Dev :=
  match (d.tile s).firstMsg MeshMsg.isBellAdd with
  | some (.bellAdd b n src ctx) =>
    ((d.takeMsg s (.bellAdd b n src ctx)).bellAdd s b n).meshTo s src 2 true (.bellAck ctx)
  | _ => d

/-- BELL_ADD_ARRIVAL (R249). -/
def execBellAddArrival (s : SiteId) (st : State) : Host.Outcome State Fault Refusal :=
  onEvent st (bellArrivalEnabled s) fun _ => bellArrivalEffect s

def bellAckEnabled (s : SiteId) (d : Dev) : Bool := d.running && ((d.tile s).firstMsg MeshMsg.isBellAck).isSome

/-- A remote add's acknowledgement reaches its context (R252). -/
def bellAckEffect (s : SiteId) (d : Dev) : Dev :=
  match (d.tile s).firstMsg MeshMsg.isBellAck with
  | some (.bellAck ctx) => (d.takeMsg s (.bellAck ctx)).modCtx s ctx fun x => { x with bellAcks := x.bellAcks - 1 }
  | _ => d

/-- BELL_ADD_ACKNOWLEDGEMENT (R252). -/
def execBellAddAcknowledgement (s : SiteId) (st : State) : Host.Outcome State Fault Refusal :=
  onEvent st (bellAckEnabled s) fun _ => bellAckEffect s

/-! ### Messages at the destination (R263, R266) -/

/-- Fields of TILE_QUEUE_CFG (R263). -/
def MsgQueue.enabled (q : MsgQueue) : Bool := q.cfg.getLsbD 0
def MsgQueue.ring (q : MsgQueue) : Bool := q.cfg.getLsbD 1
def MsgQueue.region (q : MsgQueue) : Nat := bvFld q.cfg 2 4
def MsgQueue.msu (q : MsgQueue) : Nat := bvFld q.cfg 6 3

/-- HEAD of a region once what has been placed in it, and still waits for a write port, is written. -/
def Tile.headAfter (t : Tile) (reg : Nat) : Word :=
  let l := t.arr.filter fun a => a.region == some reg
  (t.regionAt reg).head + BitVec.ofNat 32 (sumNat (l.map fun a => if a.skip == 0 then a.left else a.skip))

/-- Place a DATA record in a RECORD region under R172, a SKIP record before it where the end is passed: none where there is no
room now. Its writes go through the write port of MSU `m` (R162, R171, R263). -/
def Tile.placeRing (t : Tile) (reg m now : Nat) (payload : Bytes) : Option Tile :=
  let r := t.regionAt reg
  let h := t.headAfter reg
  let len := recLen payload.length
  match r.placeAt h (r.size - (h - r.seenTail now).toNat) len with
  | none => none
  | some skip =>
    let at_ := if skip == 0 then r.base + r.pos h else r.base
    let first : List Arr := if skip == 0 then []
      else [{ msu := m, kind := .write, addr := r.base + r.pos h, left := 8, bytes := recHeader skip 2 0 r.seq,
              region := some reg, skip := skip }]
    let rec_ : Arr := { msu := m, kind := .write, addr := at_, left := len, region := some reg,
                        bytes := recHeader len 1 (recPad payload.length) r.seq ++ padTo (len - 8) payload }
    some { t with
      arr := t.arr ++ first ++ [rec_],
      regions := vmodN t.regions reg fun r => { r with seq := r.seq + 1 } }

/-- The paddock of a tile has a run in state RUNNING or SUSPENDING (R266). -/
def Dev.runOpen (d : Dev) (k : Option PadId) : Bool :=
  match (k.bind d.pad).bind (·.run) with
  | some i => (d.op i).state == .running || (d.op i).state == .suspending
  | none => false

/-- A refusal is counted (R266). -/
def Dev.refuseMsg (d : Dev) (s : SiteId) : Dev := d.modTile s fun t => { t with drops := t.drops.inc d.now }

/-- A message enters a queue. -/
def Tile.takeEntry (t : Tile) (queue : Nat) (bytes : Bytes) : Tile :=
  { t with queues := vmodN t.queues queue fun q => { q with entries := q.entries ++ [padTo 64 bytes] } }

/-- The answer to a message, and the device after it (R266): tests in order, a refusal is counted. One that meets a full queue has
no answer before the end of the cycle (R264). -/
def Dev.acceptMsg (d : Dev) (s : SiteId) (queue : Nat) (rank : BitVec 16) (bytes : Bytes) : Dev × Option MsgResp :=
  let t := d.tile s
  let q := vgetN t.queues queue {}
  let d := d.modTile s fun t => { t with msgAt := some d.now }
  if !(t.ctl.cfgBank.getLsbD 3) || !d.runOpen (d.padOf s) then (d.refuseMsg s, some .nakNoQueue)
  else if t.ctl.rank.toNat ≤ rank.toNat then (d.refuseMsg s, some .nakRank)
  else if !q.enabled then (d.refuseMsg s, some .nakNoQueue)
  else if q.ring then
    match t.placeRing q.region q.msu d.anow bytes with
    | none => (d.refuseMsg s, some .nakFull)
    | some t' => (d.modTile s fun _ => { t' with msgAt := some d.now }, some .ack)
  else if 16 ≤ q.entries.length then (d, none)
  else (d.modTile s fun t => t.takeEntry queue bytes, some .ack)

/-- Hold a message that met a full queue. -/
def Dev.holdMsg (d : Dev) (s : SiteId) (m : FullMsg) : Dev := d.modTile s fun t => { t with fullMsg := some m }

/-- The STATUS of a message's answer (R384). -/
def msgStatus : MsgResp → Nat
  | .ack => 0
  | .nakFull => 5
  | .nakRank => 6
  | .nakNoQueue => 7

/-- Answer a message: to the channel that sent it, or in a response packet. -/
def Dev.answerMsg (d : Dev) (s : SiteId) (m : FullMsg) (r : MsgResp) : Dev :=
  match m.pkt with
  | some p => d.inject (some (.tile s)) (rspPkt p 0x12 (msgStatus r) [] [])
  | none => d.meshTo s m.sender.1 2 m.sender.2.2 (.msgResp m.sender.2.1 r)

/-- The end of an NCLK cycle: a message that met a full queue is accepted where an entry has been removed in the cycle, refused
otherwise (R264, R266). -/
def Dev.settleMsg (d : Dev) (s : SiteId) : Dev :=
  match (d.tile s).fullMsg with
  | none => d
  | some m =>
    let d := d.modTile s fun t => { t with fullMsg := none }
    if 16 ≤ (vgetN (d.tile s).queues m.queue {}).entries.length then (d.refuseMsg s).answerMsg s m .nakFull
    else (d.modTile s fun t => t.takeEntry m.queue m.bytes).answerMsg s m .ack

/-- One message is answered in a cycle (R263). -/
def messageEnabled (s : SiteId) (d : Dev) : Bool :=
  d.running && ((d.tile s).firstMsg MeshMsg.isMessage).isSome && (d.tile s).msgAt != some d.now

def messageEffect (s : SiteId) (d : Dev) : Dev :=
  match (d.tile s).firstMsg MeshMsg.isMessage with
  | some (.message queue rank bytes src ch prio) =>
    let m : FullMsg := { queue := queue, bytes := bytes, sender := (src, ch, prio) }
    (match (d.takeMsg s (.message queue rank bytes src ch prio)).acceptMsg s queue rank bytes with
     | (d, some r) => d.answerMsg s m r
     | (d, none) => d.holdMsg s m)
  | _ => d

/-- MESSAGE_DELIVERY (R263). -/
def execMessageDelivery (s : SiteId) (st : State) : Host.Outcome State Fault Refusal :=
  onEvent st (messageEnabled s) fun _ => messageEffect s

/-! ### Messages at the sender (R266, R267) -/

/-- The channel is STUCK and its fault is raised in the context that sent the message (R267, R268). -/
def Dev.stick (d : Dev) (s : SiteId) (ch : Fin 64) (code : Nat) : Dev :=
  let h := d.chan s ch
  let c := (h.current.map (·.ctx)).getD 0
  (d.modChan s ch fun h => { h with state := .stuck }).ctxFault s c
    { code := code, unit := some 31, extra := [ch.val, h.tile, h.queue, h.dev, h.tries] }

/-- Wait before the next resend after `tries` resends (R267). -/
def backoffWait (tries : Nat) : Nat := min (64 * 2 ^ min tries 6) 4096

/-- A response reaches the channel's sender (R266). -/
def Dev.msgAnswer (d : Dev) (s : SiteId) (ch : Fin 64) (r : MsgResp) : Dev :=
  let h := d.chan s ch
  match h.state, h.current with
  | .inFlight, some e =>
    (match r with
     | .ack =>
       let d := d.sample s { kind := 4, addr := ch.val, latency := d.now - h.firstAt, step := 0, unit := 31, ctx := e.ctx.val }
       let d := d.modCtx s e.ctx fun x => { x with msgs := x.msgs - 1 }
       let d := d.modChan s ch fun h => { h with
         state := .idle, tries := 0, acked := h.acked + 1, current := h.waiting, waiting := none, firstAt := d.now }
       if h.waiting.isSome then d.transmit s ch else d
     | .nakFull =>
       let d := d.modTile s fun t => { t with pmc := { t.pmc with naks := t.pmc.naks + 1 } }
       if 255 ≤ h.tries then d.stick s ch 0x4002
       else d.modChan s ch fun h => { h with state := .backoff, resendAt := d.timer s + backoffWait h.tries }
     | .nakRank | .nakNoQueue => d.stick s ch 0x4003)
  | _, _ => d

def respEnabled (s : SiteId) (d : Dev) : Bool := d.running && ((d.tile s).firstMsg MeshMsg.isMsgResp).isSome

def respEffect (s : SiteId) (d : Dev) : Dev :=
  match (d.tile s).firstMsg MeshMsg.isMsgResp with
  | some (.msgResp ch r) =>
    let d := d.takeMsg s (.msgResp ch r)
    (match finOf 64 ch with | some ch => d.msgAnswer s ch r | none => d)
  | _ => d

/-- MESSAGE_RESPONSE (R266). -/
def execMessageResponse (s : SiteId) (st : State) : Host.Outcome State Fault Refusal :=
  onEvent st (respEnabled s) fun _ => respEffect s

/-- The back-off interval has passed (R267). -/
def resendEnabled (s : SiteId) (ch : Fin 64) (d : Dev) : Bool :=
  d.tileUp s && !d.heldSite s && (d.chan s ch).state == .backoff && (d.chan s ch).resendAt ≤ d.timer s

/-- BACKOFF_RESEND (R267). -/
def execBackoffResend (s : SiteId) (ch : Fin 64) (st : State) : Host.Outcome State Fault Refusal :=
  onEvent st (resendEnabled s ch) fun _ d => (d.modChan s ch fun h => { h with tries := h.tries + 1 }).transmit s ch

/-- No response within 1,048,576 cycles of a transmission (R267). -/
def stuckEnabled (s : SiteId) (ch : Fin 64) (d : Dev) : Bool :=
  d.tileUp s && !d.heldSite s && (d.chan s ch).state == .inFlight && (d.chan s ch).sentAt + 1048576 ≤ d.timer s

/-- CHANNEL_STUCK (R267). -/
def execChannelStuck (s : SiteId) (ch : Fin 64) (st : State) : Host.Outcome State Fault Refusal :=
  onEvent st (stuckEnabled s ch) fun _ d => d.stick s ch 0x4002

/-! ### TILE_QUEUE_POP (R263) and samples (R519) -/

/-- The head entry of a queue is removed; of a queue whose head RECV steps are taking, the entry behind theirs. -/
def MsgQueue.pop (q : MsgQueue) : MsgQueue := { q with entries := q.entries.eraseIdx q.taking }

/-- TILE_QUEUE_POP: the head entry of a queue is removed. -/
def execTileQueuePop (s : SiteId) (n : Byte) (st : State) : Host.Outcome State Fault Refusal :=
  onEvent st (fun d => d.running && d.hasTile s) fun _ d =>
    d.modTile s fun t => { t with queues := vmodN t.queues n.toNat MsgQueue.pop }

/-- Words that write a record of KIND 3 at HEAD, and the SKIP header before it, each with the bytes by which HEAD advances once it
is written (R171, R172, R519). -/
def Region.sampleWords (r : Region) (skip : Nat) (payload : Bytes) : List (Nat × Bytes × Nat) :=
  let len := recLen payload.length
  let bs := recHeader len 3 (recPad payload.length) r.seq ++ padTo (len - 8) payload
  let at_ := if skip == 0 then r.base + r.pos r.head else r.base
  (if skip == 0 then [] else [(r.base + r.pos r.head, recHeader skip 2 0 r.seq, 0)]) ++
    (List.range (len / 8)).map fun i => (at_ + 8 * i, sliceAt bs (8 * i) 8, if 8 * i + 8 == len then skip + len else 0)

/-- A held record has room in its region (R519). -/
def sampleEnabled (s : SiteId) (d : Dev) : Bool :=
  let t := d.tile s
  d.running && d.hasTile s && t.pmc.smpWrites.isEmpty && match t.pmc.smpHeld with
  | some b => ((t.regionAt t.pmc.sampleRegion).place d.anow (recLen b.length)).isSome
  | none => false

/-- The record is placed, and the tile port writes it word by word (R162, R519). -/
def sampleEffect (s : SiteId) (d : Dev) : Dev :=
  d.modTile s fun t =>
    let r := t.regionAt t.pmc.sampleRegion
    match t.pmc.smpHeld with
    | none => t
    | some b => match r.place d.anow (recLen b.length) with
      | none => t
      | some skip => { t with pmc := { t.pmc with smpWrites := r.sampleWords skip b } }

/-- SAMPLE_RECORD_WRITE (R519). -/
def execSampleRecordWrite (s : SiteId) (st : State) : Host.Outcome State Fault Refusal :=
  onEvent st (sampleEnabled s) fun _ => sampleEffect s

end Sys2Proof.Machine
end

