-- ==== Sys2Proof/Machine/Mesh.lean ====
section
/-!
DEFINITION. The mesh of routers (R315 to R331): dimension-order routes, multicast trees, class buffers and their credit,
arbitration, the times of hops and of delivery, errors, and the retirement of seam links.
-/
namespace Sys2Proof.Machine

/-! ### Routes (R316, R319, R327) -/

/-- Where a packet came from on the mesh: its source site, or the attachment of its source router. -/
def MeshPkt.origin (p : MeshPkt) : Nat :=
  if p.src < 48 then p.src
  else
    let other : SiteId := match p.pr with
      | some k => (MeshEnd.pr k).near
      | none => (p.dests.head?).getD 21
    (attachment (p.src - 48) other.val).val

/-- Sites where the packet leaves the mesh. -/
def MeshPkt.exits (p : MeshPkt) : List SiteId :=
  match p.pr with
  | some k => [attachment k.val p.origin]
  | none => p.dests

/-- Side towards a site: x first, then y (R319). 4 where the packet leaves the mesh. -/
def outPort (s t : SiteId) : Nat :=
  if siteX s < siteX t then 1 else if siteX t < siteX s then 3
  else if siteY s < siteY t then 2 else if siteY t < siteY s then 0 else 4

/-- The neighbour of a site through an output; 8 and above are the links of its seam side (R322). -/
def meshNext (s : SiteId) (port : Nat) : SiteId :=
  let n := match port with
    | 0 => s.val - 6
    | 1 => s.val + 1
    | 2 => s.val + 6
    | 3 => s.val - 1
    | _ => if siteSouth s then s.val - 6 else s.val + 6
  (finOf 48 n).getD s

/-- Input port at which the neighbour receives. -/
def inAt (port : Nat) : Nat := if port < 4 then oppSide port else port

/-- The seam link that a packet takes from a site: one of those in service, by source and destination; every copy of a multicast
packet takes the first (R322, R323). -/
def Dev.seamLink (d : Dev) (s : SiteId) (p : MeshPkt) : Option Nat :=
  let l := (List.range 4).filter fun i => (vgetN d.seam (siteX s) 0#4).getLsbD i
  let j := match p.pr with
    | some k => 48 + k.val
    | none => (p.dests.head?.map (·.val)).getD 0
  if p.multi then l.head? else l[(p.src + j) % max 1 l.length]?

/-- Output of the packet's router towards one of its exits: a side, a seam link, or the endpoint's port. A seam without links has
none. -/
def Dev.outLink (d : Dev) (p : MeshPkt) (t : SiteId) : Nat :=
  match outPort p.at_ t with
  | 4 => (match p.pr with
    | some k => if (prSites k.val).2 == 4 then 6 else (prSites k.val).2
    | none => if p.loftEp then 5 else 4)
  | o => if siteSouth p.at_ == siteSouth (meshNext p.at_ o) then o else ((d.seamLink p.at_ p).map (8 + ·)).getD 12

/-- Copies that leave a router: for each output, the exits that lie behind it (R327). -/
def Dev.branches (d : Dev) (p : MeshPkt) : List (Nat × List SiteId) :=
  (List.range 13).filterMap fun o =>
    let l := p.exits.filter fun t => d.outLink p t == o
    if l.isEmpty then none else some (o, l)

/-- The branch leaves the mesh at the packet's router. -/
def MeshPkt.leaves (p : MeshPkt) (l : List SiteId) : Bool := l.contains p.at_

/-! ### Delivery (R315, R321, R325, R328) -/

/-- A copy of a multicast packet of the yardmaster: a tile in service answers it; at another site it is discarded and counted
(R327). -/
def Dev.copyAt (d : Dev) (s : SiteId) (p : MeshPkt) : Dev :=
  if d.hasTile s then (if p.src == 54 then d.carry (.tile s) prYard 1 p.prio p.paddock 0 else d)
  else if p.multi then d.modTile s fun t => { t with router := { t.router with discard := t.router.discard.inc d.now } }
  else d

/-- A packet for the TILE endpoint of a site. A tile in RETAIN or OFF takes none: its router answers a message, and discards the
rest (R529). -/
def Dev.toTile (d : Dev) (s : SiteId) (p : MeshPkt) : Dev :=
  if p.body == .carried then d.copyAt s p
  else if d.hasTile s && d.power s < 2 then d.modTile s fun t => { t with inbox := t.inbox ++ [p.body] }
  else match p.body with
    | .message _ _ _ src ch prio => d.meshTo s src 2 prio (.msgResp ch .nakNoQueue)
    | _ => d

/-- A packet reaches its endpoint at a site. A read-and-zero that came through the router is accounted for when its data arrive
(R281). -/
def Dev.deliver (d : Dev) (s : SiteId) (p : MeshPkt) : Dev :=
  match p.body with
  | .loft r => d.modLoft s fun lo => { lo with router := lo.router ++ [{ r with arrive := d.now }] }
  | .claimReq .. => { d with claims := vmod d.claims s fun q => q ++ [p.body] }
  | .loftData r bs =>
    let d := if r.clear then d.accepted r.who r.len else d
    if d.hasTile s then d.loftBytes r bs else d
  | .loftAck r n => d.accepted r n
  | .claimRsp c r => d.claimAnswer s c r
  | .workRsp c gen v => d.workAnswer s c gen v
  | .bellAdd .. | .bellAck .. | .message .. | .msgResp .. => d.toTile s p
  | .carried => if p.loftEp then d else d.toTile s p
  | .arrive .. | .workReq .. => d

/-- A packet leaves the mesh: a periphery router's is its own, and the carillon takes arrivals and work counter requests. -/
def Dev.land (d : Dev) (p : MeshPkt) : Dev :=
  match p.pr with
  | some k => if k == 7 then { d with car := { d.car with inbox := d.car.inbox ++ [(d.now, p.body)] } } else d
  | none => d.deliver p.at_ p

/-- Everything that is due at its endpoint in this cycle: packets, and data over the direct path of a loft (R201, R204, R325). -/
def Dev.landAll (d : Dev) : Dev :=
  let due := (d.landing.filter fun x => x.1 ≤ d.now).map (·.2)
  let d := { d with landing := d.landing.filter fun x => d.now < x.1 }
  let d := due.foldl (fun d p => d.land p) d
  (fins 48).foldl (fun d l =>
    let back := ((d.loft l).back.filter fun x => x.1 ≤ d.now).map (·.2)
    if back.isEmpty then d
    else back.foldl (fun d x => if d.hasTile l then d.loftBytes x.1 x.2 else d)
      (d.modLoft l fun lo => { lo with back := lo.back.filter fun x => d.now < x.1 })) d

/-! ### ROUTER_FORWARD (R317, R318, R324 to R327, R331) -/

/-- Packets in the buffers of a site's router that have not begun to leave, oldest first. -/
def Dev.atRouter (d : Dev) (s : SiteId) : List MeshPkt := d.mesh.filter fun p => p.at_ == s && p.left.isNone

/-- Its head flit stands at the head of its class buffer. -/
def Dev.isHead (d : Dev) (p : MeshPkt) : Bool :=
  p.since ≤ d.now && ((d.atRouter p.at_).find? fun q => q.sameBuf p) == some p

/-- The endpoint at which a branch leaves the mesh takes the packet: a tile one message and a loft one request in each NCLK cycle, so
that those on their way and waiting there have their turns before this one arrives (R201, R263, R321, R326). DESIGN CHOICE, log entry
72. -/
def Dev.sinks (d : Dev) (p : MeshPkt) : Bool :=
  let coming (f : MeshMsg → Bool) : Nat := (d.landing.filter fun x => x.2.at_ == p.at_ && f x.2.body).length
  let isLoft (m : MeshMsg) : Bool := match m with | .loft _ => true | _ => false
  match p.body with
  | .message .. => ((d.tile p.at_).inbox.filter MeshMsg.isMessage).length + coming MeshMsg.isMessage < 6 + p.flits
  | .loft _ => (d.loft p.at_).router.length + coming isLoft < 6 + p.flits
  | _ => true

/-- A branch has credit for the packet's flits, of a packet longer than a buffer for those that it holds (R318, R324). A seam crossing
without links has none. -/
def Dev.hasCredit (d : Dev) (p : MeshPkt) (b : Nat × List SiteId) : Bool :=
  b.1 < 12 && (if p.leaves b.2 then d.sinks p
               else d.bufFlits (meshNext p.at_ b.1) (inAt b.1) p.vc p.prio + min p.flits 8 ≤ 8)

/-- Packets of a priority at the heads of a router's buffers that an output could send: every branch has credit. -/
def Dev.readyFor (d : Dev) (s : SiteId) (o : Nat) (prio : Bool) : List MeshPkt :=
  (d.atRouter s).filter fun p => p.prio == prio && d.isHead p &&
    (let l := d.branches p; (l.any fun b => b.1 == o) && l.all (d.hasCredit p))

/-- Number of a packet's (input, class) pair. -/
def MeshPkt.pair (p : MeshPkt) : Nat := p.inPort * 8 + p.vc.val * 2 + (if p.prio then 1 else 0)

def Dev.rtrOut (d : Dev) (s : SiteId) (o : Nat) : RtrOut := vgetN (d.tile s).router.outs o {}

/-- First of a list in round-robin order after pair `turn`. -/
def nextPair (turn : Nat) (l : List MeshPkt) : Option MeshPkt :=
  let key (p : MeshPkt) : Nat := (p.pair + 96 - (turn + 1) % 96) % 96
  l.foldl (fun best p => match best with
    | none => some p
    | some b => if key p < key b then some p else best) none

/-- The packet that an output grants in this cycle: a high-priority one once the last of its flits has gone, a low-priority one only
where no high-priority flit can go (R324). -/
def Dev.outGrant (d : Dev) (s : SiteId) (o : Nat) (prio : Bool) : Option MeshPkt :=
  let r := d.rtrOut s o
  if prio then (if r.hiTo ≤ d.now then nextPair r.hiTurn (d.readyFor s o true) else none)
  else if r.hiTo ≤ d.now && r.loTo ≤ d.now && (d.readyFor s o true).isEmpty then nextPair r.loTurn (d.readyFor s o false)
  else none

/-- Every branch of the packet is granted to it (R324, R327). -/
def Dev.granted (d : Dev) (p : MeshPkt) : Bool :=
  let l := d.branches p
  !l.isEmpty && l.all fun b => d.outGrant p.at_ b.1 p.prio == some p

def forwardEnabled (s : SiteId) (k : Nat) (d : Dev) : Bool :=
  d.running && match (d.atRouter s)[k]? with
  | none => false
  | some p => d.granted p

/-- An output sends the flits of a granted packet in consecutive cycles; the flits of a low-priority packet under way are held
behind them (R324). -/
def RtrOut.grant (r : RtrOut) (p : MeshPkt) (now : Nat) : RtrOut :=
  if p.prio then { r with hiTo := now + p.flits, hiTurn := p.pair, loTo := if now < r.loTo then r.loTo + p.flits else r.loTo }
  else { r with loTo := now + p.flits, loTurn := p.pair }

/-- A packet at high priority interrupts a low-priority one at an output that both take. -/
def Dev.interrupts (d : Dev) (p q : MeshPkt) : Bool :=
  p.prio && !q.prio && q.at_ == p.at_ && (d.branches q).any fun b => ((d.branches p).map (·.1)).contains b.1

/-- A low-priority packet on its way into an endpoint, of which a flit has yet to be sent, gets there later by the flits of a
high-priority packet that interrupts it (R324, R325). -/
def Dev.delayLanding (d : Dev) (p : MeshPkt) : Dev :=
  { d with landing := d.landing.map fun x =>
      if d.interrupts p x.2 && d.now + 6 ≤ x.1 then (x.1 + p.flits, x.2) else x }

/-- The packet begins to leave its buffer: the packet behind it comes to the head when its last flit has gone (R325), and a
low-priority packet that it interrupts stays longer. -/
def Dev.beginLeave (d : Dev) (p : MeshPkt) : Dev :=
  let held (q : MeshPkt) : MeshPkt :=
    if d.interrupts p q then { q with left := q.left.map fun t => if d.now < t + q.flits then t + p.flits else t } else q
  let d := d.delayLanding p
  let mesh := replaceFirst (fun q => q == p) (fun q => { q with left := some d.now }) (d.mesh.map held)
  { d with mesh := replaceFirst (fun q => q.sameBuf p && q.left.isNone) (fun q => { q with since := max q.since (d.now + p.flits) }) mesh }

/-- One branch of a granted packet: its copy in the buffer of the next router, 4 cycles on and 2 more over the seam, or its way into
the endpoint, 2 cycles more (R20, R325). -/
def Dev.branch (d : Dev) (p : MeshPkt) (b : Nat × List SiteId) : Dev :=
  let d := d.modTile p.at_ fun t => { t with router := { t.router with
    outs := vmodN t.router.outs b.1 fun r => r.grant p d.now } }
  if p.leaves b.2 then { d with landing := d.landing ++ [(d.now + 6 + (p.flits - 1), p)] }
  else d.join { p with at_ := meshNext p.at_ b.1, dests := if p.pr.isSome then p.dests else b.2, inPort := inAt b.1 }
    (d.now + (if 8 ≤ b.1 then 6 else 4))

/-- A packet with an uncorrectable word is discarded whole and stops its paddock, or every paddock with a run in progress; the event
names the site and, in DETAIL, the input port. Where it stops none, the event is posted all the same (R331, R485). -/
def Dev.flitBad (d : Dev) (p : MeshPkt) (header : Bool) : Dev :=
  let s := p.at_
  let d := d.modTile s fun t => { t with router := { t.router with ue := t.router.ue.inc d.now } }
  let side := if 8 ≤ p.inPort then (if siteSouth s then 0 else 2) else p.inPort
  let d := if 4 ≤ p.inPort then d
    else d.modYm fun y => { y with meshDrops := (s.val * 8 + p.inPort, d.now) :: y.meshDrops.filter fun x => d.now < x.2 + msN 1000 }
  let f : FaultInfo := { code := 0xE005, site := some s, area := 3, extra := [side] }
  let running (k : PadId) : Bool := match d.pad k with
    | some q => (match q.run with | some i => (d.op i).live | none => false)
    | none => false
  let open_ (k : PadId) : Bool := match d.pad k with | some q => q.faultsOpen d.now | none => false
  let stopped : List PadId := (fins 16).filter fun k => (if header then running k else p.paddock == some k) && open_ k
  let d := stopped.foldl (fun d k => d.raise k none true f) d
  let d := if stopped.isEmpty then d.post 0 1 s.val 0xE005 (payloadE 0 s.val 0xFF 3 0xFF side 0) else d
  d.health

def forwardEffect (s : SiteId) (k : Nat) (ecc : FlitEcc) (d : Dev) : Dev :=
  match (d.atRouter s)[k]? with
  | none => d
  | some p =>
    let l := d.branches p
    let d := d.beginLeave p
    match ecc with
    | .badPayload => d.flitBad p false
    | .badHeader => d.flitBad p true
    | .fine words =>
      let d := d.modTile s fun t => { t with router := { t.router with
        ce := t.router.ce.add d.now words,
        hiWait := if p.prio then t.router.hiWait.note d.now (d.now - p.since) else t.router.hiWait } }
      l.foldl (fun d b => d.branch p b) d

/-- ROUTER_FORWARD (R324). -/
def execRouterForward (s : SiteId) (k : Nat) (ecc : FlitEcc) (st : State) : Host.Outcome State Fault Refusal :=
  onEvent st (forwardEnabled s k) fun _ => forwardEffect s k ecc

/-- The end of an NCLK cycle at a router: one flit has left through each output that is busy, and a ready low-priority flit may have
given way (R317, R330). -/
def Dev.routerCycle (d : Dev) (s : SiteId) : Dev :=
  let outs := (List.range 12).map fun o => (o, d.rtrOut s o)
  let sent := (outs.filter fun x => d.now < x.2.hiTo || d.now < x.2.loTo).length
  let yields := outs.any fun x => d.now < x.2.hiTo && (d.now < x.2.loTo || !(d.readyFor s x.1 false).isEmpty)
  if sent == 0 then d
  else d.modTile s fun t => { t with router := { t.router with
    flits := t.router.flits.add d.now sent,
    loYield := if yields then t.router.loYield.inc d.now else t.router.loYield } }

/-- The end of an NCLK cycle for the buffers: packets whose last flit has gone leave them (R318). -/
def Dev.purgeMesh (d : Dev) : Dev :=
  { d with mesh := d.mesh.filter fun p => match p.left with
      | some t => d.now + 1 < t + p.flits
      | none => true }

/-! ### SEAM_LINK_RETIRED (R323) -/

/-- Every paddock with a run in progress is stopped or suspended, and the link is in service. -/
def seamEnabled (col : Fin 6) (link : Fin 4) (d : Dev) : Bool :=
  d.worvis && d.seam[col].getLsbD link.val && (fins 16).all fun k => match d.pad k with
    | some p => p.state != .running
    | none => true

/-- The link is retired; the last of a crossing fails the device (R323, R503). -/
def seamEffect (col : Fin 6) (link : Fin 4) (d : Dev) : Dev :=
  let d := { d with seam := vmod d.seam col fun b => b &&& ~~~ BitVec.ofNat 4 (2 ^ link.val) }
  let d := (d.post 0 1 (18 + col.val) 0xE00F (payloadE 0 (18 + col.val) 0xFF 3 0xFF link.val (d.seamLinks col))).health
  if d.seamLinks col == 0 then d.fail else d

/-- SEAM_LINK_RETIRED (R323). -/
def execSeamLinkRetired (col : Fin 6) (link : Fin 4) (st : State) : Host.Outcome State Fault Refusal :=
  onEvent st (seamEnabled col link) fun _ => seamEffect col link

end Sys2Proof.Machine
end

