-- ==== Sys2Proof/Machine/Remote.lean ====
section
/-!
DEFINITION. The remote engine of a tile (R377 to R382, R388) and the packets of the fabric: what a well-formed packet is
(R364 to R368), transit switching (R371 to R375) and the responses that come back.
-/
namespace Sys2Proof.Machine

/-! ### Well-formed packets (R364 to R368, R370, R385) -/

/-- LADDR of a request: the fields of its space that must be zero (R364). -/
def laddrOk (space a : Nat) : Bool :=
  match space with
  | 0 => true
  | 1 => fld a 31 8 == 0
  | 2 => fld a 31 8 == 0 && fld a 5 20 == 0
  | 3 => fld a 31 8 == 0 && fld a 6 19 == 0
  | 4 => fld a 8 31 == 0
  | 5 => a == 0
  | _ => false

/-- Types that a space allows (R364). -/
def spaceAllows (space typ : Nat) : Bool :=
  match space with
  | 0 => typ == 1 || typ == 2 || typ == 3 || typ == 4
  | 1 => typ == 1 || typ == 2
  | 2 => typ == 5
  | 3 | 4 => typ == 3
  | _ => false

/-- SIZE and LEN of a type (R368). -/
def sizeOk (typ size len status : Nat) : Bool :=
  let wide := 64 ≤ size && size ≤ 4096 && size % 64 == 0
  match typ with
  | 0x01 => wide && len == 0
  | 0x02 => wide && len * 64 == size
  | 0x03 => size == 8 && len == 0
  | 0x04 => 16 ≤ size && size ≤ 4096 && size % 16 == 0 && len == ceilDiv size 64
  | 0x05 => 8 ≤ size && size ≤ 64 && size % 8 == 0 && len == 1
  | 0x11 => wide && (if status == 0 then len * 64 == size else len == 0)
  | 0x12 => size ≤ 4096 && len == 0
  | 0x13 => size == 8 && len == 0
  | 0x20 => size ≤ 4096 && len == ceilDiv size 64
  | _ => false

/-- Alignment and the 4,096-byte boundary (R365, R368). -/
def placeOk (typ a size : Nat) : Bool :=
  (if typ == 3 then a % 8 == 0 else if typ == 5 then true else a % 64 == 0) && a % 4096 + size ≤ 4096

/-- Operand area bytes that the type does not use are zero, and AOP is one of R367. -/
def operandOk (typ : Nat) (o : Bytes) : Bool :=
  match typ with
  | 0x03 => fieldAt o 16 1 ≤ 4 && allZero (o.drop 17)
  | 0x05 => allZero (o.drop 2)
  | 0x13 => allZero (o.drop 10)
  | 0x20 => fieldAt o 3 1 == 0 && allZero (o.drop 16) && fieldAt o 2 1 ≤ 3
  | _ => allZero o

/-- TREE, BRAND, TARGET_SERIAL and the per-code bytes of a management packet, by MCODE (R389 to R391). -/
def mgmtOk (p : FabPkt) : Bool :=
  let code := fieldAt p.operand 0 2
  let tree := fieldAt p.operand 2 1
  let four := sliceAt p.operand 4 4
  (match code with
   | 0x1 | 0x2 | 0xA => tree == 3 && allZero four
   | 0x3 => tree == 1 && allZero four
   | 0x4 => tree == 2 && allZero four
   | 0x5 => (tree == 0 || tree == 2) && fieldAt four 0 1 ≤ 1 && fieldAt four 1 1 == 0
   | 0x6 => tree ≤ 1 && allZero four
   | 0x7 => (tree == 0 || tree == 2) && fieldAt four 0 1 ≤ 1 && allZero (four.drop 1)
   | 0x8 | 0x9 => tree == 0 && fieldAt four 0 1 < 240 && fieldAt four 1 1 ≤ 3 && allZero (four.drop 2)
   | 0xB | 0xC => tree == 0 && allZero four
   | _ => false) &&
    (code == 8 || code == 9 || p.brand == 0#16) && (tree == 2 || allZero (sliceAt p.operand 8 8))

/-- Every field of a packet that its destination checks (R370). -/
def pktWellFormed (p : FabPkt) : Bool :=
  let typ := p.typ.toNat
  let cls := if typ ≤ 5 then 0 else if typ ≤ 0x13 then 1 else 2
  p.reserved == 0#93 && p.cls.toNat == cls && p.len.toNat ≤ 64 && p.size.toNat ≤ 4096 &&
    sizeOk typ p.size.toNat p.len.toNat p.status.toNat && operandOk typ p.operand && laddrOk p.space.toNat p.laddr.toNat &&
    (cls != 0 || (spaceAllows p.space.toNat typ && p.status == 0#8 &&
      (2 ≤ p.space.toNat || placeOk typ p.laddr.toNat p.size.toNat))) &&
    (cls != 2 || (mgmtOk p && p.space == 5#3 && (p.status == 0#8 || fieldAt p.operand 0 2 == 6)))

/-- A malformed packet is dropped, counted and reported (R370). -/
def Dev.dropMalformed (d : Dev) (p : FabPkt) : Dev :=
  ({ d with fab := { d.fab with dropMalformed := d.fab.dropMalformed.inc d.now } }).fabEvent 0x6021 [p.src.toNat]

/-! ### Packets that reach the device -/

/-- A packet stands at the device: it came in on a link that is UP, or the device sent it to itself (R375). -/
def Dev.hasPkt (d : Dev) (n : LinkId) (p : FabPkt) : Bool :=
  d.running && ((d.link n).state == .up || d.fab.loop.contains p)

/-- Where a management message ends: the barrier messages at the carillon, all others at the yardmaster (R328, R391). -/
def mgmtEnd (p : FabPkt) : MeshEnd := if fieldAt p.operand 0 2 == 8 || fieldAt p.operand 0 2 == 9 then prCarillon else prYard

/-- Take a packet: one that the device sent to itself, or one from the link's receive buffer. A management message crosses the mesh from
its port (R328). -/
def Dev.takePkt (d : Dev) (n : LinkId) (p : FabPkt) : Dev :=
  if d.fab.loop.contains p then { d with fab := { d.fab with loop := eraseFirst (fun q => q == p) d.fab.loop } }
  else
    let d := d.freeFlits n (pktVc p)
    if p.cls == 2#2 then d.carryPkt (prOfLink n) (mgmtEnd p) none p else d

/-- The packet is addressed to this device (R363, R375). -/
def Dev.isMine (d : Dev) (p : FabPkt) : Bool := d.numbered && p.dest == d.number

/-! ### PACKET_SWITCH (R371 to R375) -/

/-- NCLK cycles from a head flit's check to its sending in an unloaded switch (R371). -/
def switchLag : Nat := 32

/-- A packet that may not be forwarded again is dropped, counted and reported (R373). -/
def Dev.dropTtl (d : Dev) (src dest : Nat) : Dev :=
  ({ d with fab := { d.fab with dropTtl := d.fab.dropTtl.inc d.now } }).fabEvent 0x6022 [src, dest]

/-- A transit packet of link `m`: header fields checked, route looked up in its epoch, HOPS counted (R370 to R375). One
that is dropped frees its flits; the others stay in the receive buffer until they are sent. -/
def switchEffect (m : LinkId) (p : FabPkt) (d : Dev) : Dev :=
  let v := pktVc p
  if p.cls == 3#2 || 64 < p.len.toNat then (d.freeFlits m v).dropMalformed p
  else match d.hop p.epoch p.dest p.tag (p.cls == 2#2) with
    | .here => d
    | .nowhere => (d.freeFlits m v).dropRoute p
    | .link n dl =>
      if p.hops == 63#6 then (d.freeFlits m v).dropTtl p.src.toNat p.dest.toNat
      else
        let d := d.holdFlits m v
        { d with fab := { d.fab with
            out := d.fab.out ++ [{ link := n, input := m.val, inVc := v, ready := d.now + switchLag
                                   pkt := .packet { p with hops := p.hops + 1, dl := p.dl ||| BitVec.ofBool dl } }] } }

/-! ### REMOTE_REQUEST_SEND (R377 to R380) -/

def rdAop (x : Nat) : Nat := fld x 3 3
def rdPrio (x : Nat) : Bool := bitOf x 6
def rdBell (x : Nat) : Nat := fld x 16 6
def rdBellEn (x : Nat) : Bool := bitOf x 22
def rdFaddr (x : Nat) : Nat := fld x 64 64

/-- Fabric address of row `i`, exact (R379). -/
def rdRowAddr (x i : Nat) : Int := (rdFaddr x : Int) + (i : Int) * signedOf 64 (fld x 256 64)

/-- Packet type of an operation. -/
def rdType (x : Nat) : Nat := match rdOp x with | 0 => 1 | 1 => 2 | 2 => 4 | _ => 3

/-- The checks of a row before it is sent (R379). -/
def rdRowOk (x i : Nat) : Bool :=
  let a := rdRowAddr x i
  let sp := rdSp x i
  let n := rdRowBytes x
  0 ≤ a && a < (2 ^ 56 : Nat) && a.toNat / 2 ^ 39 == rdFaddr x / 2 ^ 39 &&
    (let la := a.toNat % 2 ^ 39
     let space := a.toNat / 2 ^ 53
     laddrOk space la && spaceAllows space (rdType x) && sizeOk (rdType x) n (if rdOp x == 1 || rdOp x == 2 then ceilDiv n 64 else 0) 0 &&
       (2 ≤ space || placeOk (rdType x) la n) && (!(space == 3 || space == 4) || rdAop x == 0)) &&
    0 ≤ sp && sp + n ≤ (spadSize : Int)

/-- The lowest free tag. -/
def Remote.freeTag (r : Remote) : Option (Fin 128) := (fins 128).find? fun i => (r.tags[i]).held.isNone

/-- A request of the row's stream with the old epoch is unanswered (R377). -/
def Remote.holds (r : Remote) (msu : Nat) (dest : BitVec 14) (epoch : BitVec 1) : Bool :=
  r.tags.toList.any fun t => match t.held with
    | some u => u.msu == msu && u.dest == dest && u.epoch != epoch
    | none => false

/-- The row to send has its data (R379). -/
def Remote.rowReady (r : Remote) : Bool :=
  let x := r.x
  !(rdOp x == 1 || rdOp x == 2) || rdRowBytes x ≤ r.outBuf.length

/-- The engine has a row that it can send, or that fails its checks. -/
def Remote.canSend (r : Remote) (now : Nat) (epoch : BitVec 1) : Bool :=
  let x := r.x
  r.running.isSome && !r.stopped && rdOp x != 4 && r.row < rdRows x && r.lastSend != some now &&
    (!rdRowOk x r.row ||
      (r.rowReady && r.freeTag.isSome && !r.holds (rdMsu x) (BitVec.ofNat 14 (rdFaddr x / 2 ^ 39)) epoch))

/-- The running descriptor has sent its last row: the pending one takes its place (R378). -/
def Remote.passOn (r : Remote) (now : Nat) : Remote :=
  let r := { r with running := none }
  match r.pending with
  | some p => { r with pending := none }.start p now
  | none => r

/-- Stop the engine and raise a fault in the issuing context (R382). -/
def Dev.rmFault (d : Dev) (s : SiteId) (i : Issued) (code addr status : Nat) : Dev :=
  (d.modTile s fun t => { t with rm := { t.rm with stopped := true } }).ctxFault s i.ctx
    { code := code, unit := some 31, addr := addr, area := if isClassE code then 6 else 0xFF, extra := [rdStepId i.desc, status] }

/-- The engine after sending a row under a tag. -/
def Remote.sent (r : Remote) (tag : Fin 128) (i : Issued) (now timer : Nat) (epoch : BitVec 1) (brand : BitVec 16) : Remote :=
  let x := i.desc
  let r := { r with
    tags := vmod r.tags tag fun t => ({
      seq := t.seq + 1,
      held := some {
        issued := i, row := r.row, sentAt := now, timer := timer, dest := BitVec.ofNat 14 (rdFaddr x / 2 ^ 39), epoch := epoch,
        msu := rdMsu x, brand := brand } } : RmTag),
    lastSend := some now, row := r.row + 1, outBuf := r.outBuf.drop (rdRowBytes x) }
  if r.row < rdRows x then r else { r with tail := r.tail ++ [(i, r.answered)] }.passOn now

def sendRmEnabled (s : SiteId) (d : Dev) : Bool :=
  d.tileLive s && d.hasTile s && (d.tile s).rm.canSend d.now d.injEpoch

def sendRmEffect (s : SiteId) (d : Dev) : Dev :=
  let r := (d.tile s).rm
  match r.running, r.freeTag with
  | some i, tag =>
    let x := i.desc
    if !rdRowOk x r.row then d.rmFault s i 0x6013 (unsignedOf 64 (rdRowAddr x r.row)) 0
    else match tag with
      | none => d
      | some tag =>
        let a := (rdRowAddr x r.row).toNat
        let n := rdRowBytes x
        let data := if rdOp x == 1 || rdOp x == 2 then r.outBuf.take n else []
        let operand := if rdOp x == 3 then
            leBytes 8 (fld x 384 64) ++ leBytes 8 (fld x 448 64) ++ leBytes 1 (rdAop x) else []
        let brand := d.tileBrand s
        let pkt := reqPkt (a / 2 ^ 39 % 2 ^ 14) (a / 2 ^ 53) (a % 2 ^ 39) (rdType x) n brand (tagOf tag.val s.val 0)
          ((r.tags[tag]).seq + 1) (rdPrio x) operand data
        let d := d.modTile s fun t => { t with rm := t.rm.sent tag i d.now (d.timer s) d.injEpoch brand }
        (d.countFixed s 7 (ceilDiv data.length 64)).inject (some (.tile s)) pkt
  | none, _ => d

/-- REMOTE_REQUEST_SEND (R380). -/
def execRemoteRequestSend (s : SiteId) (st : State) : Host.Outcome State Fault Refusal :=
  onEvent st (sendRmEnabled s) fun _ => sendRmEffect s

/-! ### Places on the die (R364, R383) -/

/-- Paddock that holds a brand. -/
def Dev.brandPad (d : Dev) (brand : BitVec 16) : Option PadId :=
  if brand == 0#16 then none
  else (fins 16).find? fun k =>
    let b := vgetN d.fab.brands k.val 0#32
    b.getLsbD 16 && bvFld b 0 16 == brand.toNat && (d.pad k).isSome

/-- TILE of a local address. -/
def laTile (a : Nat) : Nat := fld a 25 6

/-- Site of the addressed tile; none where TILE is at or above the paddock's tile count or its number is vacant. -/
def Dev.laSite (d : Dev) (k : PadId) (a : Nat) : Option SiteId := d.tileSite k (laTile a)

/-- Endpoint on the die that a request names (R328). -/
def Dev.laEnd (d : Dev) (k : PadId) (p : FabPkt) : Option MeshEnd :=
  match p.space.toNat with
  | 0 => (finOf 48 (dramLoft p.laddr.toNat)).map .loft
  | 4 => some prCarillon
  | _ => (d.laSite k p.laddr.toNat).map .tile

/-- Where a packet for this device enters the mesh: at its port; one that the device sent to itself where it was made, a response at the
endpoint that its request named (R271, R328, R369, R375). -/
def Dev.pktFrom (d : Dev) (n : LinkId) (p : FabPkt) : Option MeshEnd :=
  if !d.fab.loop.contains p then some (prOfLink n)
  else if p.cls == 1#2 then (d.brandPad p.brand).bind fun k => d.laEnd k p
  else match tagKind p.tag with
    | 0 | 1 => (finOf 48 (tagSite p.tag)).map .tile
    | 2 => some prCarillon
    | _ => some prYard

/-! ### Responses (R380 to R382) -/

/-- One more row of the descriptor is answered. -/
def Remote.answer (r : Remote) (i : Issued) : Remote :=
  if r.running == some i then { r with answered := r.answered + 1 }
  else { r with tail := replaceFirst (fun t => t.1 == i) (fun t => (t.1, t.2 + 1)) r.tail }

/-- A response that matches no use of a tag is counted (R380). -/
def Dev.rmStale (d : Dev) (s : SiteId) : Dev := d.modTile s fun t => { t with rm := { t.rm with stale := t.rm.stale.inc d.now } }

/-- A response for a tile's remote engine: discarded where the tag is free or SEQ or BRAND differ; otherwise the tag is
free again, and the data go to the MSU's write port or the fault of the status is raised (R380, R382). -/
def Dev.rmResponse (d : Dev) (s : SiteId) (tag : Fin 128) (p : FabPkt) : Dev :=
  let t := (d.tile s).rm.tags[tag]
  match t.held with
  | some u =>
    if t.seq != p.seq || u.brand != p.brand then
      d.rmStale s
    else
      let x := u.issued.desc
      let addr := (rdRowAddr x u.row).toNat
      let d := d.modTile s fun t => { t with rm := { t.rm with tags := vmod t.rm.tags tag fun g => { g with held := none } } }
      let d := d.sample s { kind := 3, addr := addr, latency := d.now - u.sentAt, step := rdStepId x, unit := 31,
                            ctx := u.issued.ctx.val }
      if p.status != 0#8 then
        d.rmFault s u.issued (if p.status == 3#8 then 0xE001 else 0x6011) addr p.status.toNat
      else
        let data := if rdOp x == 0 then p.payload.take (rdRowBytes x) else if rdOp x == 3 then p.operand.take 8 else []
        let d := d.countFixed s 7 p.len.toNat
        d.modTile s fun t =>
          let r := t.rm.answer u.issued
          { t with rm := if data.isEmpty then r else { r with
              inBuf := r.inBuf ++ [{ addr := (rdSp x u.row).toNat, bytes := data, msu := rdMsu x, ctx := u.issued.ctx,
                                     step := rdStepId x }] } }
  | none => d.rmStale s

/-- The response of a status to a message (R384). -/
def respOf (status : Nat) : Option MsgResp :=
  match status with
  | 0 => some .ack
  | 5 => some .nakFull
  | 6 => some .nakRank
  | 7 => some .nakNoQueue
  | _ => none

/-- A response for a channel: accepted for the message in flight only (R382, R383). -/
def Dev.chanResponse (d : Dev) (s : SiteId) (ch : Fin 64) (p : FabPkt) : Dev :=
  let h := d.chan s ch
  if h.remote && h.seq == p.seq && d.tileBrand s == p.brand then
    (match respOf p.status.toNat with | some r => d.msgAnswer s ch r | none => d)
  else d

/-- A response packet is delivered by its TAG, to a tile over the mesh (R328, R369). -/
def responseEffect (n : LinkId) (p : FabPkt) (d : Dev) : Dev :=
  let from_ := d.pktFrom n p
  let d := d.takePkt n p
  let d := match finOf 48 (tagSite p.tag), from_ with
    | some s, some e => if pktWellFormed p && tagKind p.tag ≤ 1 then d.carryPkt e (.tile s) (d.padOf s) p else d
    | _, _ => d
  if !pktWellFormed p then d.dropMalformed p
  else match finOf 48 (tagSite p.tag), tagKind p.tag with
    | some s, 0 =>
      if d.hasTile s then
        (match finOf 128 (tagIdx p.tag) with | some t => d.rmResponse s t p | none => d)
      else d
    | some s, 1 =>
      if d.hasTile s then
        (match finOf 64 (tagIdx p.tag) with | some c => d.chanResponse s c p | none => d)
      else d
    | _, _ => d

/-- A response of the named type stands at the device. -/
def responseEnabled (n : LinkId) (typ : Nat) (p : FabPkt) (d : Dev) : Bool :=
  d.hasPkt n p && d.isMine p && p.typ.toNat == typ

/-- LOAD_RSP (R368). -/
def execFabLoadRsp (n : LinkId) (p : FabPkt) (st : State) : Host.Outcome State Fault Refusal :=
  onEvent st (responseEnabled n 0x11 p) fun _ => responseEffect n p

/-- ACK (R368). -/
def execFabAck (n : LinkId) (p : FabPkt) (st : State) : Host.Outcome State Fault Refusal :=
  onEvent st (responseEnabled n 0x12 p) fun _ => responseEffect n p

/-- ATOMIC_RSP (R368). -/
def execFabAtomicRsp (n : LinkId) (p : FabPkt) (st : State) : Host.Outcome State Fault Refusal :=
  onEvent st (responseEnabled n 0x13 p) fun _ => responseEffect n p

/-! ### REMOTE_DESCRIPTOR_COMPLETE (R378, R381, R388), REMOTE_TIMEOUT (R382), TILE_RM_DONE_READ -/

/-- The next descriptor that completes: one whose rows are all answered, an empty one in the running place, or a FENCE
once every earlier request has its response. The Bool says that it stands in the running place. -/
def Remote.finished (r : Remote) (now : Nat) : Option (Issued × Bool) :=
  match r.tail.find? fun t => rdRows t.1.desc ≤ t.2 with
  | some t => some (t.1, false)
  | none => match r.running with
    | some i =>
      if rdOp i.desc == 4 then
        (if r.tail.isEmpty && r.tags.toList.all (·.held.isNone) then some (i, true) else none)
      else if rdRows i.desc == 0 && r.since < now then some (i, true) else none
    | none => none

/-- The completion record (R381). -/
def rmRecord (x : Nat) : BitVec 64 :=
  let units := if rdOp x == 4 then 0 else rdRows x * ceilDiv (rdRowBytes x) 64
  BitVec.ofNat 64 (rdStepId x + (if rdOp x == 1 || rdOp x == 2 || rdOp x == 3 then 2 ^ 16 else 0) + 2 ^ 17 +
    min units (2 ^ 32 - 1) * 2 ^ 32)

def rmCompleteEnabled (s : SiteId) (d : Dev) : Bool :=
  d.running && d.hasTile s && ((d.tile s).rm.finished d.now).isSome

def rmCompleteEffect (s : SiteId) (d : Dev) : Dev :=
  match (d.tile s).rm.finished d.now with
  | none => d
  | some (i, running) =>
    let d := d.modTile s fun t =>
      let r := { t.rm with done := t.rm.done.push d.now (rmRecord i.desc) }
      { t with rm := if running then r.passOn d.now else { r with tail := eraseFirst (fun q => q.1 == i) r.tail } }
    if rdBellEn i.desc then d.bellLater s (rdBell i.desc) 1 else d

/-- REMOTE_DESCRIPTOR_COMPLETE (R381). -/
def execRemoteDescriptorComplete (s : SiteId) (st : State) : Host.Outcome State Fault Refusal :=
  onEvent st (rmCompleteEnabled s) fun _ => rmCompleteEffect s

/-- A request has no response 1,048,576 cycles after it was sent (R382). -/
def timeoutEnabled (s : SiteId) (tag : Fin 128) (d : Dev) : Bool :=
  d.running && d.hasTile s && !d.heldSite s && match ((d.tile s).rm.tags[tag]).held with
  | some u => u.timer + 1048576 ≤ d.timer s
  | none => false

def timeoutEffect (s : SiteId) (tag : Fin 128) (d : Dev) : Dev :=
  match ((d.tile s).rm.tags[tag]).held with
  | none => d
  | some u =>
    (d.modTile s fun t => { t with rm := { t.rm with tags := vmod t.rm.tags tag fun g => { g with held := none } } }).rmFault s
      u.issued 0x6010 (rdRowAddr u.issued.desc u.row).toNat 0

/-- REMOTE_TIMEOUT (R382). -/
def execRemoteTimeout (s : SiteId) (tag : Fin 128) (st : State) : Host.Outcome State Fault Refusal :=
  onEvent st (timeoutEnabled s tag) fun _ => timeoutEffect s tag

/-- A read of TILE_RM_DONE removes the oldest record (R392). -/
def execTileRmDoneRead (s : SiteId) (st : State) : Host.Outcome State Fault Refusal :=
  onEvent st (fun d => d.running && d.hasTile s) fun _ d =>
    (d.show ((d.tile s).rm.done.value d.now 18)).modTile s fun t => { t with rm := { t.rm with done := t.rm.done.taken d.now } }

end Sys2Proof.Machine
end

