-- ==== Sys2Proof/Machine/FabDest.lean ====
section
/-!
DEFINITION. Fabric requests at their destination (R364, R383 to R386) and the ternary reduce (R271): brand check, status,
performance, response. A request is performed whole.
-/
namespace Sys2Proof.Machine

/-! ### The brand check (R383) -/

/-- A refused brand is counted, and reported at most once per source device and millisecond, with an owner alert. -/
def Dev.rejectBrand (d : Dev) (p : FabPkt) : Dev :=
  let d := { d with fab := { d.fab with dropBrand := d.fab.dropBrand.inc d.now } }
  let recent := d.fab.rejects.any fun r => r.1 == p.src && d.now < r.2 + msN 1
  if recent then d
  else
    let d := { d with fab := { d.fab with
      rejects := (p.src, d.now) :: d.fab.rejects.filter fun r => r.1 != p.src } }
    (d.fabEvent 0x6020 [p.src.toNat, p.brand.toNat, p.space.toNat]).alert alertFabric

/-! ### Places (R364, R384, R386) -/

/-- Status of a DRAM range (R384). -/
def Dev.dramStatus (d : Dev) (k : PadId) (a n : Nat) : Nat :=
  if !linearValid (a : Int) then 1
  else match d.pad k with
    | some p => if p.granted (dramLoft a) (dramOff a) n then 0 else 2
    | none => 2

/-- Status of a scratchpad access, its panel apart (R384, R386). For a tile in RETAIN or OFF its router answers (R529). -/
def Dev.spadStatus (d : Dev) (k : PadId) (a n : Nat) : Nat :=
  match d.laSite k a with
  | none => 1
  | some s =>
    if 2 ≤ d.power s then 5
    else if spadSize < a % 2 ^ 25 + n then 1
    else if !(vgetN (d.tile s).queues 0 {}).enabled then 1
    else if !d.runOpen (some k) then 5
    else 0

/-- MSU through whose ports scratchpad and bell requests of the fabric pass: DELIVERY_MSU of queue 0 (R386). -/
def Tile.fabMsu (t : Tile) : Nat := (vgetN t.queues 0 {}).msu

/-- A request joins those that wait for the ports of the tile's MSU (R386, R387); it is answered when it has been performed. -/
def Dev.arrive (d : Dev) (s : SiteId) (a : Arr) : Dev := d.modTile s fun t => { t with arr := t.arr ++ [a] }

/-- The answer to a request: its STATUS, operand area and payload; none where it comes later. -/
abbrev FabAnswer := Option (Nat × Bytes × Bytes)

/-- A refusal. -/
def fabNo (status : Nat) : FabAnswer := some (status, [], [])

/-- The controller reads one block of a range after another: its windows close or are joined (R203, R328). -/
def Dev.loftTouch (d : Dev) (l : SiteId) (write : Bool) (off n : Nat) : Dev :=
  d.modLoft l fun lo => (splitRow off n).foldl (fun lo a => lo.touch write a.addr a.n d.now) lo

/-! ### LOAD and STORE -/

/-- A LOAD: of DRAM as the controller performs it, of the scratchpad through the read port (R384, R386). -/
def Dev.doLoad (d : Dev) (k : PadId) (p : FabPkt) (ecc : DramEcc) : Dev × FabAnswer :=
  let a := p.laddr.toNat
  let n := p.size.toNat
  if p.space == 0#3 then
    let st := d.dramStatus k a n
    if st != 0 then (d, fabNo st)
    else match finOf 48 (dramLoft a) with
      | none => (d, fabNo 1)
      | some l =>
        let d := (d.loftTouch l false (dramOff a) n).dramCode l (dramOff a) ecc
        if ((d.loft l).badIn (dramOff a) n).isSome then (d, fabNo 3)
        else (d, some (0, [], (d.loft l).mem.readN (dramOff a) n))
  else
    let st := d.spadStatus k a n
    match d.laSite k a with
    | some s =>
      if st != 0 then (d, fabNo st)
      else (d.arrive s { msu := (d.tile s).fabMsu, kind := .read, addr := a % 2 ^ 25, left := n, req := some p }, none)
    | none => (d, fabNo 1)

/-- A STORE: of DRAM as the controller performs it, of the scratchpad through the write port (R384, R386). -/
def Dev.doStore (d : Dev) (k : PadId) (p : FabPkt) : Dev × FabAnswer :=
  let a := p.laddr.toNat
  let n := p.size.toNat
  if p.space == 0#3 then
    let st := d.dramStatus k a n
    if st != 0 then (d, fabNo st)
    else match finOf 48 (dramLoft a) with
      | none => (d, fabNo 1)
      | some l =>
        ((d.loftTouch l true (dramOff a) n).modLoft l fun lo => lo.store (dramOff a) (p.payload.take n) d.now, some (0, [], []))
  else
    let st := d.spadStatus k a n
    match d.laSite k a with
    | some s =>
      if st != 0 then (d, fabNo st)
      else (d.arrive s { msu := (d.tile s).fabMsu, kind := .write, addr := a % 2 ^ 25, left := n, bytes := p.payload.take n,
                         req := some p }, none)
    | none => (d, fabNo 1)

/-! ### ATOMIC (R367, R385) -/

/-- Value that an atomic writes, in 64 bits. -/
def atomicNew (aop old o1 o2 : Nat) : Nat :=
  match aop with
  | 0 => (old + o1) % 2 ^ 64
  | 1 => o1
  | 2 => if old == o1 then o2 else old
  | 3 => old &&& o1
  | _ => old ||| o1

/-- Operands that R385 calls malformed. -/
def atomicOk (p : FabPkt) : Bool :=
  let o1 := fieldAt p.operand 0 8
  let aop := fieldAt p.operand 16 1
  match p.space.toNat with
  | 3 => aop == 0 && 1 ≤ o1 && o1 ≤ 0xFFFFFFFE
  | 4 => aop == 0 && o1 == 1
  | _ => true

/-- The work counter that a carillon request names (R253, R364). -/
def Dev.laCounter (d : Dev) (k : PadId) (a : Nat) : Option (Fin 256) :=
  ((d.pad k).bind fun q => q.sites.head?).bind fun s =>
    if fld a 0 8 < (d.tile s).ctl.workCount then finOf 256 ((d.tile s).ctl.workBase + fld a 0 8) else none

/-- A bell add takes its turn at the write port of the MSU, and is answered when it has been applied (R248, R386, R387). -/
def Dev.doBell (d : Dev) (s : SiteId) (b n : Nat) (p : FabPkt) : Dev × FabAnswer :=
  (d.arrive s { msu := (d.tile s).fabMsu, kind := .bell, addr := b, left := n, req := some p }, none)

/-- Perform an atomic: status and the operand area of its response. -/
def Dev.doAtomic (d : Dev) (k : PadId) (p : FabPkt) (ecc : DramEcc) : Dev × FabAnswer :=
  let a := p.laddr.toNat
  let o1 := fieldAt p.operand 0 8
  match p.space.toNat with
  | 0 =>
    let st := d.dramStatus k a 8
    if st != 0 then (d, fabNo st)
    else (match finOf 48 (dramLoft a) with
      | none => (d, fabNo 1)
      | some l =>
        let off := dramOff a
        let d := (d.modLoft l fun lo => lo.touchBoth off).dramCode l off ecc
        if ((d.loft l).badIn off 8).isSome then (d, fabNo 3)
        else
          let old := leNat ((d.loft l).mem.readN off 8)
          let v := atomicNew (fieldAt p.operand 16 1) old o1 (fieldAt p.operand 8 8)
          (d.modLoft l fun lo => lo.store off (leBytes 8 v) d.now, some (0, leBytes 8 old, [])))
  | 3 =>
    (match d.laSite k a with
     | none => (d, fabNo 1)
     | some s =>
       if 2 ≤ d.power s then (d, fabNo 5)
       else if 47 < fld a 0 6 then (d, fabNo 1)
       else if !d.runOpen (some k) then (d, fabNo 5)
       else d.doBell s (fld a 0 6) o1 p)
  | _ =>
    (match d.laCounter k a with
     | none => (d, fabNo 1)
     | some c =>
       let (d, gen, v) := d.workAdd c
       (d, some (0, leBytes 8 v.toNat ++ leBytes 2 gen.toNat, [])))

/-! ### TREDUCE (R271) -/

/-- A ternary of a TERN2 payload. -/
def ternOf (bs : Bytes) (j : Nat) : Int :=
  match fieldAt bs (j / 4) 1 / 4 ^ (j % 4) % 4 with
  | 1 => 1
  | 3 => -1
  | _ => 0

/-- The tally bytes after the votes of a payload from number `i` on are added, each sum clamped to −127 to 127. -/
def tallyAdd (old payload : Bytes) (i : Nat) : Bytes :=
  old.zipIdx.map fun x => BitVec.ofInt 8 (max (-127) (min 127 (x.1.toInt + ternOf payload (i + x.2))))

/-- Votes from number `i` on are added to `n` tally bytes of the loft: to those in the DRAM, and to those that a read-and-zero may
yet have to leave as they were (R271, R272, R286). -/
def Loft.tally (l : Loft) (off n i : Nat) (payload : Bytes) (now : Nat) : Loft :=
  l.update off n now fun m => m.writeN off (tallyAdd (m.readN off n) payload i)

def Dev.doReduce (d : Dev) (k : PadId) (p : FabPkt) (ecc : DramEcc) : Dev × FabAnswer :=
  let a := p.laddr.toNat
  let n := 4 * p.size.toNat
  let st := if dramLoft a == dramLoft (a + n - 1) then d.dramStatus k a n else 1
  if st != 0 then (d, fabNo st)
  else match finOf 48 (dramLoft a) with
    | none => (d, fabNo 1)
    | some l =>
      let off := dramOff a
      let d := (d.modLoft l fun lo => (splitRow off n).foldl (fun lo a => lo.touchBoth a.addr) lo).dramCode l off ecc
      if ((d.loft l).badIn off n).isSome then (d, fabNo 3)
      else
        let votes := p.payload.take p.size.toNat
        (d.modLoft l fun lo => (splitRow off n).foldl (fun lo a => lo.tally a.addr a.n (a.addr - off) votes d.now) lo,
          some (0, [], []))

/-! ### MESSAGE (R266, R384) -/

/-- A MESSAGE is accepted or refused like one of a channel of the device; a TILE that is none of the paddock's holds no image
(R266, R384). For a tile in RETAIN or OFF its router answers as it does a channel's message; DEDUCED, log entry 84: R529 names queues
beside NAK_FULL too, and R384 leaves every response to a MESSAGE to R266. -/
def Dev.doMessage (d : Dev) (k : PadId) (p : FabPkt) : Dev × FabAnswer :=
  let a := p.laddr.toNat
  match d.laSite k a with
  | none => (d, fabNo 7)
  | some s =>
    if 2 ≤ d.power s then (d, fabNo 7)
    else
    let q := fld a 0 5
    let bs := p.payload.take p.size.toNat
    match d.acceptMsg s q (BitVec.ofNat 16 (fieldAt p.operand 0 2)) bs with
    | (d, some r) => (d, fabNo (msgStatus r))
    | (d, none) => (d.holdMsg s { queue := q, bytes := bs, sender := (s, 0, false), pkt := some p }, none)

/-! ### The commands -/

/-- A request of the named type stands at the device. -/
def requestEnabled (n : LinkId) (typ : Nat) (p : FabPkt) (d : Dev) : Bool :=
  d.hasPkt n p && d.isMine p && p.typ.toNat == typ

/-- A sealed paddock with a brand takes requests only from a hitch link of the formed hitch whose peer carries this
device's OWNER_ID, and from the device itself (R476). -/
def Dev.sealedTakes (d : Dev) (fz : Fuse) (n : LinkId) (local_ : Bool) (k : PadId) : Bool :=
  !(d.seals[k]).sealed_ || local_ ||
    (d.hitchFormed && d.hitchLinks.any (fun h => h.1 == n) && fz.ownerId.isSome &&
      fz.ownerId == some (sliceAt (d.link n).hs.peerCert 3416 32))

/-- A request crosses the mesh to its endpoint: to a loft split at 512-byte boundaries, with the bytes that it writes there, to a tile or
the carillon whole (R328). -/
def Dev.carryRequest (d : Dev) (from_ : MeshEnd) (k : PadId) (p : FabPkt) : Dev :=
  match d.laEnd k p with
  | none => d
  | some e =>
    if p.space == 0#3 then
      let t := p.typ.toNat
      let n := p.size.toNat
      (splitRow (dramOff p.laddr.toNat) (if t == 4 then 4 * n else n)).foldl (fun d a =>
        d.carry from_ e 0 (p.prio == 1#1) (some k) (if t == 2 then a.n else if t == 4 then ceilDiv a.n 4 else 0)) d
    else d.carryPkt from_ e (some k) p

/-- A request: malformed ones and refused brands are dropped; any other is performed and answered, now or when its turn at the
tile's ports has come. -/
def requestEffect (n : LinkId) (p : FabPkt) (f : Dev → PadId → Dev × FabAnswer) (rsp : Nat) (fz : Fuse)
    (d : Dev) : Dev :=
  let local_ := d.fab.loop.contains p
  let from_ := d.pktFrom n p
  let d := d.takePkt n p
  if !(pktWellFormed p && (p.typ != 3#6 || atomicOk p)) then d.dropMalformed p
  else match d.brandPad p.brand with
    | none => d.rejectBrand p
    | some k =>
      if !d.sealedTakes fz n local_ k then d.rejectBrand p
      else
      let d := match from_ with | some e => d.carryRequest e k p | none => d
      match f d k with
      | (d, some (status, operand, payload)) => d.inject (d.laEnd k p) (rspPkt p rsp status operand payload)
      | (d, none) => d

/-- The work counter that an ATOMIC names can serve an operation in this cycle (R259). -/
def Dev.counterTurn (d : Dev) (p : FabPkt) : Bool :=
  p.space != 4#3 || match (d.brandPad p.brand).bind fun k => d.laCounter k p.laddr.toNat with
  | some c => d.workTurn c
  | none => true

/-- The tile that a MESSAGE names has answered none in this cycle (R263). -/
def Dev.messageTurn (d : Dev) (p : FabPkt) : Bool :=
  match (d.brandPad p.brand).bind fun k => d.laSite k p.laddr.toNat with
  | some s => (d.tile s).msgAt != some d.now
  | none => true

/-- LOAD (R368). -/
def execFabLoad (n : LinkId) (p : FabPkt) (ecc : DramEcc) (st : State) : Host.Outcome State Fault Refusal :=
  onEvent st (requestEnabled n 1 p) <| requestEffect n p (fun d k => d.doLoad k p ecc) 0x11

/-- STORE (R368). -/
def execFabStore (n : LinkId) (p : FabPkt) (st : State) : Host.Outcome State Fault Refusal :=
  onEvent st (requestEnabled n 2 p) <| requestEffect n p (fun d k => d.doStore k p) 0x12

/-- ATOMIC (R367). -/
def execFabAtomic (n : LinkId) (p : FabPkt) (ecc : DramEcc) (st : State) : Host.Outcome State Fault Refusal :=
  onEvent st (fun d => requestEnabled n 3 p d && d.counterTurn p) <| requestEffect n p (fun d k => d.doAtomic k p ecc) 0x13

/-- TREDUCE (R271). -/
def execFabTreduce (n : LinkId) (p : FabPkt) (ecc : DramEcc) (st : State) : Host.Outcome State Fault Refusal :=
  onEvent st (requestEnabled n 4 p) <| requestEffect n p (fun d k => d.doReduce k p ecc) 0x12

/-- MESSAGE (R263). -/
def execFabMessage (n : LinkId) (p : FabPkt) (st : State) : Host.Outcome State Fault Refusal :=
  onEvent st (fun d => requestEnabled n 5 p d && d.messageTurn p) <| requestEffect n p (fun d k => d.doMessage k p) 0x12

end Sys2Proof.Machine
end

