-- ==== Sys2Proof/Machine/FabMgmt.lean ====
section
/-!
DEFINITION. Fabric management (R358 to R363, R374 to R376, R389 to R391): discovery and the hitch, the election of the
master, numbers, route writes and epochs, and the barrier packets of spanning barriers.
-/
namespace Sys2Proof.Machine

/-! ### Trust of a link (R359) -/

/-- The link is UP and its FAB_LINK_CFG has MGMT_TRUSTED. -/
def Dev.trusted (d : Dev) (n : LinkId) : Bool := (d.link n).state == .up && (d.link n).cfg.getLsbD 3

/-- Trusted links. -/
def Dev.trustedLinks (d : Dev) : List LinkId := (fins 16).filter d.trusted

/-- A management message is refused: dropped, counted, reported, with an owner alert (R359, R389, R393). -/
def Dev.mgmtRefuse (d : Dev) (names : List Nat) : Dev :=
  (({ d with fab := { d.fab with dropMgmt := d.fab.dropMgmt.inc d.now } }).fabEvent 0x6024 names).alert alertFabric

/-! ### What a device says of itself (R359, R361) -/

def Dev.curNumber (d : Dev) : Option (BitVec 14) := if d.numbered then some d.number else none
def Dev.priority (d : Dev) : Nat := (d.setting 5).getD 0
def Dev.electAssigned (d : Dev) : Bool := (d.setting 4).getD 0 == 1

/-- The device's own DISCOVER on a link (R359). -/
def Dev.myDiscover (d : Dev) (serial : BitVec 64) (n : LinkId) : Discover :=
  { serial := serial, role := d.role, hitchSize := d.hitchSize, hitchPos := d.hitchPos, priority := d.priority,
    number := d.curNumber, linkIdx := n }

/-- PINNED_NUMBER (R356). -/
def Dev.pinned (d : Dev) : Option (BitVec 14) :=
  match d.setting 7 with
  | some v => if bitOf v 63 then none else some (BitVec.ofNat 14 v)
  | none => none

/-- The device's TOPOLOGY_REPORT (R361). -/
def Dev.myTopology (d : Dev) (serial : BitVec 64) : Topology :=
  { serial := serial, pinned := d.pinned, hitchSize := if d.inHitch then d.hitchSize else 0, hitchPos := d.hitchPos,
    number := d.curNumber,
    links := ((fins 16).filter fun n => (d.link n).state == .up).map fun n =>
      { idx := n, peer := (d.link n).peer,
        peerIdx := ((d.fab.neighbours.find? fun q => q.1 == n).map (·.2.linkIdx)).getD n,
        width := (d.link n).width, trusted := d.trusted n } }

/-- Send a report up the tree; the master keeps it (R361). -/
def Dev.reportUp (d : Dev) (serial : BitVec 64) : Dev :=
  match d.fab.parent with
  | some n => if d.role == 0 then d else d.sendOn n (.topology 0#6 (d.myTopology serial))
  | none => d

/-- The device takes itself as candidate, or none, and sends CANDIDATE on every trusted link (R360). A hitch member does
not stand. -/
def Dev.restartElection (d : Dev) (serial : BitVec 64) : Dev :=
  let stands := d.role != 0 && d.role != 3 &&
    (if d.electAssigned then d.setting 6 == some serial.toNat else d.priority != 0)
  let best := if stands then some (serial, d.priority) else none
  let d := { d with fab := { d.fab with best := best, parent := none, bestSince := d.now } }
  match best with
  | some (s, p) => d.trustedLinks.foldl (fun d n => d.sendOn n (.candidate s p)) d
  | none => d

/-- What follows a link's entry into UP: DISCOVER, and the best candidate where the link is trusted (R358 to R360). -/
def Dev.onLinkUp (d : Dev) (serial : BitVec 64) (n : LinkId) : Dev :=
  let d := d.sendOn n (.discover (d.myDiscover serial n))
  let d := if d.fab.best.isNone && d.fab.parent.isNone then d.restartElection serial
    else match d.fab.best with
      | some (s, p) => if d.trusted n then d.sendOn n (.candidate s p) else d
      | none => d
  d.reportUp serial

/-- What follows when a link leaves UP: its neighbour is forgotten, and the loss of PARENT restarts the election (R360). -/
def Dev.onLinkLost (d : Dev) (serial : BitVec 64) (n : LinkId) : Dev :=
  let d := { d with fab := { d.fab with
    neighbours := d.fab.neighbours.filter fun q => q.1 != n, hitchOk := d.fab.hitchOk.filter (· != n) } }
  let d := if d.fab.parent == some n then d.restartElection serial else d
  d.reportUp serial

/-! ### DISCOVER (R358, R359) -/

/-- The neighbour on a mapped hitch link is the peer that the map names. -/
def Dev.hitchMatch (d : Dev) (q : Nat) (x : Discover) : Bool :=
  x.hitchSize == d.hitchSize && x.hitchPos == q && x.role == (if q == 0 then 2 else 3)

/-- No free port of the hitch is enabled: the hitch is in no fabric (R357, R362). -/
def Dev.hitchAlone (d : Dev) : Bool :=
  (fins 16).all fun n => !(d.link n).cfg.getLsbD 0 || d.hitchLinks.any fun h => h.1.val / 2 == n.val / 2

/-- Every mapped link of every position has passed: the hitch is formed; one that is in no fabric numbers itself by position
(R358, R362). DESIGN CHOICE, log entry 48: whether the links between other positions match is a free value. -/
def Dev.checkHitch (d : Dev) : Dev :=
  if d.inHitch && !d.hitchFormed && d.hitchLinks.all (fun h => d.fab.hitchOk.contains h.1) && Config.hitchElsewhere d.now then
    let d := { d with hitchFormed := true }.setDevCfg 22 1 1
    if d.numbered || !d.hitchAlone then d else (d.setDevCfg 4 14 d.hitchPos).setDevCfg 3 1 1
  else d

/-- The device's neighbour on a link is known; on a mapped hitch link that does not match, the hitch is not formed (R358). -/
def discoverEffect (n : LinkId) (x : Discover) (d : Dev) : Dev :=
  let d := { d with fab := { d.fab with neighbours := (n, x) :: d.fab.neighbours.filter fun q => q.1 != n } }
  match d.hitchLinks.find? fun h => h.1 == n with
  | none => d
  | some h =>
    if d.hitchMatch h.2 x then
      Dev.checkHitch { d with fab := { d.fab with hitchOk := if d.fab.hitchOk.contains n then d.fab.hitchOk else n :: d.fab.hitchOk } }
    else
      let d := { d with hitchFormed := false, fab := { d.fab with hitchOk := d.fab.hitchOk.filter (· != n) } }.setDevCfg 22 1 0
      (d.fabEvent 0x6027 [n.val, x.serial.toNat]).alert alertFabric

/-- DISCOVER (R359). -/
def execDiscover (n : LinkId) (x : Discover) (st : State) : Host.Outcome State Fault Refusal :=
  onEvent st (fun d => d.running && (d.link n).state == .up) fun _ d => discoverEffect n x (d.freeFlits n 4)

/-! ### CANDIDATE and the master (R360) -/

/-- A candidate comes before another: higher priority, then lower serial. -/
def betterCand (s p s' p' : Nat) : Bool := p' < p || (p == p' && s < s')

/-- A better candidate is adopted: its link is PARENT, the others hear of it, and the device reports up the new tree (R360,
R361). -/
def candidateEffect (n : LinkId) (serial : BitVec 64) (prio : Nat) (fz : Fuse) (d : Dev) : Dev :=
  if !d.trusted n then d.mgmtRefuse [n.val]
  else
    let better := if d.electAssigned then d.setting 6 == some serial.toNat && d.fab.parent.isNone &&
        (d.fab.best.map (·.1)) != some serial
      else match d.fab.best with
        | some (s, p) => betterCand serial.toNat prio s.toNat p
        | none => true
    if !better then d
    else
      let d := { d with fab := { d.fab with best := some (serial, prio), parent := some n, bestSince := d.now } }
      ((d.trustedLinks.filter (· != n)).foldl (fun d m => d.sendOn m (.candidate serial prio)) d).reportUp fz.serial

/-- CANDIDATE (R360). -/
def execCandidate (n : LinkId) (serial : BitVec 64) (priority : Nat) (st : State) : Host.Outcome State Fault Refusal :=
  onEvent st (fun d => d.running && (d.link n).state == .up) fun fz d =>
    candidateEffect n serial priority fz (d.freeFlits n 4)

/-- NCLK cycle in which the last trusted link came UP. -/
def Dev.lastTrusted (d : Dev) : Nat := (d.trustedLinks.map fun n => (d.link n).since).foldl max 0

/-- The best candidacy has stood for 250 ms after the last trusted link came UP, and it is not yet the master known. -/
def electionEnabled (d : Dev) : Bool :=
  d.worvis && d.role != 0 && match d.fab.best with
  | some (s, _) => max d.lastTrusted d.fab.bestSince + msN 250 ≤ d.now && d.fab.master != s
  | none => false

/-! ### TOPOLOGY_REPORT and numbers (R361, R362) -/

/-- The lowest number from `i` on, a multiple of `n`, that is free with the next `n` − 1. -/
def freeBlock (taken : Nat → Bool) (n : Nat) : Nat → Nat → Nat
  | 0, i => i
  | fuel + 1, i => if (List.range n).any fun j => taken (i + j) then freeBlock taken n fuel (i + max 1 n) else i

/-- The lead of a member's hitch: a reported peer at position 0 of the same size. -/
def leadOf (all : List Topology) (t : Topology) : Option Topology :=
  if t.hitchSize == 0 then none
  else all.find? fun q => q.hitchSize == t.hitchSize && q.hitchPos == 0 &&
    (q.serial == t.serial || t.links.any fun l => l.peer == q.serial)

/-- Numbers given so far: serial and number; and the blocks of hitches: lead's serial, base, size. -/
abbrev Numbering := List (BitVec 64 × Nat) × List (BitVec 64 × Nat × Nat)

/-- The number is given, or lies in the block of a hitch. -/
def numUsed (x : Numbering) (n : Nat) : Bool := x.1.any (fun q => q.2 == n) || x.2.any fun b => b.2.1 ≤ n && n < b.2.1 + b.2.2

/-- The device has its number. -/
def hasNumber (x : Numbering) (t : Topology) : Bool := x.1.any fun q => q.1 == t.serial

/-- Base of the block of the device's hitch. -/
def hitchBase (all : List Topology) (x : Numbering) (t : Topology) : Option Nat :=
  (leadOf all t).bind fun q => (x.2.find? fun b => b.1 == q.serial).map (·.2.1)

/-- Give a device a number, where it is free. That of a hitch device lies at its position of the hitch's block, which takes its
place with the first number that a device of the hitch has. -/
def giveNumber (all : List Topology) (x : Numbering) (t : Topology) (n : Nat) : Numbering :=
  if hasNumber x t then x
  else if t.hitchSize == 0 then (if numUsed x n then x else (x.1 ++ [(t.serial, n)], x.2))
  else match leadOf all t, hitchBase all x t with
    | _, some b => if n == b + t.hitchPos then (x.1 ++ [(t.serial, n)], x.2) else x
    | some q, none =>
      let b := n - t.hitchPos
      if n % t.hitchSize != t.hitchPos || (List.range t.hitchSize).any fun j => numUsed x (b + j) then x
      else (x.1 ++ [(t.serial, n)], x.2 ++ [(q.serial, b, t.hitchSize)])
    | none, none => if numUsed x n then x else (x.1 ++ [(t.serial, n)], x.2)

/-- The lowest free number for a device, or its place in its hitch's block; none for a member of a hitch whose lead has not
reported. -/
def nextNumber (all : List Topology) (x : Numbering) (t : Topology) : Option Nat :=
  if t.hitchSize == 0 then some (freeBlock (numUsed x) 1 16384 0)
  else (leadOf all t).map fun _ => ((hitchBase all x t).getD (freeBlock (numUsed x) t.hitchSize 16384 0)) + t.hitchPos

/-- Numbers of all reported devices by serial (R362): current ones kept, then pinned ones, then the lowest free ones;
hitches in blocks. -/
def assignNumbers (all : List Topology) : List (BitVec 64 × Nat) :=
  let order := all.mergeSort fun a b => a.serial.toNat ≤ b.serial.toNat
  let give (num : Numbering → Topology → Option Nat) (x : Numbering) : Numbering := order.foldl (fun x t =>
    match num x t with
    | some n => giveNumber all x t n
    | none => x) x
  (give (nextNumber all) (give (fun _ t => t.pinned.map (·.toNat)) (give (fun _ t => t.number.map (·.toNat)) ([], [])))).1

/-- Two reported devices claim one pinned number (R362). -/
def pinConflict (all : List Topology) (t : Topology) : Bool :=
  t.pinned.isSome && all.any fun q => q.serial != t.serial && q.pinned == t.pinned

/-- The master sends ASSIGN where a device's number is not the one it is to have (R362). -/
def Dev.assignAll (d : Dev) (serial : BitVec 64) : Dev :=
  let all := d.myTopology serial :: d.fab.topology
  (assignNumbers all).foldl (fun d x =>
    let cur := (all.find? fun t => t.serial == x.1).bind (·.number)
    if cur == some (BitVec.ofNat 14 x.2) then d
    else if x.1 == serial then (d.setDevCfg 4 14 x.2).setDevCfg 3 1 1
    else match d.fab.records.find? fun r => r.1 == x.1 with
      | some (_, n) => d.sendOn n (.assign 0#6 x.1 (BitVec.ofNat 14 x.2))
      | none => d) d

/-- The candidate is the master; the device that is it gives out the numbers, its own among them (R360, R362). -/
def electionEffect (fz : Fuse) (d : Dev) : Dev :=
  match d.fab.best with
  | none => d
  | some (s, _) =>
    let d := { d with fab := { d.fab with master := s, masterDev := none } }.setDevCfg 18 1 (if s == fz.serial then 1 else 0)
    let d := (d.fabEvent 0x6025 [s.toNat]).reportUp fz.serial
    if s == fz.serial then d.assignAll fz.serial else d

/-- MASTER_ELECTION_TIMEOUT (R360). -/
def execMasterElectionTimeout (st : State) : Host.Outcome State Fault Refusal := onEvent st electionEnabled electionEffect

/-- The link that leads to the device of a serial is the one on which its last UP message came (R361). -/
def Dev.record (d : Dev) (serial : BitVec 64) (n : LinkId) : Dev :=
  { d with fab := { d.fab with records := (serial, n) :: d.fab.records.filter fun r => r.1 != serial } }

/-- A tree message goes on, on a link, with HOPS counted (R361, R373). -/
def Dev.passTree (d : Dev) (n : Option LinkId) (hops : BitVec 6) (m : BitVec 6 → OutPkt) : Dev :=
  match n with
  | none => d
  | some n => if hops == 63#6 then d.dropTtl 0 0 else d.sendOn n (m (hops + 1))

/-- A device's report: the master keeps it and assigns numbers, any other device sends it on to PARENT (R361, R362). -/
def topologyEffect (n : LinkId) (hops : BitVec 6) (t : Topology) (fz : Fuse) (d : Dev) : Dev :=
  if !d.trusted n then d.mgmtRefuse [n.val]
  else
    let d := d.record t.serial n
    if d.isMaster then
      let d := { d with fab := { d.fab with topology := t :: d.fab.topology.filter fun q => q.serial != t.serial } }
      let d := if pinConflict (d.myTopology fz.serial :: d.fab.topology) t then d.fabEvent 0x6026 [t.serial.toNat] else d
      d.assignAll fz.serial
    else d.passTree d.fab.parent hops fun h => .topology h t

/-- TOPOLOGY_REPORT (R361). -/
def execTopologyReport (n : LinkId) (hops : BitVec 6) (t : Topology) (st : State) : Host.Outcome State Fault Refusal :=
  onEvent st (fun d => d.running && (d.link n).state == .up) fun fz d => topologyEffect n hops t fz (d.freeFlits n 4)

/-- A message of the master on the tree: it came on a trusted link and its sender is the current master (R359, R389). -/
def Dev.fromMaster (d : Dev) (n : LinkId) (sender : BitVec 64) : Bool :=
  d.trusted n && sender == d.fab.master && d.fab.master != 0#64

/-- The link recorded for a serial (R361). -/
def Dev.recorded (d : Dev) (serial : BitVec 64) : Option LinkId := (d.fab.records.find? fun r => r.1 == serial).map (·.2)

def assignEffect (n : LinkId) (hops : BitVec 6) (sender target : BitVec 64) (number : BitVec 14) (fz : Fuse) (d : Dev) : Dev :=
  if !d.fromMaster n sender then d.mgmtRefuse [n.val, sender.toNat]
  else if target == fz.serial then (d.setDevCfg 4 14 number.toNat).setDevCfg 3 1 1
  else d.passTree (d.recorded target) hops fun h => .assign h target number

/-- ASSIGN (R362). -/
def execAssign (n : LinkId) (hops : BitVec 6) (sender target : BitVec 64) (number : BitVec 14) (st : State) :
    Host.Outcome State Fault Refusal :=
  onEvent st (fun d => d.running && (d.link n).state == .up) fun fz d =>
    assignEffect n hops sender target number fz (d.freeFlits n 4)

/-! ### Route writes and epochs (R374, R376, R390) -/

/-- Fields of a management packet's operand area (R389, R390). -/
def mgCode (p : FabPkt) : Nat := fieldAt p.operand 0 2
def mgTree (p : FabPkt) : Nat := fieldAt p.operand 2 1
def mgByte (p : FabPkt) (i : Nat) : Nat := fieldAt p.operand i 1
def mgTarget (p : FabPkt) : Nat := fieldAt p.operand 8 8

/-- The packet is for this device: by table with its number, or DOWN with its serial. -/
def Dev.mgMine (d : Dev) (serial : BitVec 64) (p : FabPkt) : Bool :=
  if mgTree p == 2 then mgTarget p == serial.toNat else d.isMine p

/-- Forward a DOWN message on the recorded link; without one it is dropped (R361). -/
def Dev.mgForward (d : Dev) (p : FabPkt) : Dev :=
  if mgTree p != 2 then d
  else d.passTree (d.recorded (BitVec.ofNat 64 (mgTarget p))) p.hops fun h => .packet { p with hops := h }

/-- A ROUTE_WRITE or an EPOCH_FLIP is the master's: on the tree by its sender's serial, by table by SRC_DEV, the number that the
master's messages on the tree have shown (R389; DESIGN CHOICE, log entry 87). -/
def Dev.masterSent (d : Dev) (n : LinkId) (sender : BitVec 64) (p : FabPkt) : Bool :=
  if mgTree p == 2 then d.fromMaster n sender
  else d.trusted n && d.fab.master != 0#64 && d.fab.masterDev == some p.src

/-- The master's device number, as its message on the tree shows it. -/
def Dev.seeMaster (d : Dev) (p : FabPkt) : Dev :=
  if mgTree p == 2 then { d with fab := { d.fab with masterDev := some p.src } } else d

/-- ROUTE_ACK back to the master: by table, or up the tree. -/
def Dev.ackRoute (d : Dev) (p : FabPkt) (status : Nat) : Dev :=
  if mgTree p == 2 then
    (match d.fab.parent with | some n => d.sendOn n (.routeAck status p.tag p.seq) | none => d)
  else d.inject (some prYard) { reqPkt p.src.toNat 5 0 0x20 0 0#16 p.tag p.seq true (leBytes 2 6) [] with
                  cls := 2#2, status := BitVec.ofNat 8 status }

/-- Entries that the device fixes: its own number and its hitch's (R374). -/
def Dev.fixedRoute (d : Dev) (dev : Nat) : Bool :=
  (d.numbered && dev == d.number.toNat) || (d.peerPos (BitVec.ofNat 14 dev)).isSome

/-- Write entries into a version: reserved bits stay 0, and zero entries are not listed (R374). -/
def Dev.writeRoutes (d : Dev) (version : BitVec 1) (first : Nat) (es : List (BitVec 16)) : Dev :=
  let put (l : List (Nat × BitVec 16)) : List (Nat × BitVec 16) := es.zipIdx.foldl (fun l x =>
    let dev := first + x.2
    let e := x.1 &&& 0x7F#16
    if d.fixedRoute dev then l
    else if e == 0#16 then l.filter fun q => q.1 != dev else setKey dev e l) l
  { d with fab := if version == 0#1 then { d.fab with routes0 := put d.fab.routes0 }
                  else { d.fab with routes1 := put d.fab.routes1 } }

/-- A version may be written: it is not the injection version, and has not been for 64 µs (R376). -/
def Dev.routeOpen (d : Dev) (version : BitVec 1) : Bool :=
  version != d.injEpoch && vgetN d.fab.leftAt version.toNat 0 + usN 64 ≤ d.now

def routeWriteEffect (n : LinkId) (sender : BitVec 64) (p : FabPkt) (fz : Fuse) (d : Dev) : Dev :=
  if !d.masterSent n sender p then d.mgmtRefuse [n.val, sender.toNat]
  else
    let d := d.seeMaster p
    if !d.mgMine fz.serial p then d.mgForward p
    else
    let first := fieldAt p.operand 6 2
    let count := p.size.toNat / 2
    let version := BitVec.ofNat 1 (mgByte p 4)
    if !pktWellFormed p || mgCode p != 5 || p.size.toNat % 2 != 0 || count == 0 || 2048 < count || 16384 < first + count then
      d.dropMalformed p
    else if !d.routeOpen version then d.ackRoute p 1
    else
      let es := (List.range count).map fun i => BitVec.ofNat 16 (fieldAt p.payload (2 * i) 2)
      (d.writeRoutes version first es).ackRoute p 0

/-- ROUTE_WRITE (R376, R390). -/
def execRouteWrite (n : LinkId) (sender : BitVec 64) (p : FabPkt) (st : State) : Host.Outcome State Fault Refusal :=
  onEvent st (fun d => d.running && (d.link n).state == .up) fun fz d => routeWriteEffect n sender p fz (d.freeFlits n 4)

/-- The injection epoch changes (R376). -/
def Dev.flipTo (d : Dev) (e : BitVec 1) : Dev :=
  if e == d.injEpoch then d
  else { d with fab := { d.fab with leftAt := vsetN d.fab.leftAt d.injEpoch.toNat d.now } }.setDevCfg 19 1 e.toNat

def epochFlipEffect (n : LinkId) (sender : BitVec 64) (p : FabPkt) (fz : Fuse) (d : Dev) : Dev :=
  if !d.masterSent n sender p then d.mgmtRefuse [n.val, sender.toNat]
  else
    let d := d.seeMaster p
    if !d.mgMine fz.serial p then d.mgForward p
    else if !pktWellFormed p || mgCode p != 7 then d.dropMalformed p
    else (d.flipTo (BitVec.ofNat 1 (mgByte p 4))).ackRoute p 0

/-- EPOCH_FLIP (R376, R390). -/
def execEpochFlip (n : LinkId) (sender : BitVec 64) (p : FabPkt) (st : State) : Host.Outcome State Fault Refusal :=
  onEvent st (fun d => d.running && (d.link n).state == .up) fun fz d => epochFlipEffect n sender p fz (d.freeFlits n 4)

/-- Serial of a device of a number, and the link that leads down to it, as the master knows them. -/
def Dev.downLink (d : Dev) (dev : BitVec 14) : Option (BitVec 64 × LinkId) :=
  (d.fab.topology.find? fun t => t.number == some dev).bind fun t => (d.recorded t.serial).map fun n => (t.serial, n)

/-- Numbers of the devices below the master. -/
def Dev.fabDevices (d : Dev) : List (BitVec 14) := d.fab.topology.filterMap (·.number)

/-- The links the master knows, for `Config.masterRoute`. -/
def Dev.linkFacts (d : Dev) : List Nat :=
  d.fab.topology.flatMap fun t => t.links.flatMap fun l => [t.serial.toNat, l.idx.val, l.peer.toNat, l.peerIdx.val, l.width]

/-- Device numbers of the fabric, from 0 up to the highest the master knows. -/
def Dev.fabTop (d : Dev) : Nat := (d.fabDevices.map (·.toNat)).foldl max d.number.toNat + 1

/-- The route entries of device `dev`, in pieces that one ROUTE_WRITE can carry: first entry and entries (R390). -/
def Dev.routePieces (d : Dev) (dev : Nat) : List (Nat × List (BitVec 16)) :=
  (List.range (ceilDiv d.fabTop 2048)).map fun i =>
    (2048 * i, (List.range (min 2048 (d.fabTop - 2048 * i))).map fun x => Config.masterRoute d.linkFacts dev (2048 * i + x))

/-- The old version may be written: 64 µs have passed since the last flip acknowledgement, and since the flip here
(R376). -/
def Dev.rebuildOpen (d : Dev) : Bool := d.fab.flipAckAt + usN 64 ≤ d.now && d.routeOpen (~~~ d.injEpoch)

/-- The master begins to write the version that is not in use (R376): on itself, and by ROUTE_WRITE on every device. One
acknowledgement is owed for each message. -/
def Dev.startRebuild (d : Dev) : Dev :=
  let v := ~~~ d.injEpoch
  let e := (d.routePieces d.number.toNat).foldl (fun e x => e.writeRoutes v x.1 x.2) d
  let e := d.fabDevices.foldl (fun e dev => match d.downLink dev with
    | some (t, n) => (d.routePieces dev.toNat).foldl (fun e x => e.sendOn n (.routeWrite t v x.1 x.2)) e
    | none => e) e
  { e with fab := { e.fab with
      rebuildAcks := d.fabDevices.flatMap fun dev => List.replicate (ceilDiv d.fabTop 2048) dev
      flipped := false } }

/-- The rebuild ends DONE. -/
def Dev.endRebuild (d : Dev) (slot : Fin 64) : Dev :=
  { d with rebuild := none, fab := { d.fab with flipped := false } }.endOp (some slot) .done 0

/-- When every acknowledgement is there: flip, then end (R376). A fabric of one device owes none. -/
def Dev.stepRebuild (d : Dev) : Dev :=
  match d.rebuild with
  | none => d
  | some r =>
    if !d.fab.rebuildAcks.isEmpty then d
    else if !d.fab.flipped then
      let e := ~~~ d.injEpoch
      let d := d.fabDevices.foldl (fun d dev => match d.downLink dev with
        | some (t, n) => d.sendOn n (.epochFlip t e)
        | none => d) (d.flipTo e)
      let d := { d with fab := { d.fab with rebuildAcks := d.fabDevices, flipped := true } }
      if d.fabDevices.isEmpty then d.endRebuild r.op else d
    else Dev.endRebuild { d with fab := { d.fab with flipAckAt := d.now } } r.op

/-- An acknowledgement with STATUS 0x00 pays one that is owed; a refused write is still owed (R376). -/
def Dev.takeRouteAck (d : Dev) (p : FabPkt) : Dev :=
  if p.status == 0#8 then { d with fab := { d.fab with rebuildAcks := eraseFirst (· == p.src) d.fab.rebuildAcks } } else d

/-- An acknowledgement: the master counts it, another device sends it on, up the tree or by table (R361, R376). -/
def routeAckEffect (n : LinkId) (sender : BitVec 64) (p : FabPkt) (fz : Fuse) (d : Dev) : Dev :=
  if !d.trusted n then d.mgmtRefuse [n.val]
  else if !pktWellFormed p || mgCode p != 6 then d.dropMalformed p
  else if d.isMaster && (mgTree p == 1 || d.isMine p) then
    (d.takeRouteAck p).stepRebuild
  else if mgTree p == 1 then (d.record sender n).passTree d.fab.parent p.hops fun h => .packet { p with hops := h }
  else if d.mgMine fz.serial p then d
  else d.mgForward p

/-- ROUTE_ACK (R376). -/
def execRouteAck (n : LinkId) (sender : BitVec 64) (p : FabPkt) (st : State) : Host.Outcome State Fault Refusal :=
  onEvent st (fun d => d.running && (d.link n).state == .up && sender != 0#64) fun fz d =>
    routeAckEffect n sender p fz (d.freeFlits n 4)

/-! ### Barrier packets (R258, R391) -/

/-- A barrier packet is dropped and a fabric event is posted (R258). -/
def Dev.dropBar (d : Dev) (p : FabPkt) : Dev := d.mgmtRefuse [p.src.toNat, mgCode p]

/-- Physical barrier of a packet: the logical number in the block of the brand's paddock (R391). -/
def Dev.barOf (d : Dev) (k : PadId) (p : FabPkt) : Option BarId :=
  (d.pad k).bind fun q =>
    if mgByte p 4 < q.block.barCount then finOf 256 (q.block.barBase + mgByte p 4) else none

/-- A barrier packet that passes its general checks, and its barrier. -/
def Dev.barPacket (d : Dev) (n : LinkId) (p : FabPkt) (code : Nat) (f : PadId → BarId → Dev → Dev) : Dev :=
  let d := d.takePkt n p
  if !pktWellFormed p || mgCode p != code || p.len != 0#7 then d.dropMalformed p
  else match d.brandPad p.brand with
    | none => d.rejectBrand p
    | some k => match d.barOf k p with
      | none => d.dropBar p
      | some b => if (d.bar b).brand != p.brand || !(d.bar b).spanning then d.dropBar p else f k b d

/-- A child's arrival: one of a device outside the child list is dropped; a barrier that is disabled overruns the paddock,
and one that arrives twice in an episode or carries the tag E − 1 overruns the barrier; an arrival with the tag E is
counted, unless an overrun holds the episode (R254, R255, R258, R268). -/
def arriveEffect (k : PadId) (p : FabPkt) (b : BarId) (d : Dev) : Dev :=
  let q := d.bar b
  let tag := mgByte p 5 % 4
  if !((d.children b).contains p.src) then d.dropBar p
  else if !q.enabled then d.overrun k b
  else if q.children.contains p.src then (if q.stuck then d.dropBar p else (d.dropBar p).overrunBar b)
  else if q.stuck then d
  else if tag == (q.episode - 1).toNat then d.overrunBar b
  else if tag != q.episode.toNat then d
  else
    (d.modBar b fun q => { q.setState 16 8 (q.arrivedChildren + 1) with children := q.children ++ [p.src] }).checkBar b

/-- The parent's release of episode E + 1 releases the barrier, unless an overrun holds the episode (R255, R258). -/
def fabReleaseEffect (_ : PadId) (p : FabPkt) (b : BarId) (d : Dev) : Dev :=
  let q := d.bar b
  if !q.hasParent || p.src.toNat != q.parent || mgByte p 5 % 4 != (q.episode + 1).toNat then d.dropBar p
  else if q.stuck then d
  else d.releaseBar b

/-- A barrier packet stands at the device: on a trusted link, or from the device itself (R359, R389). -/
def barPktEffect (n : LinkId) (p : FabPkt) (code : Nat) (f : PadId → FabPkt → BarId → Dev → Dev)
    (d : Dev) : Dev :=
  if !d.trusted n && !d.fab.loop.contains p then (d.takePkt n p).mgmtRefuse [n.val]
  else d.barPacket n p code fun k => f k p

/-- BARRIER_ARRIVE (R391). -/
def execFabBarrierArrive (n : LinkId) (p : FabPkt) (st : State) : Host.Outcome State Fault Refusal :=
  onEvent st (fun d => d.hasPkt n p && d.isMine p) fun _ => barPktEffect n p 8 arriveEffect

/-- BARRIER_RELEASE (R391). -/
def execFabBarrierRelease (n : LinkId) (p : FabPkt) (st : State) : Host.Outcome State Fault Refusal :=
  onEvent st (fun d => d.hasPkt n p && d.isMine p) fun _ => barPktEffect n p 9 fabReleaseEffect

end Sys2Proof.Machine
end

