-- ==== Sys2Proof/Machine/Keys.lean ====
section
/-!
DEFINITION. Identity (R453 to R458): key IDs, the device's keys and certificates, certificate chains, and the check of a
peer's chain. The cryptographic functions are the uninterpreted ones of Config.
-/
namespace Sys2Proof.Machine

/-- The bytes of an ASCII text. -/
def ascii (s : String) : Bytes := s.toList.map fun c => BitVec.ofNat 8 c.toNat

/-! ### Keys (R453, R454) -/

/-- The key ID of a public key. -/
def keyId (key : Bytes) : Bytes := Config.shake256 32 key

def devidSeed : Bytes := Config.shake256 64 (ascii "FLEVER-DEVID-1" ++ Config.uds)

def fwidSeed (fwDigest : Bytes) (fwSvn : Word) (epoch : BitVec 32) : Bytes :=
  Config.shake256 64 (ascii "FLEVER-FWID-1" ++ Config.uds ++ fwDigest ++ leBytes 4 fwSvn.toNat ++ leBytes 4 epoch.toNat)

def kemSeed (epoch : BitVec 32) : Bytes :=
  Config.shake256 64 (ascii "FLEVER-KEM-1" ++ Config.uds ++ leBytes 4 epoch.toNat)

/-- The seed of the device's FWID key (R453, R455). -/
def Dev.fwid (d : Dev) (fz : Fuse) : Bytes := fwidSeed d.ym.fwDigest d.ym.fwSvn fz.ownerEpoch

/-- The device has a KEM key, of the current owner epoch, only in PROVISIONED (R454). -/
def Fuse.kemId (fz : Fuse) : Option Bytes :=
  if fz.lifecycle == .provisioned then some (keyId (Config.kemPublic (kemSeed fz.ownerEpoch))) else none

/-! ### Certificates (R456) -/

/-- KEY_LEN rounded up to a multiple of 8. -/
def certP (alg : Nat) : Nat := if alg == 2 then 1568 else 1800
def certKeyLen (alg : Nat) : Nat := if alg == 2 then 1568 else 1793
def certLen (alg : Nat) : Nat := 192 + certP alg + 1280

/-- Bytes 0 to 191 + P of a certificate of this device. -/
def certBody (kind alg : Nat) (serial : BitVec 64) (issuer fwDigest : Bytes) (svn : Nat) (epoch : Nat)
    (owner : Bytes) (life : Nat) (key : Bytes) : Bytes :=
  [0x46#8, 0x4C#8, 0x43#8, 0x54#8] ++ leBytes 2 1 ++ leBytes 1 kind ++ leBytes 1 alg ++ leBytes 2 (certKeyLen alg)
    ++ leBytes 2 0 ++ leBytes 4 (certLen alg) ++ leBytes 8 serial.toNat ++ padTo 32 issuer ++ padTo 64 fwDigest
    ++ leBytes 4 svn ++ leBytes 4 epoch ++ padTo 32 owner ++ leBytes 1 life ++ leBytes 31 0 ++ padTo (certP alg) key

/-- A certificate signed by DEVID. -/
def certByDevid (body : Bytes) : Bytes := body ++ padTo 1280 (Config.falconSign devidSeed body)

/-- OWNER_ID as certificates carry it (R456). -/
def Fuse.ownerField (fz : Fuse) : Bytes := if fz.lifecycle == .provisioned then fz.ownerId.getD [] else []

def Dev.fwidCert (d : Dev) (fz : Fuse) : Bytes :=
  certByDevid (certBody 3 1 fz.serial (keyId (Config.falconPublic devidSeed)) d.ym.fwDigest d.ym.fwSvn.toNat
    fz.ownerEpoch.toNat fz.ownerField fz.lifecycle.code (Config.falconPublic (d.fwid fz)))

/-- The KEM certificate that DEVID signs when PROVISION finishes (R455). -/
def kemCertOf (fz : Fuse) (epoch : BitVec 32) (owner : Bytes) : Bytes :=
  certByDevid (certBody 4 2 fz.serial (keyId (Config.falconPublic devidSeed)) [] 0 epoch.toNat owner 2
    (Config.kemPublic (kemSeed epoch)))

/-! ### Chains (R457) -/

def chainOf (certs : List Bytes) : Bytes :=
  let body := certs.flatten
  [0x46#8, 0x4C#8, 0x43#8, 0x48#8] ++ leBytes 1 certs.length ++ leBytes 3 0 ++ leBytes 4 (16 + body.length)
    ++ leBytes 4 0 ++ body

/-- An MFG_CA certificate of the boot ROM: KIND 1, signed by the Yeloham root (R456). -/
def romCa (i : Nat) : Bytes :=
  certBody 1 1 0#64 (keyId Config.romRootKey) [] 0 0 [] 0 (Config.mfgCaKey i) ++ padTo 1280 (Config.mfgCaSignature i)

/-- The MFG_CA certificates of the boot ROM, 1 to 4 of them (R457). -/
def romCas : List Bytes := (List.range (Config.mfgCaLast.val + 1)).map romCa

/-- The one that signed the device's DEVID certificate: the device's own chain begins with it (R457). -/
def devidCa : Bytes := romCa (Config.devidIssuer.val % (Config.mfgCaLast.val + 1))

def certKey (c : Bytes) : Bytes := sliceAt c 192 (certKeyLen (fieldAt c 7 1))
def certIssuer (c : Bytes) : Bytes := sliceAt c 24 32

def issuingCa (c : Bytes) : Option Bytes := romCas.find? fun ca => keyId (certKey ca) == certIssuer c

/-- The DEVID certificate: KIND 2, the device's serial and its DEVID key, signed by an MFG_CA key (R453, R456). -/
def Fuse.devidCert (fz : Fuse) : Bytes :=
  certBody 2 1 fz.serial (keyId (certKey devidCa)) [] 0 0 [] 0 (Config.falconPublic devidSeed) ++
    padTo 1280 Config.devidSignature

/-- The full chain. -/
def Dev.fullChain (d : Dev) (fz : Fuse) : Bytes :=
  chainOf ([devidCa, fz.devidCert, d.fwidCert fz] ++ (if fz.lifecycle == .provisioned then [fz.store.kemCert] else []))

/-- The link chain. -/
def Dev.linkChain (d : Dev) (fz : Fuse) : Bytes := chainOf [fz.devidCert, d.fwidCert fz]

/-! ### The check of a peer's link chain (R458) -/

/-- A certificate is well formed, with no reserved byte set. -/
def certFormed (c : Bytes) : Bool :=
  let alg := fieldAt c 7 1
  let kind := fieldAt c 6 1
  sliceAt c 0 4 == [0x46#8, 0x4C#8, 0x43#8, 0x54#8] && fieldAt c 4 2 == 1 && 1 ≤ kind && kind ≤ 4 &&
    (alg == 1 || alg == 2) && fieldAt c 8 2 == certKeyLen alg && fieldAt c 10 2 == 0 && fieldAt c 12 4 == certLen alg &&
    c.length == certLen alg && (kind != 1 || fieldAt c 16 8 == 0) &&
    (kind == 3 || (allZero (sliceAt c 56 64) && fieldAt c 120 4 == 0)) &&
    (kind == 3 || kind == 4 || (fieldAt c 124 4 == 0 && allZero (sliceAt c 128 32) && fieldAt c 160 1 == 0)) &&
    allZero (sliceAt c 161 31) && allZero (sliceAt c (192 + certKeyLen alg) (certP alg - certKeyLen alg))

/-- The signature of a certificate verifies under a key. -/
def certSigned (key c : Bytes) : Bool :=
  let n := 192 + certP (fieldAt c 7 1)
  Config.falconVerify key (c.take n) (c.drop n)

/-- The FWID certificate of a link chain. -/
def chainFwid (chain : Bytes) : Bytes := sliceAt chain 3288 3272

/-- Steps 1 to 6 of R458. -/
def Dev.chainOk (d : Dev) (fz : Fuse) (peer : BitVec 64) (chain : Bytes) : Bool :=
  let devid := sliceAt chain 16 3272
  let fwid := chainFwid chain
  let policy := (d.setting 0x110).getD 1
  let minSvn := (d.setting 0x111).getD 0
  chain.length == 6560 && sliceAt chain 0 4 == [0x46#8, 0x4C#8, 0x43#8, 0x48#8] && fieldAt chain 4 1 == 2 &&
    fieldAt chain 5 3 == 0 && fieldAt chain 8 4 == 6560 && fieldAt chain 12 4 == 0 &&
    certFormed devid && certFormed fwid &&
    fieldAt devid 6 1 == 2 && ((issuingCa devid).map fun ca => certSigned (certKey ca) devid).getD false &&
    fieldAt fwid 6 1 == 3 && certIssuer fwid == keyId (certKey devid) && certSigned (certKey devid) fwid &&
    fieldAt devid 16 8 == peer.toNat && fieldAt fwid 16 8 == peer.toNat &&
    fieldAt fwid 160 1 == 2 && minSvn ≤ fieldAt fwid 120 4 &&
    (policy != 1 || some (sliceAt fwid 128 32) == fz.ownerId)

end Sys2Proof.Machine
end

