-- ==== Sys2Proof/Machine/ImageChecks.lean ====
section
/-!
DEFINITION. The checks of the image loader (R287 to R300, R303) as functions of the image's bytes: layout, header,
section table, keys, section bodies, the rules of one tile and the rules across tiles. A check that fails answers the
code of R306; where a stage has several codes, the byte that decides between them (R299).
-/
namespace Sys2Proof.Machine

/-- A condition that fails at a byte with a code. -/
def failAt (ok : Bool) (byte code : Nat) : List (Nat × Nat) := if ok then [] else [(byte, code)]

/-- The failure of lowest byte; the first of those at one byte (R299). -/
def lowest : List (Nat × Nat) → Option (Nat × Nat)
  | [] => none
  | x :: xs => match lowest xs with
    | some y => if y.1 < x.1 then some y else some x
    | none => some x

/-! ### Layout (R287 to R291) -/

def imTiles (img : Bytes) : Nat := fieldAt img 28 1
def imSealed (img : Bytes) : Bool := bitOf (fieldAt img 29 1) 0
def imHitch (img : Bytes) : Bool := bitOf (fieldAt img 29 1) 1
def imSections (img : Bytes) : Nat := fieldAt img 30 2
def imSvn (img : Bytes) : Nat := fieldAt img 32 4
def imBarriers (img : Bytes) : Nat := fieldAt img 38 1
def imWorks (img : Bytes) : Nat := fieldAt img 40 2
def imJob (img : Bytes) : Bytes := sliceAt img 48 32

/-- Offsets of the wrapped key block, the signature block and the section bodies. -/
def keyOff (img : Bytes) : Nat := 256 + 64 * imSections img
def sigOff (img : Bytes) : Nat := keyOff img + (if imSealed img then 1664 else 0)
def bodiesOff (img : Bytes) : Nat := sigOff img + 1408

/-- A section table entry (R289). -/
structure Sec where
  off : Nat
  len : Nat
  kind : Nat
  tile : Nat
  idx : Nat
  deriving DecidableEq, Repr

def secOf (img : Bytes) (i : Nat) : Sec :=
  let b := 256 + 64 * i
  { off := fieldAt img b 4, len := fieldAt img (b + 4) 4, kind := fieldAt img (b + 8) 1, tile := fieldAt img (b + 9) 1,
    idx := fieldAt img (b + 10) 2 }

def secsOf (img : Bytes) : List Sec := (List.range (imSections img)).map (secOf img)

/-- A length rounded up to a multiple of 64. -/
def pad64 (n : Nat) : Nat := 64 * ceilDiv n 64

/-! ### Stage 1: the header (R288, R298, R470) -/

/-- What stage 1 knows of the device and the paddock. -/
structure HeaderEnv where
  variantL : Bool
  serial : BitVec 64
  inHitch : Bool
  tiles : Nat
  bars : Nat
  works : Nat
  sealed_ : Bool
  /-- IMAGE_BYTES of the command, or the sub-image's length in its container. -/
  bytes : Nat

def headerFails (e : HeaderEnv) (img : Bytes) : List (Nat × Nat) :=
  let t := imTiles img
  let v := fieldAt img 19 1
  let flags := fieldAt img 29 1
  let n := fieldAt img 8 8
  let hc := fieldAt img 36 1
  let hp := fieldAt img 37 1
  failAt (sliceAt img 0 4 == [0x46#8, 0x4C#8, 0x45#8, 0x56#8]) 0 0x5003 ++
  failAt (fieldAt img 4 2 == 1) 4 0x5003 ++
  failAt (fieldAt img 6 2 == 0) 6 0x5003 ++
  failAt (n % 64 == 0 && n ≤ 268435456 && n == e.bytes) 8 0x5003 ++
  failAt (fieldAt img 16 2 == 0x9840) 16 0x5002 ++
  failAt (fieldAt img 18 1 == 0xA1) 18 0x5002 ++
  failAt (1 ≤ v && v ≤ 3) 19 0x5003 ++
  failAt (bitOf v (if e.variantL then 1 else 0)) 19 0x5002 ++
  failAt (fieldAt img 20 8 == 0 || fieldAt img 20 8 == e.serial.toNat) 20 0x5002 ++
  failAt (t == e.tiles) 28 0x5007 ++
  failAt (flags < 4) 29 0x5003 ++
  failAt (imHitch img == e.inHitch) 29 0x5002 ++
  failAt (imSealed img || !e.sealed_) 29 0x8001 ++
  failAt ((if imBarriers img == 0 then 2 else 3) + 3 * t ≤ imSections img && imSections img ≤ 4096) 30 0x5003 ++
  failAt (if imHitch img then hc == 2 || hc == 4 else hc == 0) 36 0x5003 ++
  failAt (if imHitch img then hp < hc else hp == 0) 37 0x5003 ++
  failAt (imBarriers img ≤ 240 && imBarriers img ≤ e.bars) 38 0x5003 ++
  failAt (fieldAt img 39 1 == 0) 39 0x5003 ++
  failAt (imWorks img ≤ 256 && imWorks img ≤ e.works) 40 0x5003 ++
  failAt (fieldAt img 42 6 == 0) 42 0x5003 ++
  failAt (allZero (sliceAt img 80 176)) 80 0x5003

/-! ### Stage 2: the section table (R289 to R291, R307) -/

/-- Plaintext length of a section kind (R290). GEOMETRY's pass count is checked with its body. -/
def kindLenOk (tiles bars kind n : Nat) : Bool :=
  let times (u k : Nat) : Bool := n % u == 0 && 1 ≤ n / u && n / u ≤ k
  match kind with
  | 0x01 => times 64 4096
  | 0x02 => times 16 4096
  | 0x03 => times 128 256
  | 0x04 => times 32 64
  | 0x05 => times 16 1024
  | 0x06 | 0x07 => true
  | 0x08 => n == 576
  | 0x10 => n % 4 == 0 && 8 + 4 * tiles ≤ n && n ≤ 8 + 4 * (tiles + 47)
  | 0x11 => n == 2 * tiles
  | 0x12 => n == 8 * bars
  | _ => false

/-- INDEX of a section kind. -/
def kindIdxOk (kind idx : Nat) : Bool :=
  match kind with
  | 0x06 => idx ≤ 1023
  | 0x07 => idx ≤ 63
  | _ => idx == 0

/-- The order of R291: image-wide kinds first, then tile, kind, index. -/
def secKey (s : Sec) : Nat := if 0x10 ≤ s.kind then s.kind - 0x10 else 16 + (s.tile * 16 + s.kind) * 65536 + s.idx

def risingNat : List Nat → Bool
  | [] => true
  | [_] => true
  | a :: b :: l => a < b && risingNat (b :: l)

def tableOk (img : Bytes) : Bool :=
  let secs := secsOf img
  let t := imTiles img
  let extra := if imSealed img then 16 else 0
  let one (s : Sec) (i : Nat) : Bool :=
    extra ≤ s.len && kindLenOk t (imBarriers img) s.kind (s.len - extra) && kindIdxOk s.kind s.idx &&
      (if 0x10 ≤ s.kind then s.tile == 0 else s.tile < t) && allZero (sliceAt img (256 + 64 * i + 12) 20)
  let has (n k : Nat) : Bool := secs.any fun s => s.tile == n && s.kind == k
  let area (n : Nat) : Nat := sumNat ((secs.filter fun s => s.tile == n && (s.kind == 6 || s.kind == 7)).map fun s => s.len - extra)
  (secs.zipIdx.all fun p => one p.1 p.2) && risingNat (secs.map secKey) &&
    (secs.map (·.kind)).take (if imBarriers img == 0 then 2 else 3) == (if imBarriers img == 0 then [0x10, 0x11] else [0x10, 0x11, 0x12]) &&
    (imBarriers img != 0 || !secs.any fun s => s.kind == 0x12) &&
    ((List.range t).all fun n => has n 1 && has n 2 && has n 8 && area n ≤ 2621440) &&
    (secs.foldl (fun (a : Option Nat) s => a.bind fun o => if s.off == o then some (o + pad64 s.len) else none)
      (some (bodiesOff img))) == some (fieldAt img 8 8)

/-! ### Stages 3 and 4 (R295, R296, R458 to R461, R470) -/

/-- DIGEST of the image: SHAKE256 over every byte before the signature block. -/
def imDigest (img : Bytes) : Bytes := Config.shake256 64 (img.take (sigOff img))

/-- Failures of the wrapped key block. -/
def keyFails (fz : Fuse) (img : Bytes) : List (Nat × Nat) :=
  let k := keyOff img
  let known := fz.kemId == some (sliceAt img (k + 1568) 32)
  failAt (!known || (Config.kemDecaps (kemSeed fz.ownerEpoch) (sliceAt img k 1568)).isSome) k 0x5006 ++
  failAt known (k + 1568) 0x5006 ++
  failAt (allZero (sliceAt img (k + 1600) 64)) (k + 1600) 0x5003

/-- The image key of a sealed image. -/
def imKey (fz : Fuse) (img : Bytes) : Option Bytes :=
  (Config.kemDecaps (kemSeed fz.ownerEpoch) (sliceAt img (keyOff img) 1568)).map fun ss =>
    Config.shake256 32 (ss ++ imDigest img)

/-- The signer named in the image: its slot, where the slot holds its key. -/
def Fuse.signerSlot (fz : Fuse) (id : Bytes) : Option Nat :=
  (List.range 8).find? fun i => ((vgetN fz.store.signers i none).map fun k => keyId k == id).getD false

/-- SIGNER_CFG in force (R461). -/
def Dev.signerCfg (d : Dev) (i : Nat) : Nat := (d.setting (0x100 + i)).getD 0

/-- SVN is below the floor of the signer named in the image (R298). -/
def Dev.svnLow (d : Dev) (fz : Fuse) (img : Bytes) : Bool :=
  match fz.signerSlot (sliceAt img (sigOff img) 32) with
  | some i => imSvn img < d.signerCfg i / 2 ^ 32
  | none => false

/-- Failures of the signature block. -/
def Dev.sigFails (d : Dev) (fz : Fuse) (img : Bytes) : List (Nat × Nat) :=
  let o := sigOff img
  let id := sliceAt img o 32
  let slot := fz.signerSlot id
  let cfg := (slot.map d.signerCfg).getD 0
  let key := (slot.bind fun i => vgetN fz.store.signers i none).getD []
  failAt (slot.isSome && bitOf cfg 0) o 0x5004 ++
  failAt (imSealed img || bitOf cfg 1) o 0x5004 ++
  failAt (sliceAt img (o + 32) 64 == imDigest img) (o + 32) 0x5005 ++
  failAt (Config.falconVerify key (sliceAt img o 96) (sliceAt img (o + 96) 1280)) (o + 96) 0x5004 ++
  failAt (allZero (sliceAt img (o + 1376) 32)) (o + 1376) 0x5003

/-! ### Stage 5: bodies (R290, R292 to R294) -/

/-- Pieces of `n` bytes. -/
def pieces (n : Nat) (bs : Bytes) : List Bytes := (List.range (bs.length / n)).map fun i => sliceAt bs (n * i) n

/-- A phase table entry (R217). -/
def phaseOk (count : Nat) (c : Bytes) : Bool :=
  let x := leNat c
  phNext x < count && zeroFld x 33 31 && fld x 64 16 ≤ 1023 && zeroFld x 80 48 &&
    (List.range 14).all (fun i => zeroFld x (128 + 16 * i + 12) 3) && zeroFld x 352 160

/-- The arguments of a step, as far as one step shows them (R219, R249, R250, R253, R264, R265). -/
def stepOk (bars works : Nat) (c : Bytes) : Bool :=
  let x := leNat c
  let a := stA16 x
  let b := stA32 x
  let e := stA64 x
  let op := stOp x
  let count : Bool := 1 ≤ b && b ≤ 2 ^ 32 - 2
  let addr : Bool := b % 64 == 0 && b + 64 ≤ spadSize
  zeroFld x 11 5 && (op == 0x09 || op == 0x0A || op == 0x0B || op == 0x0C || stXd x == 0) &&
  (match op with
   | 0x00 => a == 0 && b == 0 && e == 0
   | 0x01 => a ≤ 255 && b < 128 && e == 0 &&
      (match isTarget x with
       | 0 => isUnit x == 0
       | 3 => (17 ≤ isUnit x && isUnit x ≤ 24) || isUnit x == 31
       | _ => 17 ≤ isUnit x && isUnit x ≤ 24)
   | 0x02 => a ≤ 63 && b == 0 && e == 0
   | 0x03 => 1 ≤ b && b ≤ 1024 && a + b ≤ 1024 && e == 0
   | 0x04 => a ≤ 47 && count && e == 0
   | 0x05 => a ≤ 47 && count && (if bitOf e 63 then zeroFld e 6 57 else e == 0)
   | 0x06 => a ≤ 63 && addr && e == 0
   | 0x07 => a ≤ 31 && addr && e == 0
   | 0x08 => a < bars && b == 0 && e == 0
   | 0x09 => a < works && 1 ≤ b && e < 4096
   | 0x0A => a ≤ 63 && zeroFld b 3 5 && b < 65536 && fld b 8 8 < works && e == 0
   | 0x0B => srcOk true a && b == 0 && (a == 0x70 || e == 0)
   | 0x0C => a == 0 && b == 0
   | 0x0D => a < 4096 && b < 8
   | 0x0E => a < 4096 && b == 0 && e == 0
   | 0x0F => a ≤ 63 && b == 0 && e == 0
   | 0x10 => a ≤ 15 && b < 8 && e == 0
   | 0x1F => a == 0 && b == 0 && e == 0
   | _ => false)

/-- A plan record, but for its template (R231). -/
def planOk (c : Bytes) : Bool :=
  let p := leNat c
  plMask p != 0 && zeroFld p 14 2 && srcOk false (plM p) && srcOk false (plN p) && srcOk false (plK p) && zeroFld p 40 24 &&
    plMax p 0 ≤ dimMax && plMax p 1 ≤ dimMax && plMax p 2 ≤ dimMax && zeroFld p 170 6 && plFirst p + plCount p ≤ 1024 &&
    plCount p ≤ 1024 && zeroFld p 187 69 && (!bitOf (plMask p) 5 || plMask p == 32)

/-- A patch record (R236). -/
def patchOk (c : Bytes) : Bool :=
  let r := leNat c
  let v := paValue r
  (v ≤ 0x0E || (0x80 ≤ v && v ≤ 0xE1 && srcOk false (v - 0x80))) && zeroFld r 44 20 &&
    (if paDesc r == 0xFF then paUnit r ≤ 24 else 1 ≤ paWidth r && paWidth r ≤ 40 && paBit r + paWidth r ≤ 768)

/-- A region descriptor (R167). -/
def regionOk (x : Nat) : Bool :=
  zeroFld x 0 9 && zeroFld x 25 7 && fld x 32 16 ≤ 49152 && fld x 48 2 ≤ 2 && zeroFld x 50 78 &&
    fld x 0 25 + 512 * fld x 32 16 ≤ spadSize

/-- Sources of a link switch word are not reserved (R52). -/
def switchOk (w : Nat) : Bool := (List.range 4).all (fun k => fld w (3 * k) 3 ≤ 5) && zeroFld w 16 16

/-- A configuration record on its own (R292). -/
def recOk (body : Bytes) (r : CfgRec) : Bool :=
  let h := fieldAt body r.at_ 8
  let n := r.payload.length
  zeroFld h 22 10 && zeroFld h 48 16 &&
  (match r.rtype with
   | 1 => r.target ≤ 15 && r.entry == 0 && n == 16 && regionOk (leNat r.payload)
   | 2 => 1 ≤ r.target && r.target ≤ 16 && n % 256 == 0 && 1 ≤ n / 256 && r.entry + n / 256 ≤ 64
   | 3 => r.target ≤ 24 && r.entry == 0 && n == 8 && switchOk (fieldAt r.payload 0 4) && fieldAt r.payload 4 4 == 0
   | 4 => r.target ≤ 24 && n == 8 && switchOk (fieldAt r.payload 0 4) && fieldAt r.payload 4 4 == 0
   | 5 =>
     let c := leNat r.payload
     r.entry == 0 &&
       (if r.target == 0 then n == 32 && mxuRecOk c
        else if r.target ≤ 16 then n == 128 && vxuRecOk c
        else r.target ≤ 24 && n == 32 && msuRecOk c)
   | _ => false)

/-- Records come in ascending RTYPE, TARGET, ENTRY; a CONSTANT's entries do not overlap the next one's (R292). -/
def recsRise : List CfgRec → Bool
  | [] => true
  | [_] => true
  | a :: b :: l =>
    let same := a.rtype == b.rtype && a.target == b.target
    (if same then a.entry + (if a.rtype == 2 then a.payload.length / 256 else 1) ≤ b.entry && (a.rtype == 2 || a.rtype == 4)
     else a.rtype < b.rtype || (a.rtype == b.rtype && a.target < b.target)) && recsRise (b :: l)

def cfgBodyOk (partial_ : Bool) (body : Bytes) : Bool :=
  match parseRecs body.length 0 body with
  | none => false
  | some rs =>
    rs.all (recOk body) && recsRise rs &&
      (!partial_ || (rs.all (fun r => r.rtype == 3 || r.rtype == 5) &&
        rs.all fun r => r.rtype != 5 ||
          rs.any fun q => q.rtype == 3 && some q.target == (finOf 25 r.target).map fun u => (unitPos u).val))

/-- TILE_CHAN and TILE_QUEUE_CFG entries (R261, R263). -/
def channelsOk (body : Bytes) : Bool :=
  ((List.range 64).all fun i => let x := fieldAt body (8 * i) 8; zeroFld x 14 2 && zeroFld x 19 13 && zeroFld x 46 2) &&
    (List.range 32).all fun i => fieldAt body (512 + 2 * i) 2 < 512

def geometryOk (tiles : Nat) (body : Bytes) : Bool :=
  let p := fieldAt body 1 1
  let cells := pieces 4 (body.drop 8)
  fieldAt body 0 1 == tiles && p ≤ 47 && fieldAt body 2 6 == 0 && body.length == 8 + 4 * (tiles + p) &&
    (cells.all fun c => fieldAt c 0 1 ≤ 5 && fieldAt c 1 1 ≤ 7) &&
    ((cells.take tiles).all fun c => fieldAt c 2 2 == 0) && ((cells.drop tiles).all fun c => fieldAt c 3 1 == 0) &&
    decide (cells.map fun c => fieldAt c 0 2).Nodup

def barriersOk (tiles : Nat) (body : Bytes) : Bool :=
  (pieces 8 body).all fun c => 1 ≤ fieldAt c 0 2 && fieldAt c 0 2 ≤ 14 * tiles && fieldAt c 2 1 ≤ 1 && fieldAt c 3 5 == 0

/-- The checks that R290 names for a body's kind. -/
def kindOk (img : Bytes) (kind : Nat) (body : Bytes) : Bool :=
  match kind with
  | 0x01 => (pieces 64 body).all (phaseOk (body.length / 64))
  | 0x02 => (pieces 16 body).all (stepOk (imBarriers img) (imWorks img))
  | 0x03 => (pieces 128 body).all fun c => poolFormOk (leNat c)
  | 0x04 => (pieces 32 body).all planOk
  | 0x05 => (pieces 16 body).all patchOk
  | 0x06 => cfgBodyOk false body
  | 0x07 => cfgBodyOk true body
  | 0x08 => channelsOk body
  | 0x10 => geometryOk (imTiles img) body
  | 0x11 => true
  | 0x12 => barriersOk (imTiles img) body
  | _ => false

/-- Plaintext of the body at table position `i`; none where its tag fails (R296). -/
def bodyPlain (img : Bytes) (key : Option Bytes) (i : Nat) : Option Bytes :=
  let s := secOf img i
  let stored := sliceAt img s.off s.len
  if imSealed img then key.bind fun k =>
    Config.gcmOpen k (leBytes 4 i ++ leBytes 8 0) (sliceAt img (256 + 64 * i) 32) (stored.take (s.len - 16)) (stored.drop (s.len - 16))
  else some stored

/-- HOST of each pass entry of a GEOMETRY body (R293). -/
def passHosts (img geo : Bytes) : List Nat := (pieces 4 (geo.drop (8 + 4 * imTiles img))).map fun c => fieldAt c 2 1

/-- Every PASS_LINK record of a CONFIG body names a pass entry whose HOST is the tile that carries it (R292). GEOMETRY stands first in
the table (R291), so it has arrived before. -/
def passLinksOk (hosts : List Nat) (tile : Nat) (body : Bytes) : Bool :=
  (recsOf body).all fun (r : CfgRec) => r.rtype != 4 || hosts[r.entry]? == some tile

/-- Plaintext of the body at table position `i`, or the failure's code (R296, R298). -/
def bodyCheckOf (img : Bytes) (key : Option Bytes) (i : Nat) : Except Nat Bytes :=
  let s := secOf img i
  if Config.shake256 32 (sliceAt img s.off s.len) != sliceAt img (256 + 64 * i + 32) 32 then .error 0x5005
  else match bodyPlain img key i with
    | none => .error 0x5006
    | some p =>
      if !allZero (sliceAt img (s.off + s.len) (pad64 s.len - s.len)) || !kindOk img s.kind p then .error 0x5003
      else if s.kind == 6 && !passLinksOk (passHosts img ((bodyPlain img key 0).getD [])) s.tile p then .error 0x5003
      else .ok p

/-! ### The bank of a tile (R216, R307) -/

def words (w n : Nat) (bs : Bytes) : List (BitVec w) := (pieces n bs).map fun c => BitVec.ofNat w (leNat c)

/-- A body goes to its area of the bank. -/
def Bank.put (b : Bank) (kind idx : Nat) (bs : Bytes) : Bank :=
  match kind with
  | 0x01 => { b with phases := words 512 64 bs }
  | 0x02 => { b with steps := words 128 16 bs }
  | 0x03 => { b with pool := words 1024 128 bs }
  | 0x04 => { b with plans := words 256 32 bs }
  | 0x05 => { b with patches := words 128 16 bs }
  | 0x06 => { b with configs := setKey idx bs b.configs }
  | 0x07 => { b with partials := setKey idx bs b.partials }
  | 0x08 => { b with channels := bs }
  | _ => b

/-- The bank that a tile's verified bodies make, with its rank and the image's tag. -/
def imBank (img : Bytes) (bodies : List (Nat × Bytes)) (n : Nat) : Bank :=
  let secs := (secsOf img).zipIdx
  let body (i : Nat) : Bytes := (lookupNat i bodies).getD []
  let b := secs.foldl (fun (b : Bank) p => if p.1.kind < 0x10 && p.1.tile == n then b.put p.1.kind p.1.idx (body p.2) else b) {}
  { b with rank := BitVec.ofNat 16 (fieldAt (body 1) (2 * n) 2), tag := BitVec.ofNat 64 (fieldAt img (sigOff img + 32) 8) }

/-! ### Rules 1 to 4 of R53 -/

def swSrc (w k : Nat) : Nat := fld w (3 * k) 3
def swOut (w k : Nat) : Bool := swSrc w k != 0
def swIn (w k : Nat) : Bool := bitOf w (12 + k)

/-- Consumers of incoming side `k`. -/
def sideUsers (w c k : Nat) : Nat :=
  ((List.range 4).filter fun n => hdrInRate c n != 0 && hdrInSide c n == k).length +
    ((List.range 4).filter fun j => swSrc w j == k + 2).length

/-- Rules 1 to 3 at a position with link switch word `w` and unit header `c`. -/
def sidesOk (w c : Nat) : Bool :=
  (List.range 4).all fun k =>
    (swSrc w k != 1 || ((List.range 4).filter fun n => hdrOutRate c n != 0 && hdrOutSide c n == k).length == 1) &&
      swSrc w k != k + 2 && sideUsers w c k ≤ 1 && swIn w k == (sideUsers w c k == 1)

/-- Rule 4 between a position's side `k` and the position it faces. -/
def faceOk (w k w' : Nat) : Bool := swOut w k == swIn w' (oppSide k) && swIn w k == swOut w' (oppSide k)

/-- Position of the own patch one step out of side `k`. -/
def patchNext (p k : Nat) : Option Nat :=
  match k with
  | 0 => if 5 ≤ p then some (p - 5) else none
  | 1 => if p % 5 != 4 then some (p + 1) else none
  | 2 => if p < 20 then some (p + 5) else none
  | _ => if p % 5 != 0 then some (p - 1) else none

def posUnitN (p : Nat) : Nat := ((finOf 25 p).map fun q => (posUnit q).val).getD 0

/-- Rules 1 to 3 at every position and rule 4 inside the patch. -/
def patchRules (word cfg : Nat → Nat) : Bool :=
  (List.range 25).all fun p => sidesOk (word p) (cfg p) &&
    (List.range 4).all fun k => match patchNext p k with
      | some q => faceOk (word p) k (word q)
      | none => true

/-! ### Stage 6: one tile -/

/-- Phases that the run reaches, in the order of the NEXT chain (R263). -/
def chainFrom (b : Bank) : Nat → Nat → List Nat → List Nat
  | 0, _, seen => seen
  | fuel + 1, ph, seen =>
    if seen.contains ph || b.phases.length ≤ ph then seen
    else if phLast (b.phase ph) then seen ++ [ph]
    else chainFrom b fuel (phNext (b.phase ph)) (seen ++ [ph])

def Bank.chain (b : Bank) : List Nat := chainFrom b (b.phases.length + 1) 0 []

/-- The region descriptor that a phase writes. -/
def Bank.regionWrite (b : Bank) (ph r : Nat) : Option (BitVec 128) :=
  ((b.phaseRecs ph).find? fun (x : CfgRec) => x.rtype == 1 && x.target == r).map fun x => BitVec.ofNat 128 (leNat x.payload)

/-- The region descriptor in force in a phase: the one it writes, or the nearest earlier one of the chain. -/
def Bank.regionIn (b : Bank) (ph r : Nat) : Option (BitVec 128) :=
  match b.regionWrite ph r with
  | some x => some x
  | none => ((b.chain.takeWhile fun q => q != ph).filterMap fun q => b.regionWrite q r).getLast?

/-- A RING queue's region is a RECORD region in every phase of the chain, and phase 0 writes it (R263). DESIGN CHOICE, log entry 79:
a queue that is not ENABLED is not held to it. -/
def Bank.ringOk (b : Bank) (q : Nat) : Bool :=
  let cfg := fieldAt b.channels (512 + 2 * q) 2
  if !bitOf cfg 0 || !bitOf cfg 1 then true
  else
    let r := fld cfg 2 4
    (b.regionWrite 0 r).isSome && b.chain.all fun ph =>
      ((b.regionIn ph r).map fun x => fld x.toNat 48 2 == 2 && fld x.toNat 32 16 != 0).getD false

/-- The region of an MSU that its configuration `c` puts in ELASTIC mode is a STREAM region in the phase (R189). -/
def Bank.elasticOk (b : Bank) (ph c : Nat) : Bool :=
  msuMode c != 2 ||
    ((b.regionIn ph (fld c 131 4)).map fun x => fld x.toNat 48 2 == 1 && fld x.toNat 32 16 != 0).getD false

/-- A PARTIAL body in a phase: rules 1 to 3 at what it writes, rule 4 in the patch, border sides as the phase has them, and STREAM
regions of ELASTIC units (R189, R228). -/
def Bank.partialFits (b : Bank) (ph idx : Nat) : Bool :=
  match lookupNat idx b.partials with
  | none => false
  | some body =>
    let rs := b.phaseRecs ph
    let ps := recsOf body
    let listed (p : Nat) : Bool := ps.any fun (r : CfgRec) => r.rtype == 3 && r.target == p
    let word (p : Nat) : Nat := if listed p then linkWord ps p else linkWord rs p
    let cfg (p : Nat) : Nat :=
      let u := posUnitN p
      if ps.any fun (r : CfgRec) => r.rtype == 5 && r.target == u then unitCfg ps u else unitCfg rs u
    patchRules word cfg && ((List.range 25).all fun p => posUnitN p < 17 || b.elasticOk ph (cfg p)) &&
      (List.range 25).all fun p => (List.range 4).all fun k =>
      (patchNext p k).isSome || (swOut (word p) k == swOut (linkWord rs p) k && swIn (word p) k == swIn (linkWord rs p) k)

/-- What the descriptor of a pool entry asks of its region and of the striped space, in a phase (R184, R186, R198, R215). -/
def Bank.issueFits (b : Bank) (ph : Nat) (striped : Bool) (x : Nat) : Bool :=
  let e := ((b.pool[stA16 x]?).map (·.toNat)).getD 0
  let regs (r : Nat) : Region := { desc := (b.regionIn ph r).getD 0#128 }
  stA16 x < b.pool.length &&
    (match isTarget x with
     | 0 => poolKind e == 0
     | 3 => poolKind e == 2 &&
        (if isUnit x == 31 then true
         else if b.modeIn ph (isUnit x) == 3 then striped || !bitOf (poolDesc e) 3
         else moverRegionOk (poolDesc e) regs && (striped || !bitOf (poolDesc e) 1))
     | t => poolKind e == 1 && patternRegionOk (poolDesc e) regs && (t == 1 || pdIlv (poolDesc e) ≤ 1) &&
        patternPortsOk (b.cfgIn ph (isUnit x)) (t == 2) (poolDesc e))

/-- The rules that depend on the phase that runs a step (R219, R228, R236). -/
def Bank.stepFits (b : Bank) (ph : Nat) (striped : Bool) (x : Nat) : Bool :=
  match stOp x with
  | 0x01 => b.issueFits ph striped x
  | 0x02 => stA16 x < b.plans.length
  | 0x03 => stA16 x + stA32 x ≤ b.patches.length &&
      (b.patchList (stA16 x) (stA32 x)).all fun r => paValue r.2 == 0x0E || 0x80 ≤ paValue r.2
  | 0x0F => b.partialFits ph (stA16 x)
  | _ => true

/-- Every step of the store: the records that it names exist, an ISSUE's pool entry is of its target's KIND, a SEND's channel
is VALID and a RECV's queue is in QUEUE mode (R219, R261, R263). DEDUCED, log entry 64: none of this depends on the list that
runs the step, so it is asked of every step. -/
def Bank.stepNames (b : Bank) (x : Nat) : Bool :=
  match stOp x with
  | 0x01 =>
    let k := poolKind (((b.pool[stA16 x]?).map (·.toNat)).getD 0)
    stA16 x < b.pool.length && k == (match isTarget x with | 0 => 0 | 3 => 2 | _ => 1)
  | 0x02 => stA16 x < b.plans.length
  | 0x03 => stA16 x + stA32 x ≤ b.patches.length
  | 0x06 => bitOf (fieldAt b.channels (8 * stA16 x) 8) 0
  | 0x07 => fieldAt b.channels (512 + 2 * stA16 x) 2 % 4 == 1
  | _ => true

/-- A plan's template is a blocked MXU step with ACC_BASE = 0, and its patches exist (R231). -/
def Bank.planFits (b : Bank) (p : Nat) : Bool :=
  let e := ((b.pool[plMxu p]?).map (·.toNat)).getD 0
  plMxu p < b.pool.length && poolKind e == 0 && mdBlocked e && mdAccBase e == 0 && plFirst p + plCount p ≤ b.patches.length

/-- The rules that relate the sections of one tile. -/
def Bank.tileOk (b : Bank) (striped : Bool) : Bool :=
  let lists (ph : Nat) : List Nat := ((phCtxs (b.phase ph)).flatMap fun c => b.reach (phEntry (b.phase ph) c)).dedup
  ((List.range b.phases.length).all fun ph =>
    (b.configs.any fun c => c.1 == phSection (b.phase ph)) &&
      ((List.range 8).all fun m => b.elasticOk ph (b.cfgIn ph (17 + m))) &&
      ((lists ph).all fun i => i < b.steps.length && b.stepFits ph striped (b.step i)) &&
      patchRules (linkWord (b.phaseRecs ph)) fun p => unitCfg (b.phaseRecs ph) (posUnitN p)) &&
    (b.steps.all fun x => b.stepNames x.toNat) && (b.plans.all fun p => b.planFits p.toNat) &&
    (b.patches.all fun r => paDesc r.toNat == 0xFF || paDesc r.toNat < b.pool.length) &&
    ((List.range b.pool.length).all fun i =>
      let e := ((b.pool[i]?).map (·.toNat)).getD 0
      poolKind e != 2 || (b.layouts b.cfgIn i).pass (poolDesc e)) &&
    (List.range 32).all b.ringOk

/-! ### Stage 7: the image (R300) -/

/-- Sites of the pass entries with their hosts, where the placement of R300 succeeds. -/
def placement (geo : Bytes) (tiles : Nat) (sites : List SiteId) (passOk : SiteId → Bool) : Option (List (SiteId × Nat)) :=
  let cells := pieces 4 (geo.drop 8)
  match sites.head?, cells.head? with
  | some s0, some c0 =>
    let x0 : Int := (siteX s0 : Int) - fieldAt c0 0 1
    let y0 : Int := (siteY s0 : Int) - fieldAt c0 1 1
    let here (c : Bytes) : Option SiteId :=
      let x := x0 + fieldAt c 0 1
      let y := y0 + fieldAt c 1 1
      if 0 ≤ x && x ≤ 5 && 0 ≤ y && y ≤ 7 then finOf 48 (y.toNat * 6 + x.toNat) else none
    if sites.length == tiles && ((cells.take tiles).zip sites).all (fun p => here p.1 == some p.2) then
      (cells.drop tiles).mapM fun c => match here c with
        | some s => if passOk s && fieldAt c 2 1 < tiles then some (s, fieldAt c 2 1) else none
        | none => none
    else none
  | _, _ => none

/-- Link switch word of any position of the die in a phase (R54): OFF outside the paddock. -/
def wordAt (recs : List (List CfgRec)) (sites : List SiteId) (pass : List (SiteId × Nat)) (s : SiteId) (p : PosId) : Nat :=
  match sites.zipIdx.find? fun x => x.1 == s with
  | some x => linkWord ((recs[x.2]?).getD []) p.val
  | none => match pass.zipIdx.find? fun x => x.1.1 == s with
    | some x => (passWords ((recs[x.1.2]?).getD []) x.2 p).toNat
    | none => 0

/-- Rule 4 across borders, rules 5 and 6, and rules 1 to 3 at the pass sites. -/
def gridOk (recs : List (List CfgRec)) (sites : List SiteId) (pass : List (SiteId × Nat)) : Bool :=
  let word := wordAt recs sites pass
  ((sites ++ pass.map (·.1)).all fun s => (fins 25).all fun p => (List.range 4).all fun k =>
    match neighbour s p k with
    | none => !swOut (word s p) k && !swIn (word s p) k
    | some (s', p', _) => faceOk (word s p) k (word s' p')) &&
  pass.all fun x => (fins 25).all fun p => sidesOk (word x.1 p) 0

/-- Channels and bells across tiles (R249, R262, R263), SEQ_ADVANCE on tile 0 (R240). -/
def crossOk (banks : List Bank) : Bool :=
  let tiles := banks.length
  let bank (n : Nat) : Bank := (banks[n]?).getD {}
  (List.range tiles).all fun n =>
    let b := bank n
    ((List.range 64).all fun i =>
      let x := fieldAt b.channels (8 * i) 8
      let dst := bank (fld x 8 6)
      !bitOf x 0 || (b.rank.toNat < fld x 48 16 &&
        (bitOf x 1 || (fld x 8 6 < tiles && fld x 48 16 == dst.rank.toNat && bitOf (fieldAt dst.channels (512 + 2 * fld x 3 5) 2) 0)))) &&
    b.steps.all fun w =>
      let x := w.toNat
      (stOp x != 0x05 || !bitOf (stA64 x) 63 || fld (stA64 x) 0 6 < tiles) && (stOp x != 0x10 || n == 0)

/-- The tiles agree on the phase table (R217). -/
def phasesAgree (banks : List Bank) : Bool :=
  match banks with
  | [] => true
  | b :: bs => bs.all fun c => c.phases.length == b.phases.length &&
      (List.range b.phases.length).all fun i =>
        phLast (b.phase i) == phLast (c.phase i) && phNext (b.phase i) == phNext (c.phase i)

/-- Stage 7 but for the placement. -/
def acrossOk (banks : List Bank) (sites : List SiteId) (pass : List (SiteId × Nat)) : Bool :=
  phasesAgree banks && crossOk banks &&
    (List.range ((banks.head?.map fun b => b.phases.length).getD 0)).all fun ph =>
      gridOk (banks.map fun b => b.phaseRecs ph) sites pass

/-! ### The hitch container (R303, R304) -/

def conCount (c : Bytes) : Nat := fieldAt c 6 1
def conOff (c : Bytes) (i : Nat) : Nat := fieldAt c (8 + 8 * i) 4
def conLen (c : Bytes) (i : Nat) : Nat := fieldAt c (12 + 8 * i) 4

/-- The container header, of which the command named the length; a sub-image holds at least its header of 256 bytes. -/
def containerOk (size bytes : Nat) (c : Bytes) : Bool :=
  sliceAt c 0 4 == [0x46#8, 0x4C#8, 0x48#8, 0x54#8] && fieldAt c 4 2 == 1 && conCount c == size && fieldAt c 7 1 == 0 &&
    allZero (sliceAt c 40 24) && allZero (sliceAt c (8 + 8 * size) (32 - 8 * size)) &&
    (List.range size).all (fun i => 256 ≤ conLen c i) &&
    ((List.range size).foldl (fun (a : Option Nat) i => a.bind fun o => if conOff c i == o then some (o + conLen c i) else none)
      (some 64)) == some bytes

/-- The header of sub-image `i` names its place in the hitch, and the lead's job. -/
def subHeaderOk (size i : Nat) (job sub : Bytes) : Bool :=
  imHitch sub && fieldAt sub 36 1 == size && fieldAt sub 37 1 == i && imJob sub == job

end Sys2Proof.Machine
end

