-- ==== Sys2Proof/Machine/LinkOps.lean ====
section
/-!
DEFINITION. Operations of the fabric links (R332 to R353): masks and widths, changes of state, credits, acknowledgement
and replay, building frames, queueing handshake messages.
-/
namespace Sys2Proof.Machine

/-! ### Events (R355) -/

/-- An event of a link: it names the port, the link, the lane or the width where one applies, and the peer. -/
def Dev.linkEvent (d : Dev) (n : LinkId) (code : Nat) (more : List Nat) : Dev :=
  d.post 0 3 n.val code (Config.eventPayload code ([n.val / 2, n.val] ++ more ++ [(d.link n).hs.peerSerial.toNat]))

/-! ### Lanes, masks and widths (R338) -/

def Link.medium (l : Link) : Nat := bvFld l.cfg 1 2
def Link.enabled (l : Link) : Bool := l.cfg.getLsbD 0

/-- The lane is good: neither bad nor retired. -/
def Lane.good (x : Lane) : Bool := !x.bad && !x.retired

/-- The lane-good mask over the link's lanes. -/
def Link.goodMask (l : Link) (lanes : Nat) : Byte :=
  BitVec.ofNat 8 (sumNat ((List.range lanes).map fun i => if (vgetN l.lanes i {}).good then 2 ^ i else 0))

/-- Lanes good in both masks, rising. -/
def commonLanes (a b : Byte) : List Nat := (List.range 8).filter fun i => (a &&& b).getLsbD i

/-- The largest of 8, 4, 2 and 1, no more than the link's lanes, that the common good lanes cover; 0 where none does. -/
def widthOf (lanes common : Nat) : Nat :=
  ([8, 4, 2, 1].find? fun w => w ≤ lanes && w ≤ common).getD 0

/-- Mask of both ends, width. -/
def Link.common (l : Link) (lanes : Nat) : List Nat :=
  match l.peerMask with
  | some m => commonLanes (l.goodMask lanes) m
  | none => []

/-- Logical lanes in order, as physical lanes: the W lowest lanes good at both ends (R338). -/
def Link.inUse (l : Link) : List Nat := (commonLanes l.mask (l.peerMask.getD 0#8)).take l.width

/-! ### Codewords (R333, R337) -/

/-- Fields of a codeword header. -/
def cwCount (h : CwHdr) : Byte := h.extractLsb' 0 8
def cwLane (h : CwHdr) : Nat := bvFld h 8 3
def cwMark (h : CwHdr) : Nat := bvFld h 11 2
def cwSync (h : CwHdr) : Bool := bvFld h 13 7 == 0b1011001

/-- The header of a codeword that is sent. -/
def cwHdrOf (count : Byte) (lane mark : Nat) : CwHdr :=
  BitVec.ofNat 20 (count.toNat + lane * 2 ^ 8 + mark * 2 ^ 11 + 0b1011001 * 2 ^ 13)

/-- One bit of the reflected CRC-32. -/
def crcBit (c : Nat) : Nat := if c % 2 == 1 then (c / 2) ^^^ 0xEDB88320 else c / 2

def crcBits : Nat → Nat → Nat
  | 0, c => c
  | k + 1, c => crcBits k (crcBit c)

/-- The CRC-32 of IEEE 802.3 (R340). -/
def crc32 (bs : Bytes) : BitVec 32 :=
  BitVec.ofNat 32 (bs.foldl (fun c b => crcBits 8 (c ^^^ b.toNat)) 0xFFFFFFFF ^^^ 0xFFFFFFFF)

/-- A codeword of a lane: its counters, the record of the last second, and its CW_COUNT, which a codeword that cannot be read
advances by one (R337, R352, R354). -/
def Lane.codeword (x : Lane) (fec : FecResult) (h : CwHdr) (now : Nat) : Lane :=
  { x with
    symCorr := match fec with | some k => x.symCorr.add now k.val | none => x.symCorr
    uncorr := if fec.isNone then x.uncorr.inc now else x.uncorr
    cw := if fec.isNone then x.cw + 1 else cwCount h
    recent := (now, fec.map (·.val)) :: x.recent.filter fun r => now < r.1 + msN 1000 }

/-- FEC decode of a received codeword: the lane's counters (R333, R354). -/
def Link.countFec (l : Link) (lane : Fin 8) (fec : FecResult) (h : CwHdr) (now : Nat) : Link :=
  { l with lanes := vmod l.lanes lane fun x => x.codeword fec h now }

/-- The lane has lost SYNC lock (R352). -/
def Link.unlock (l : Link) (lane : Fin 8) : Link := { l with lanes := vmod l.lanes lane fun x => { x with locked := false } }

/-- The lanes in service are deskewed by CW_COUNT: no lane lies more than 16 codeword periods behind another (R338). -/
def Link.deskewed (l : Link) (lanes : Nat) : Bool :=
  let cs := ((List.range lanes).filter fun i => (vgetN l.lanes i {}).good).map fun i => (vgetN l.lanes i {}).cw
  cs.any fun a => cs.all fun b => (a - b).toNat ≤ 16

/-! ### States (R336, R338, R348, R349, R353) -/

/-- A link that starts anew: configuration, counters, lanes and the back-off stay. -/
def Link.fresh (l : Link) (st : LinkState) (now : Nat) : Link :=
  { cfg := l.cfg, state := st, since := now, txFrames := l.txFrames, rxFrames := l.rxFrames, crcErr := l.crcErr,
    replays := l.replays, naks := l.naks, tagFail := l.tagFail, retrains := l.retrains, rekeys := l.rekeys,
    lanes := l.lanes, wire := l.wire, tagFailAt := l.tagFailAt, backoff := l.backoff }

/-- The port is enabled: the link is, it has lanes, and the device is no STANDALONE device (R332). -/
def Dev.linkWanted (d : Dev) (n : LinkId) : Bool := (d.link n).enabled && 0 < d.linkLanes n && d.role != 0

/-- Full training begins: retired lanes return to service, C2M needs no PMD training (R338, R353). -/
def Dev.startTraining (d : Dev) (n : LinkId) : Dev :=
  d.modLink n fun l =>
    let l := l.fresh .training d.now
    { l with
      pmdDone := l.medium == 2
      lanes := l.lanes.map fun x => { x with locked := false, retired := false, bad := false }
      mask := BitVec.ofNat 8 (2 ^ d.linkLanes n - 1) }

/-- A link leaves its state: what follows where it was UP, and the report of the change (R360, R361). -/
def Dev.linkLeft (d : Dev) (fz : Fuse) (n : LinkId) (old : LinkState) : Dev :=
  if old == .up then d.onLinkLost fz.serial n else d.reportUp fz.serial

/-- Flits that begin a packet whose last flit is not among them; the number given is that of the current packet's flits
still to come. -/
def midPacket : Nat → List Bytes → Bool
  | k, [] => k != 0
  | 0, f :: fs => midPacket (headLen f) fs
  | k + 1, _ :: fs => midPacket k fs

/-- VCs whose receive buffer ends partway through a packet. -/
def Link.partials (l : Link) : List Nat :=
  (List.range 5).filter fun v => midPacket 0 ((l.rxFlits.filter fun f => f.1 == v).map (·.2))

/-- What a link that carries no more loses: packets received in part, which FAB_DROP_ROUTE counts, and the flits of a
packet that was being sent, which its input's buffer frees (R346, R353, R392). -/
def Dev.loseFlits (d : Dev) (n : LinkId) : Dev :=
  let l := d.link n
  let d := l.txFlits.foldl (fun d f => d.freeOne f.input f.inVc) d
  { d with fab := { d.fab with dropRoute := d.fab.dropRoute.add d.now l.partials.length } }

/-- The link enters DOWN: unacknowledged frames and keys are discarded (R353). -/
def Dev.linkDown (d : Dev) (fz : Fuse) (n : LinkId) : Dev :=
  let old := (d.link n).state
  (((d.loseFlits n).linkEvent n 0x6006 []).modLink n fun l => l.fresh .down d.now).linkLeft fz n old

/-- The link enters QUARANTINED with an event and an owner alert: keys are discarded (R348, R349, R355). -/
def Dev.quarantine (d : Dev) (fz : Fuse) (n : LinkId) (code : Nat) : Dev :=
  let old := (d.link n).state
  (((d.loseFlits n).linkEvent n code []).modLink n fun l => l.fresh .quarantined d.now).linkLeft fz n old |>.alert alertLink

/-- A link in RETRAIN: SEQ, keys, credits and the replay buffer are kept; the order of frames starts anew with the alignment
(R339, R352). -/
def Link.retraining (l : Link) (now : Nat) : Link :=
  { l with
    state := .retrain, since := now, retrains := l.retrains.inc now, alignSent := 0, alignSeen := 0, replayFrom := none,
    replayWait := false, nakDue := false, replay := l.replay.map fun r => { r with times := 0 },
    fromHs := l.state == .handshake, frameNo := 0, rxNo := 0, rxSlot := none, rxHeld := [] }

/-- The link enters RETRAIN (R345, R352). -/
def Dev.retrain (d : Dev) (fz : Fuse) (n : LinkId) : Dev :=
  let old := (d.link n).state
  let d := d.linkEvent n 0x6004 []
  (d.modLink n fun l => l.retraining d.now).linkLeft fz n old

/-- Loss of alignment before UP makes the link DOWN; in UP it retrains (R348, R352). -/
def Dev.realign (d : Dev) (fz : Fuse) (n : LinkId) : Dev :=
  if (d.link n).state == .up then d.retrain fz n else d.linkDown fz n

/-! ### Handshake messages (R347) -/

def HsMsg.code : HsMsg → Nat
  | .hello => 1
  | .kemKey => 2
  | .kemCt => 3
  | .cert => 4
  | .sig => 5
  | .finished => 6
  | .rekeyKey => 7
  | .rekeyCt => 8
  | .rekeyReq => 9

/-- Fragments of a message: an 8-byte fragment header and up to 568 bytes. -/
def fragsOf (code : Nat) (content : Bytes) : List Bytes :=
  let k := max 1 (ceilDiv content.length 568)
  (List.range k).map fun i =>
    padTo 576 (leBytes 1 code ++ leBytes 1 i ++ leBytes 1 k ++ leBytes 1 0 ++ leBytes 2 content.length ++ leBytes 2 0
      ++ sliceAt content (568 * i) 568)

/-- Queue a message. -/
def Link.say (l : Link) (m : HsMsg) (content : Bytes) : Link :=
  { l with txFrags := l.txFrags ++ fragsOf m.code content, hs := { l.hs with sent := l.hs.sent ++ [m] } }

/-- The content of a HELLO. -/
def helloBytes (h : Hello) : Bytes :=
  leBytes 2 h.version.toNat ++ leBytes 8 h.serial.toNat ++ [h.role, h.reserved] ++ padTo 32 h.nonce

/-- The link enters HANDSHAKE and sends HELLO; without entropy it goes to DOWN (R347, R480). -/
def Dev.startHandshake (d : Dev) (fz : Fuse) (n : LinkId) : Dev :=
  if !d.entropyOk then d.linkDown fz n
  else
    let (x, d) := d.draw
    let h : Hello := { version := 1#16, serial := fz.serial, role := BitVec.ofNat 8 d.role, reserved := 0#8, nonce := leBytes 32 x }
    let d := d.modLink n fun l =>
      let l := { l with
        state := .handshake, since := d.now, lastAckAt := d.now, frameNo := 0, hs := { myHello := helloBytes h, since := d.now } }
      l.say .hello (helloBytes h)
    d.reportUp fz.serial

/-- What follows when alignment may be complete: both ends have sent 64 ALIGN codewords of unchanged masks and the good
lanes are locked and deskewed (R338). A link without a common good lane enters DOWN; one that retrains returns to the state it
came from (R352). -/
def Dev.checkAlign (d : Dev) (fz : Fuse) (n : LinkId) : Dev :=
  let l := d.link n
  let lanes := d.linkLanes n
  let locked := (List.range lanes).all fun i => !(vgetN l.lanes i {}).good || (vgetN l.lanes i {}).locked
  if l.goodMask lanes == 0#8 then d.linkDown fz n
  else if l.alignSent < 64 || l.alignSeen < 64 || !locked || !l.deskewed lanes then d
  else
    let w := widthOf lanes (l.common lanes).length
    if w == 0 then d.linkDown fz n
    else
      let d := d.modLink n fun l => { l with width := w, mask := l.goodMask lanes }
      if l.state == .retrain && l.fromHs then
        (d.modLink n fun l => { l with
          state := .handshake, since := d.now, lastAckAt := d.now, replayWait := !l.replay.isEmpty, fromHs := false }).reportUp
          fz.serial
      else if l.state == .retrain then
        let d := d.modLink n fun l => { l with
          state := .up, since := d.now, lastAckAt := d.now,
          replayWait := !l.replay.isEmpty,
          hs := { l.hs with since := l.hs.since + (d.now - l.since) } }
        ((d.linkEvent n 0x6008 [w]).onLinkUp fz.serial n).health
      else d.startHandshake fz n

/-! ### Sequence numbers, acknowledgement and credit (R342 to R346) -/

/-- Frames from `a` to `b`, modulo 2³². -/
def seqDist (a b : BitVec 32) : Nat := (b - a).toNat

/-- An ACK names a frame not yet sent: it lies neither in the frames sent and not acknowledged nor in the window of 256
before them (R342). -/
def Link.ackBad (l : Link) (ack : BitVec 32) : Bool :=
  seqDist l.acked (l.nextSeq - 1) < seqDist l.acked ack && 256 < seqDist ack l.acked

/-- Apply ACK and CREDIT (R342, R343, R346). -/
def Link.apply (l : Link) (ack : BitVec 32) (credit : List (BitVec 16)) (now : Nat) : Link :=
  let l := { l with creditRx := Vector.ofFn fun i : Fin 5 => (credit[i.val]?).getD 0#16 }
  let k := seqDist l.acked ack
  if k == 0 || seqDist l.acked (l.nextSeq - 1) < k then l
  else
    { l with
      acked := ack
      lastAckAt := now
      replay := l.replay.filter fun r => k < seqDist l.acked r.seq
      replayFrom := match l.replayFrom with
        | some r => if seqDist l.acked r ≤ k then (if ack + 1 == l.nextSeq then none else some (ack + 1)) else some r
        | none => none }

/-- A replay is asked for; during a replay only where ACK is below the frame being sent (R345). -/
def Link.startReplay (l : Link) : Link :=
  if l.replay.isEmpty then l
  else
    let restart : Bool := match l.replayFrom with
      | some r => decide (seqDist l.acked (l.acked + 1) < seqDist l.acked r)
      | none => true
    { l with replayWait := l.replayWait || restart }

/-- The next frame is the first of a slot (R339). -/
def Link.slotStart (l : Link) : Bool := l.frameNo % max 1 l.width == 0

/-- The replay that was asked for starts at the next slot, with the frame after ACK (R345). -/
def Link.enterReplay (l : Link) (now : Nat) : Link :=
  if !l.replayWait || !l.slotStart then l
  else if l.replay.isEmpty then { l with replayWait := false }
  else { l with replayWait := false, replayFrom := some (l.acked + 1), replays := l.replays.inc now }

/-- Ask for a replay: one NAK, none for 1 µs after the last (R344). -/
def Link.askReplay (l : Link) (now : Nat) : Link :=
  match l.nakAt with
  | some t => if now < t + usN 1 then l else { l with nakDue := true }
  | none => { l with nakDue := true }

/-- Credit of a VC: the last CREDIT minus the flits sent, plus 2,304 (R346). -/
def Link.credit (l : Link) (v : Nat) : Nat :=
  ((vgetN l.creditRx v 0#16).toNat + 65536 - (vgetN l.flitsSent v 0) % 65536 + 2304) % 65536

/-! ### Packets as flits (R366, R389, R390) -/

/-- Reserved bits of the header, in their places: bits 63 to 56, 119 and 118, 167 to 165, and from 176 on. -/
def pktReserved (r : BitVec 93) : Nat :=
  bvFld r 0 8 * 2 ^ 56 + bvFld r 8 2 * 2 ^ 118 + bvFld r 10 3 * 2 ^ 165 + bvFld r 13 80 * 2 ^ 176

/-- The 32-byte header. -/
def pktHeader (p : FabPkt) : Bytes :=
  leBytes 32 (pktReserved p.reserved + p.laddr.toNat + p.dest.toNat * 2 ^ 39 + p.space.toNat * 2 ^ 53 + p.src.toNat * 2 ^ 64 + p.epoch.toNat * 2 ^ 78
    + p.prio.toNat * 2 ^ 79 + p.brand.toNat * 2 ^ 80 + p.typ.toNat * 2 ^ 96 + p.cls.toNat * 2 ^ 102 + p.dl.toNat * 2 ^ 104
    + p.len.toNat * 2 ^ 105 + p.hops.toNat * 2 ^ 112 + p.tag.toNat * 2 ^ 120 + p.seq.toNat * 2 ^ 136
    + p.size.toNat * 2 ^ 152 + p.status.toNat * 2 ^ 168)

/-- The flits of a packet. -/
def pktFlits (p : FabPkt) : List Bytes :=
  (pktHeader p ++ padTo 32 p.operand) :: (List.range p.len.toNat).map fun i => padTo 64 (sliceAt p.payload (64 * i) 64)

/-- A management packet of this device: MCODE, TREE, per-code bytes 36 to 39, TARGET_SERIAL, payload. Its TAG names the
yardmaster (R369, R389). -/
def mgmtPkt (src : BitVec 14) (epoch : BitVec 1) (code tree : Nat) (four : Bytes) (target : Nat) (payload : Bytes) : FabPkt :=
  { blankPkt with
    src := src, epoch := epoch, tag := tagOf 0 0 3, space := 5#3, typ := 0x20#6, cls := 2#2, len := BitVec.ofNat 7 (ceilDiv payload.length 64),
    size := BitVec.ofNat 13 payload.length,
    operand := padTo 32 (leBytes 2 code ++ leBytes 1 tree ++ leBytes 1 0 ++ padTo 4 four ++ leBytes 8 target),
    payload := padTo (64 * ceilDiv payload.length 64) payload }

/-- Numbers of the hitch load messages: the model's own, the manual gives none. -/
def HitchMsg.code : HitchMsg → Nat
  | .loadBegin => 0
  | .data => 1
  | .loadEnd => 2
  | .verified => 3
  | .commit => 4
  | .committed => 5
  | .abort => 6
  | .revert => 7
  | .release => 8

/-- The packet of a message that is kept by name, under the epoch of its injection. Where the manual gives no layout, the payload
is a free value. -/
def outPkt (src : BitVec 14) (epoch : BitVec 1) : OutPkt → FabPkt
  | .packet p => p
  | .discover x => mgmtPkt src epoch 1 3 [] 0 (Config.mgmtPayload 1
      [x.serial.toNat, x.role, x.hitchSize, x.hitchPos, x.priority, (x.number.map (·.toNat + 1)).getD 0, x.linkIdx.val])
  | .candidate s p => mgmtPkt src epoch 2 3 [] 0 (Config.mgmtPayload 2 [s.toNat, p])
  | .topology hops t => { mgmtPkt src epoch 3 1 [] 0 (Config.mgmtPayload 3
      ([t.serial.toNat, (t.pinned.map (·.toNat + 1)).getD 0, t.hitchSize, t.hitchPos, (t.number.map (·.toNat + 1)).getD 0] ++
        t.links.flatMap fun k => [k.idx.val, k.peer.toNat, k.peerIdx.val, k.width, k.trusted.toNat])) with hops := hops }
  | .assign hops t k => { mgmtPkt src epoch 4 2 [] t.toNat (Config.mgmtPayload 4 [k.toNat]) with hops := hops }
  | .routeWrite t v first es => mgmtPkt src epoch 5 2 (leBytes 2 v.toNat ++ leBytes 2 first) t.toNat
      (es.flatMap fun e => leBytes 2 e.toNat)
  | .routeAck status tag seq => { mgmtPkt src epoch 6 1 [] 0 [] with status := BitVec.ofNat 8 status, tag := tag, seq := seq }
  | .epochFlip t e => mgmtPkt src epoch 7 2 (leBytes 1 e.toNat) t.toNat []
  | .hitch msg job code data => mgmtPkt src epoch 10 3 [] 0
      (Config.mgmtPayload 10 ([msg.code, code.toNat] ++ job.map (·.toNat)) ++ data)

/-- The packet of an entry. -/
def Dev.entryPkt (d : Dev) (q : OutEntry) : FabPkt := outPkt d.number q.epoch q.pkt

/-! ### Frames (R339 to R341, R343) -/

def FrameType.code : FrameType → Nat
  | .idle => 0
  | .data => 1
  | .nak => 2
  | .control => 3

/-- Bytes 0 to 43 of a frame; the reserved bytes stand as one number, those of bytes 26 to 31 lowest. -/
def frameHead (ft flags mask vc seq ack : Nat) (credit : List (BitVec 16)) (tx reserved : Nat) : Bytes :=
  leBytes 1 ft ++ leBytes 1 flags ++ leBytes 2 mask ++ leBytes 4 vc ++ leBytes 4 seq ++ leBytes 4 ack
    ++ ((List.range 5).flatMap fun i => leBytes 2 ((credit[i]?).getD 0#16).toNat) ++ leBytes 6 reserved ++ leBytes 8 tx
    ++ leBytes 4 (reserved / 2 ^ 48)

/-- The 96-bit IV of a frame. -/
def frameIv (tx : Nat) : Bytes := leBytes 8 tx ++ leBytes 4 0

/-- Physical lane of the next frame: frame k travels on logical lane k mod W (R339). -/
def Link.txLane (l : Link) : Nat := (l.inUse[l.frameNo % max 1 l.width]?).getD 0

/-- Send a frame: slots, encryption under the current key, TX_COUNT, the CRC, the codeword that carries it on its lane, and the
count of frames, which ends the slot with the last lane (R333, R337, R339 to R341). -/
def Link.emit (l : Link) (ft : FrameType) (seq : BitVec 32) (flits : List (Nat × Bytes)) (frag : Bytes) (now : Nat) : Link :=
  let mask := 2 ^ flits.length - 1
  let vc := packFields 3 (flits.map (·.1))
  let plain := padTo 576 (if ft == .control then frag else (flits.map (·.2)).flatten)
  let credit := l.flitsFreed.toList.map fun x => BitVec.ofNat 16 x
  let head := frameHead ft.code (l.keyEpoch.toNat + 2 * l.txOn.toNat) mask vc seq.toNat (l.expected - 1).toNat credit l.txCount 0
  let sealed_ := if l.txOn then Config.gcmSeal l.txKey (frameIv l.txCount) head plain else (plain, [])
  let body := head ++ padTo 576 sealed_.1 ++ padTo 16 sealed_.2
  let logical := l.frameNo % max 1 l.width
  { l with
    wire := l.wire ++ [{ lane := l.txLane, hdr := cwHdrOf l.cwTx logical 0, payload := body ++ leBytes 4 (crc32 body).toNat }]
    frameNo := l.frameNo + 1
    cwTx := if logical + 1 == max 1 l.width then l.cwTx + 1 else l.cwTx
    txCount := if l.txOn then l.txCount + 1 else l.txCount
    txFrames := if ft == .data || ft == .control then satInc l.txFrames else l.txFrames
    naks := if ft == .nak then l.naks.inc now else l.naks }

/-- One slot of ALIGN codewords on every good lane, with the mask and the link's lanes (R337, R338). -/
def Link.emitAlign (l : Link) (lanes : Nat) : Link :=
  let payload := padTo 640 [l.goodMask lanes, BitVec.ofNat 8 lanes]
  { l with
    wire := l.wire ++ ((List.range lanes).filter fun i => (vgetN l.lanes i {}).good).map fun i =>
      { lane := i, hdr := cwHdrOf l.cwTx i 1, payload := payload }
    cwTx := l.cwTx + 1
    alignSent := l.alignSent + 1 }

/-- Send a new DATA or CONTROL frame: it takes the next SEQ and enters the replay buffer. -/
def Link.emitNew (l : Link) (ft : FrameType) (flits : List (Nat × Bytes)) (frag : Bytes) (now : Nat) : Link :=
  let e : SentFrame := { ftype := ft, seq := l.nextSeq, flits := flits, frag := frag, times := 1 }
  let l := { l.emit ft l.nextSeq flits frag now with
    lastAckAt := if l.replay.isEmpty then now else l.lastAckAt }
  { l with nextSeq := l.nextSeq + 1, replay := l.replay ++ [e] }

/-- Send the next frame of a replay (R345). -/
def Link.emitReplay (l : Link) (seq : BitVec 32) (now : Nat) : Link :=
  match l.replay.find? fun r => r.seq == seq with
  | none => { l with replayFrom := none }
  | some r =>
    let l := l.emit r.ftype r.seq r.flits r.frag now
    { l with
      replay := l.replay.map fun q => if q.seq == seq then { q with times := q.times + 1 } else q
      replayFrom := if seq + 1 == l.nextSeq then none else some (seq + 1) }

/-! ### Choosing flits (R346, R371) -/

/-- Classes of the link VCs in the order in which a slot is given to them: MGMT, RSP, REQ; number and VCs (R371). -/
def txClasses : List (Nat × List Nat) := [(2, [4]), (1, [2, 3]), (0, [0, 1])]

/-- Class number of a VC. -/
def vcClass (v : Nat) : Nat := v / 2

/-- Places after the input that was served last, in round-robin order over the 17 inputs. -/
def turnsAfter (last input : Nat) : Nat := (input + 33 - last) % 17

/-- Of two candidates, by PRIO and input: PRIO 1 first, then the input whose turn comes first (R371). -/
def comesFirst (last : Nat) (a b : Bool × Nat) : Bool :=
  if a.1 != b.1 then a.1 else decide (turnsAfter last a.2 < turnsAfter last b.2)

/-- The first of a list in that order; of equals the one that stands first. -/
def firstBy {α : Type} (last : Nat) (key : α → Bool × Nat) : List α → Option α
  | [] => none
  | x :: xs => match firstBy last key xs with
    | none => some x
    | some y => if comesFirst last (key y) (key x) then some y else some x

/-- PRIO of an entry's packet. -/
def Dev.outPrio (d : Dev) (q : OutEntry) : Bool := (d.entryPkt q).prio == 1#1

/-- Input that a class of a link served last. -/
def Link.lastOf (l : Link) (v : Nat) : Nat := vgetN l.lastIn (vcClass v) 16

/-- Two packets may be of one stream: source device, source site and kind, destination device and class are the same (R369,
R387). -/
def sameStream (p q : FabPkt) : Bool :=
  p.src == q.src && p.tag.toNat / 2 ^ 7 == q.tag.toNat / 2 ^ 7 && p.dest == q.dest && p.cls == q.cls

/-- The packet that takes VC `v` of a link next: one whose head flit is ready, PRIO 1 first, then round-robin by input, then
the oldest of its input (R371); none goes before an older one of its stream (R387). -/
def Dev.pickPkt (d : Dev) (n : LinkId) (v : Nat) : Option OutEntry :=
  let l := d.fab.out.filter fun q => q.link == n
  (firstBy ((d.link n).lastOf v) (fun x => (d.outPrio x.1, x.1.input))
    (l.zipIdx.filter fun x => x.1.ready ≤ d.now && pktVc (d.entryPkt x.1) == v &&
      !(l.take x.2).any fun r => sameStream (d.entryPkt r) (d.entryPkt x.1))).map (·.1)

/-- The flits of an entry. -/
def Dev.entryFlits (d : Dev) (q : OutEntry) : List TxFlit :=
  (pktFlits (d.entryPkt q)).map fun f =>
    { vc := pktVc (d.entryPkt q), input := q.input, inVc := q.inVc, prio := d.outPrio q, data := f }

/-- A VC that no packet holds takes the flits of its next packet, and is held until the last of them is sent (R371). -/
def Dev.loadVc (d : Dev) (n : LinkId) (v : Nat) : Dev :=
  if (d.link n).txFlits.any fun f => f.vc == v then d
  else match d.pickPkt n v with
    | none => d
    | some q =>
      let d' := { d with fab := { d.fab with out := eraseFirst (fun x => x == q) d.fab.out } }
      d'.modLink n fun l => { l with txFlits := l.txFlits ++ d.entryFlits q }

/-- The flit that a VC sends next: of the packet that holds it, or the head flit of the packet that would take it. -/
def Dev.vcFlit (d : Dev) (n : LinkId) (v : Nat) : Option TxFlit :=
  match (d.link n).txFlits.find? fun f => f.vc == v with
  | some f => some f
  | none => (d.pickPkt n v).bind fun q => (d.entryFlits q).head?

/-- The flit that the next slot of a frame takes, of the VCs that have credit (R346, R371). -/
def Dev.chooseFlit (d : Dev) (n : LinkId) : Option TxFlit :=
  let l := d.link n
  txClasses.findSome? fun c => firstBy (vgetN l.lastIn c.1 16) (fun f => (f.prio, f.input))
    (c.2.filterMap fun v => if 0 < l.credit v then d.vcFlit n v else none)

/-- Take the next flit: a head flit takes its VC; the flit counts against the VC's credit, and leaves its input's buffer. -/
def Dev.nextFlit (d : Dev) (n : LinkId) : Option (Dev × Nat × Bytes) :=
  (d.chooseFlit n).map fun f =>
    (((d.loadVc n f.vc).modLink n fun l => { l with
        txFlits := eraseFirst (fun x => x.vc == f.vc) l.txFlits
        lastIn := vmodN l.lastIn (vcClass f.vc) fun _ => f.input
        flitsSent := vmodN l.flitsSent f.vc (· + 1) }).freeOne f.input f.inVc, f.vc, f.data)

/-- Up to `k` flits for one frame. -/
def Dev.takeFlits (n : LinkId) : Nat → Dev → Dev × List (Nat × Bytes)
  | 0, d => (d, [])
  | k + 1, d => match d.nextFlit n with
    | none => (d, [])
    | some (d, v, b) => let (d, l) := Dev.takeFlits n k d; (d, (v, b) :: l)

end Sys2Proof.Machine
end

