-- ==== Sys2Proof/Machine/LinkAuth.lean ====
section
/-!
DEFINITION. The handshake of a fabric link and rekeying (R347 to R351): what each message does when it has been received
whole, and the timeouts.
-/
namespace Sys2Proof.Machine

/-- A malformed message is dropped, counted with the malformed frames, and a malformed-packet event is posted (R12, R347). DEDUCED, log
entry 84: its code. -/
def Dev.msgBad (d : Dev) (n : LinkId) : Dev :=
  (d.modLink n fun l => { l with crcErr := l.crcErr.inc d.now }).fabEvent 0x6021 [n.val]

/-- The link is in a handshake in which `want` has been received and `m` has not. -/
def Link.expects (l : Link) (m : HsMsg) (want : List HsMsg) : Bool :=
  l.state == .handshake && !l.hs.got.contains m && want.all fun w => l.hs.got.contains w

def Link.note (l : Link) (m : HsMsg) : Link := { l with hs := { l.hs with got := l.hs.got ++ [m] } }

/-- Role byte of R348. -/
def roleByte (initiator : Bool) : Bytes := [if initiator then 0x00#8 else 0x01#8]

/-- The link enters UP when FINISHED has been sent and the peer's has been matched (R348). -/
def Dev.tryUp (d : Dev) (fz : Fuse) (n : LinkId) : Dev :=
  let l := d.link n
  if l.state == .handshake && l.hs.sent.contains .finished && l.hs.got.contains .finished && l.txOn then
    let d := d.modLink n fun l => { l with
      state := .up, since := d.now, lastAckAt := d.now, keySince := d.now, peer := l.hs.peerSerial, backoff := 1 }
    ((d.linkEvent n 0x6008 [l.width]).onLinkUp fz.serial n).health
  else d

/-! ### The messages -/

/-- HELLO: the end with the lower serial is the initiator; the own serial is a loopback (R347). -/
def helloEffect (n : LinkId) (h : Hello) (fz : Fuse) (d : Dev) : Dev :=
  if !(d.link n).expects .hello [] then d
  else if h.version != 1#16 || h.reserved != 0#8 || h.nonce.length != 32 then d.msgBad n
  else if h.serial == fz.serial then
    (d.modLink n fun l => { l with hs := { l.hs with peerSerial := h.serial } }).quarantine fz n 0x6007
  else
    let first := fz.serial.toNat < h.serial.toNat
    let d := d.modLink n fun l =>
      let l := l.note .hello
      { l with hs := { l.hs with
          initiator := decide first, peerSerial := h.serial, peerRole := h.role, peerHello := helloBytes h } }
    if first then
      let (x, d) := d.draw
      let seed := leBytes 64 x
      let key := padTo 1568 (Config.kemPublic seed)
      d.modLink n fun l =>
        let l := l.say .kemKey key
        { l with hs := { l.hs with seed := seed, kemKey := key } }
    else d

/-- KEM_KEY at the responder: encapsulate, answer KEM_CT and send CERT (R347, R348). -/
def kemKeyEffect (n : LinkId) (key : Bytes) (fz : Fuse) (d : Dev) : Dev :=
  let l := d.link n
  if !l.expects .kemKey [.hello] || l.hs.initiator then d
  else if key.length != 1568 then d.msgBad n
  else
    let (x, d) := d.draw
    let e := Config.kemEncaps key x
    let ct := padTo 1568 e.1
    let chain := d.linkChain fz
    d.modLink n fun l =>
      let l := ((l.note .kemKey).say .kemCt ct).say .cert chain
      { l with hs := { l.hs with kemKey := key, kemCt := ct, secret := e.2, myCert := chain } }

/-- KEM_CT at the initiator: decapsulate and send CERT (R347, R348). -/
def kemCtEffect (n : LinkId) (ct : Bytes) (fz : Fuse) (d : Dev) : Dev :=
  let l := d.link n
  if !l.expects .kemCt [.hello] || !l.hs.initiator then d
  else if ct.length != 1568 then d.msgBad n
  else match Config.kemDecaps l.hs.seed ct with
    | none => d.quarantine fz n 0x6001
    | some ss =>
      let chain := d.linkChain fz
      d.modLink n fun l =>
        let l := (l.note .kemCt).say .cert chain
        { l with hs := { l.hs with kemCt := ct, secret := ss, myCert := chain } }

/-- The transcript digest D (R348). -/
def Handshake.transcript (h : Handshake) (peerCert : Bytes) : Bytes :=
  let i := if h.initiator then h.myHello else h.peerHello
  let r := if h.initiator then h.peerHello else h.myHello
  let ci := if h.initiator then h.myCert else peerCert
  let cr := if h.initiator then peerCert else h.myCert
  Config.shake256 64 (i ++ r ++ h.kemKey ++ h.kemCt ++ cr ++ ci)

/-- CERT: the chain is verified (R458); then D is known and SIG is sent (R348). -/
def certEffect (n : LinkId) (chain : Bytes) (fz : Fuse) (d : Dev) : Dev :=
  let l := d.link n
  if !l.expects .cert [.hello, if l.hs.initiator then .kemCt else .kemKey] then d
  else if !d.chainOk fz l.hs.peerSerial chain then d.quarantine fz n 0x6001
  else
    let dig := l.hs.transcript chain
    let signature := padTo 1280 (Config.falconSign (d.fwid fz) (roleByte l.hs.initiator ++ dig))
    d.modLink n fun l =>
      let l := (l.note .cert).say .sig signature
      { l with hs := { l.hs with peerCert := chain, digest := dig } }

/-- The keys of both directions: initiator's, responder's (R348). -/
def linkKeys (secret dig more : Bytes) : Bytes × Bytes :=
  let k := Config.shake256 64 (secret ++ dig ++ ascii "FLEVER-LINK-1" ++ more)
  (k.take 32, k.drop 32)

/-- SIG: step 7 of R458; then the keys are taken and FINISHED is sent (R348). -/
def sigEffect (n : LinkId) (signature : Bytes) (fz : Fuse) (d : Dev) : Dev :=
  let l := d.link n
  if !l.expects .sig [.cert] then d
  else if signature.length != 1280 then d.msgBad n
  else if !Config.falconVerify (certKey (chainFwid l.hs.peerCert)) (roleByte (!l.hs.initiator) ++ l.hs.digest) signature then
    d.quarantine fz n 0x6001
  else
    let ks := linkKeys l.hs.secret l.hs.digest []
    let tx := if l.hs.initiator then ks.1 else ks.2
    let rx := if l.hs.initiator then ks.2 else ks.1
    d.modLink n fun l =>
      let l := { l.note .sig with txKey := tx, rxKey := rx, keyEpoch := false, rxEpoch := false, txCount := 0 }
      l.say .finished (Config.shake256 32 (tx ++ l.hs.digest))

/-- FINISHED: matched against the peer's transmit key and D (R348). -/
def finishedEffect (n : LinkId) (confirm : Bytes) (fz : Fuse) (d : Dev) : Dev :=
  let l := d.link n
  if !l.expects .finished [.sig] then d
  else if confirm != Config.shake256 32 (l.rxKey ++ l.hs.digest) then d.quarantine fz n 0x6001
  else (d.modLink n fun l => l.note .finished).tryUp fz n

/-! ### Rekeying (R350, R351) -/

/-- The initiator starts a rekey with a fresh key; without entropy the link goes to DOWN (R350, R480). -/
def Dev.startRekey (d : Dev) (fz : Fuse) (n : LinkId) : Dev :=
  if !d.entropyOk then d.linkDown fz n
  else
    let (x, d) := d.draw
    let seed := leBytes 64 x
    let key := padTo 1568 (Config.kemPublic seed)
    d.modLink n fun l =>
      let l := { l with rekeying := true, hs := { l.hs with seed := seed, kemKey := key, since := d.now } }
      l.say .rekeyKey key

/-- The new keys of a rekey: transmit and receive (R350). -/
def Link.rekeyed (l : Link) (secret : Bytes) (ct : Bytes) : Bytes × Bytes :=
  let dig := Config.shake256 64 (l.hs.kemKey ++ ct)
  let i := if l.hs.initiator then l.txKey else l.rxKey
  let r := if l.hs.initiator then l.rxKey else l.txKey
  let ks := linkKeys secret dig (i ++ r)
  if l.hs.initiator then ks else (ks.2, ks.1)

/-- REKEY_KEY at the responder: answer REKEY_CT; the new transmit key is taken after it is sent (R350). -/
def rekeyKeyEffect (n : LinkId) (key : Bytes) (fz : Fuse) (d : Dev) : Dev :=
  let l := d.link n
  if l.state != .up || l.hs.initiator || l.rekeying then d
  else if key.length != 1568 then d.msgBad n
  else if !d.entropyOk then d.linkDown fz n
  else
    let (x, d) := d.draw
    let e := Config.kemEncaps key x
    let ct := padTo 1568 e.1
    d.modLink n fun l =>
      let l := { l with rekeying := true, hs := { l.hs with kemKey := key, since := d.now } }
      let ks := l.rekeyed e.2 ct
      { l with txNew := some ks.1, rxNew := some ks.2 }.say .rekeyCt ct

/-- REKEY_CT at the initiator: KEY_EPOCH flips and TX_COUNT restarts from the next frame (R350). -/
def rekeyCtEffect (n : LinkId) (ct : Bytes) (fz : Fuse) (d : Dev) : Dev :=
  let l := d.link n
  if l.state != .up || !l.hs.initiator || !l.rekeying || l.rxNew.isSome then d
  else if ct.length != 1568 then d.msgBad n
  else match Config.kemDecaps l.hs.seed ct with
    | none => d.linkDown fz n
    | some ss => d.modLink n fun l =>
      let ks := l.rekeyed ss ct
      { l with txKey := ks.1, rxNew := some ks.2, keyEpoch := !l.keyEpoch, txCount := 0 }

/-- REKEY_REQ at the initiator; ignored during a rekey (R350, R351). -/
def rekeyReqEffect (n : LinkId) (fz : Fuse) (d : Dev) : Dev :=
  let l := d.link n
  if l.state != .up || !l.hs.initiator || l.rekeying then d else d.startRekey fz n

/-! ### Messages in fragments (R347) -/

/-- What a whole message does, by its code. -/
def msgEffect (n : LinkId) (code : Nat) (c : Bytes) (fz : Fuse) (d : Dev) : Dev :=
  match code with
  | 1 =>
    if c.length != 44 then d.msgBad n
    else helloEffect n { version := BitVec.ofNat 16 (fieldAt c 0 2), serial := BitVec.ofNat 64 (fieldAt c 2 8),
                         role := BitVec.ofNat 8 (fieldAt c 10 1), reserved := BitVec.ofNat 8 (fieldAt c 11 1),
                         nonce := sliceAt c 12 32 } fz d
  | 2 => kemKeyEffect n c fz d
  | 3 => kemCtEffect n c fz d
  | 4 => certEffect n c fz d
  | 5 => sigEffect n c fz d
  | 6 => if c.length != 32 then d.msgBad n else finishedEffect n c fz d
  | 7 => rekeyKeyEffect n c fz d
  | 8 => rekeyCtEffect n c fz d
  | 9 => rekeyReqEffect n fz d
  | _ => d.msgBad n

/-- The fragment header and the order of fragments; a later fragment repeats FRAGS and LENGTH of the first, and REKEY_REQ is
empty. -/
def fragOk (h : Handshake) (b : Bytes) : Bool :=
  let code := fieldAt b 0 1
  let i := fieldAt b 1 1
  let k := fieldAt b 2 1
  let len := fieldAt b 4 2
  fieldAt b 3 1 == 0 && fieldAt b 6 2 == 0 && 1 ≤ k && k ≤ 16 && i < k && len ≤ 9088 && (len == 0) == (code == 9) &&
    k == max 1 (ceilDiv len 568) && allZero (b.drop (8 + (len - 568 * i))) &&
    (i == 0 || (h.frag.msg == code && h.frag.next == i && h.frag.count == k && h.frag.len == len))

/-- A fragment accepted in order: the last one delivers the message. -/
def fragEffect (n : LinkId) (b : Bytes) (fz : Fuse) (d : Dev) : Dev :=
  let l := d.link n
  if !fragOk l.hs b then (d.modLink n fun l => { l with hs := { l.hs with frag := {} } }).msgBad n
  else
    let i := fieldAt b 1 1
    let k := fieldAt b 2 1
    let so := (if i == 0 then [] else l.hs.frag.bytes) ++ sliceAt b 8 568
    if i + 1 == k then
      msgEffect n (fieldAt b 0 1) (so.take (fieldAt b 4 2)) fz (d.modLink n fun l => { l with hs := { l.hs with frag := {} } })
    else d.modLink n fun l => { l with hs := { l.hs with
      frag := { msg := fieldAt b 0 1, next := i + 1, count := k, len := fieldAt b 4 2, bytes := so } } }

/-! ### The commands -/

/-- A message can arrive: the link is in HANDSHAKE, or in UP for the rekey messages (R336). -/
def msgEnabled (n : LinkId) (st : LinkState) (d : Dev) : Bool := d.running && (d.link n).state == st

/-- HELLO (R347). -/
def execHello (n : LinkId) (h : Hello) (st : State) : Host.Outcome State Fault Refusal :=
  onEvent st (msgEnabled n .handshake) (helloEffect n h)

/-- KEM_KEY (R347). -/
def execKemKey (n : LinkId) (key : Bytes) (st : State) : Host.Outcome State Fault Refusal :=
  onEvent st (msgEnabled n .handshake) (kemKeyEffect n key)

/-- KEM_CT (R347). -/
def execKemCt (n : LinkId) (ct : Bytes) (st : State) : Host.Outcome State Fault Refusal :=
  onEvent st (msgEnabled n .handshake) (kemCtEffect n ct)

/-- CERT (R458). -/
def execCert (n : LinkId) (chain : Bytes) (st : State) : Host.Outcome State Fault Refusal :=
  onEvent st (msgEnabled n .handshake) (certEffect n chain)

/-- SIG (R348). -/
def execSig (n : LinkId) (signature : Bytes) (st : State) : Host.Outcome State Fault Refusal :=
  onEvent st (msgEnabled n .handshake) (sigEffect n signature)

/-- FINISHED (R348). -/
def execFinished (n : LinkId) (confirm : Bytes) (st : State) : Host.Outcome State Fault Refusal :=
  onEvent st (msgEnabled n .handshake) (finishedEffect n confirm)

/-- REKEY_KEY (R350). -/
def execRekeyKey (n : LinkId) (key : Bytes) (st : State) : Host.Outcome State Fault Refusal :=
  onEvent st (msgEnabled n .up) (rekeyKeyEffect n key)

/-- REKEY_CT (R350). -/
def execRekeyCt (n : LinkId) (ct : Bytes) (st : State) : Host.Outcome State Fault Refusal :=
  onEvent st (msgEnabled n .up) (rekeyCtEffect n ct)

/-- REKEY_REQ (R350). -/
def execRekeyReq (n : LinkId) (st : State) : Host.Outcome State Fault Refusal :=
  onEvent st (msgEnabled n .up) (rekeyReqEffect n)

/-- A limit of R350 has been reached: 2⁴⁰ frames of a direction, or 3,600 s under a key. -/
def rekeyDue (n : LinkId) (d : Dev) : Bool :=
  let l := d.link n
  d.running && l.state == .up && !l.rekeying &&
    (2 ^ 40 ≤ l.txCount || 2 ^ 40 ≤ l.rxCount || l.keySince + msN 3600000 ≤ d.now)

/-- The initiator starts a rekey, the responder asks for one. -/
def rekeyTriggerEffect (n : LinkId) (fz : Fuse) (d : Dev) : Dev :=
  if (d.link n).hs.initiator then d.startRekey fz n else d.modLink n fun l => l.say .rekeyReq []

/-- The limits of R350. -/
def execRekeyTrigger (n : LinkId) (st : State) : Host.Outcome State Fault Refusal :=
  onEvent st (rekeyDue n) (rekeyTriggerEffect n)

/-- A handshake has lasted 100 ms, a RETRAIN within it included, or a rekey has (R348, R350). -/
def handshakeLate (n : LinkId) (d : Dev) : Bool :=
  let l := d.link n
  d.running && l.hs.since + msN 100 ≤ d.now &&
    (l.state == .handshake || (l.state == .retrain && l.fromHs) || (l.state == .up && l.rekeying))

/-- The timeout makes the link DOWN. -/
def handshakeTimeoutEffect (n : LinkId) (fz : Fuse) (d : Dev) : Dev := (d.linkEvent n 0x6002 []).linkDown fz n

/-- HANDSHAKE_TIMEOUT (R348). -/
def execHandshakeTimeout (n : LinkId) (st : State) : Host.Outcome State Fault Refusal :=
  onEvent st (handshakeLate n) (handshakeTimeoutEffect n)

end Sys2Proof.Machine
end

