-- ==== Sys2Proof/Machine/LinkFrames.lean ====
section
/-!
DEFINITION. Training, frames and lanes of the fabric links (R336 to R346, R352, R353): the codewords and frames that are
sent and received, replay, lane retirement and the back-off of a link that is DOWN.
-/
namespace Sys2Proof.Machine

/-! ### Training (R338) -/

/-- PMD training ends: the lanes send ALIGN codewords. -/
def pmdEnabled (n : LinkId) (d : Dev) : Bool := d.running && (d.link n).state == .training && !(d.link n).pmdDone

def pmdEffect (n : LinkId) (_ : Fuse) (d : Dev) : Dev := d.modLink n fun l => { l with pmdDone := true, since := d.now }

/-- PMD_TRAINING_COMPLETE (R338). -/
def execPmdTrainingComplete (n : LinkId) (st : State) : Host.Outcome State Fault Refusal :=
  onEvent st (pmdEnabled n) (pmdEffect n)

/-- The link's lanes carry ALIGN codewords. -/
def Link.aligning (l : Link) : Bool := (l.state == .training && l.pmdDone) || l.state == .retrain

/-- A good ALIGN codeword: its lane locks, and it carries the peer's mask and lanes (R337, R338). -/
def Link.aligned (l : Link) (lane : Fin 8) (mask width : Byte) : Link :=
  { l with
    lanes := vmod l.lanes lane fun x => { x with locked := true }
    alignSeen := if l.peerMask == some mask then l.alignSeen + 1 else 1
    peerMask := some mask
    peerWidth := width.toNat }

/-- An ALIGN codeword after the FEC decode. In a link that aligns, one of a lane in service locks its lane and may complete the
alignment; one with other SYNC, MARK or reserved bytes counts for nothing. In a link that has taken frames of its peer since its
own alignment, it shows that the peer retrains: the link follows (R337, R338, R352). -/
def alignEffect (n : LinkId) (lane : Fin 8) (fec : FecResult) (h : CwHdr) (payload : Bytes) (fz : Fuse) (d : Dev) : Dev :=
  let l := d.link n
  let d := d.modLink n fun l => l.countFec lane fec h d.now
  if fec.isNone || !cwSync h || cwMark h != 1 || !allZero (payload.drop 2) || !l.lanes[lane].good then d
  else
    let mask := (payload[0]?).getD 0#8
    let width := (payload[1]?).getD 0#8
    if l.aligning then (d.modLink n fun l => l.aligned lane mask width).checkAlign fz n
    else if l.rxSlot.isSome then ((d.retrain fz n).modLink n fun l => l.aligned lane mask width).checkAlign fz n
    else d

/-- The lanes of the link carry codewords: it aligns, or has aligned. -/
def Link.hears (l : Link) : Bool := l.aligning || l.state == .handshake || l.state == .up

/-- ALIGN_CODEWORD (R337, R338): one that cannot be decoded, or whose MARK is not FRAME. -/
def execAlignCodeword (n : LinkId) (lane : Fin 8) (fec : FecResult) (h : CwHdr) (payload : Bytes) (st : State) :
    Host.Outcome State Fault Refusal :=
  onEvent st (fun d => d.running && (d.link n).hears && lane.val < d.linkLanes n && (fec.isNone || cwMark h != 0))
    (alignEffect n lane fec h payload)

/-- A lane has not locked for 100 ms. -/
def lockLate (n : LinkId) (lane : Fin 8) (d : Dev) : Bool :=
  let l := d.link n
  d.running && l.state == .training && l.pmdDone && lane.val < d.linkLanes n && !l.lanes[lane].locked && l.lanes[lane].good &&
    l.since + msN 100 ≤ d.now

/-- The lane is marked bad in the mask. -/
def lockTimeoutEffect (n : LinkId) (lane : Fin 8) (fz : Fuse) (d : Dev) : Dev :=
  let d := d.modLink n fun l => { l with lanes := vmod l.lanes lane fun x => { x with bad := true }, alignSent := 0 }
  let d := d.modLink n fun l => { l with mask := l.goodMask (d.linkLanes n) }
  d.checkAlign fz n

/-- LANE_LOCK_TIMEOUT (R338). -/
def execLaneLockTimeout (n : LinkId) (lane : Fin 8) (st : State) : Host.Outcome State Fault Refusal :=
  onEvent st (lockLate n lane) (lockTimeoutEffect n lane)

/-! ### Sending (R339 to R346) -/

/-- A NAK is due as the first frame of the next slot (R344). -/
def Link.nakNow (l : Link) : Bool := l.nakDue && l.slotStart

/-- The frame carries the last fragment of a message. -/
def lastFrag (b : Bytes) (m : HsMsg) : Bool := fieldAt b 0 1 == m.code && fieldAt b 1 1 + 1 == fieldAt b 2 1

/-- Send the next waiting fragment: FINISHED is the first encrypted frame; after REKEY_CT a responder takes its new key
(R347, R350). -/
def Link.sendFrag (l : Link) (b : Bytes) (now : Nat) : Link :=
  let l := if fieldAt b 0 1 == 6 then { l with txOn := true } else l
  let l := { l.emitNew .control [] b now with txFrags := l.txFrags.drop 1 }
  match l.txNew with
  | some k => if lastFrag b .rekeyCt then { l with txKey := k, txNew := none, keyEpoch := !l.keyEpoch, txCount := 0 } else l
  | none => l

/-- One frame of a link that is in HANDSHAKE or UP: NAK, replay, new CONTROL or DATA frame, or IDLE (R339, R343 to R346). -/
def sendFrame (n : LinkId) (fz : Fuse) (d : Dev) : Dev :=
  let d := d.modLink n fun l => l.enterReplay d.now
  let l := d.link n
  let idle : Dev := d.modLink n fun l => l.emit .idle 0#32 [] [] d.now
  if l.nakNow then
    d.modLink n fun l => { l.emit .nak 0#32 [] [] d.now with nakDue := false, nakAt := some d.now }
  else match l.replayFrom with
    | some r =>
      let d := d.modLink n fun l => l.emitReplay r d.now
      if ((d.link n).replay.head?.map fun e => decide (8 ≤ e.times)).getD false then d.retrain fz n else d
    | none =>
      if 256 ≤ l.replay.length then idle
      else match l.txFrags with
        | b :: _ => (d.modLink n fun l => l.sendFrag b d.now).tryUp fz n
        | [] =>
          if l.state == .up then
            let (d, fl) := Dev.takeFlits n 9 d
            if fl.isEmpty then idle else d.modLink n fun l => l.emitNew .data fl [] d.now
          else idle

/-- A link that sends: ALIGN codewords while it aligns, frames in HANDSHAKE and UP (R336). -/
def transmitEnabled (n : LinkId) (d : Dev) : Bool :=
  let l := d.link n
  d.running && (l.aligning || l.state == .handshake || l.state == .up)

def transmitEffect (n : LinkId) (fz : Fuse) (d : Dev) : Dev :=
  if (d.link n).aligning then (d.modLink n fun l => l.emitAlign (d.linkLanes n)).checkAlign fz n
  else sendFrame n fz d

/-- FRAME_TRANSMIT (R339). -/
def execFrameTransmit (n : LinkId) (st : State) : Host.Outcome State Fault Refusal :=
  onEvent st (transmitEnabled n) (transmitEffect n)

/-- Frames are unacknowledged without progress for 2 µs (R345). -/
def replayLate (n : LinkId) (d : Dev) : Bool :=
  let l := d.link n
  d.running && (l.state == .up || l.state == .handshake) && !l.replay.isEmpty && l.lastAckAt + usN 2 ≤ d.now

def replayTimeoutEffect (n : LinkId) (_ : Fuse) (d : Dev) : Dev :=
  d.modLink n fun l => { l.startReplay with lastAckAt := d.now }

/-- REPLAY_TIMEOUT (R345). -/
def execReplayTimeout (n : LinkId) (st : State) : Host.Outcome State Fault Refusal :=
  onEvent st (replayLate n) (replayTimeoutEffect n)

/-! ### Receiving (R341, R342) -/

/-- Logical lane of a physical lane. -/
def Link.logical (l : Link) (lane : Fin 8) : Option Nat := l.inUse.findIdx? (· == lane.val)

/-- Number of a frame in the order of sending, counted from the alignment, by the slot and the lane of its codeword: its slot
lies at most 16 codeword periods on from that of the next frame in order (R338, R339). A codeword that cannot be decoded stands
in the slot after the lane's last. The first frame after the alignment shows the slot of frame 0. DESIGN CHOICE, log entry 82. -/
def Link.frameIndex (l : Link) (f : Frame) : Option Nat :=
  let count := if f.fec.isNone then l.lanes[f.lane].cw + 1 else cwCount f.hdr
  (l.logical f.lane).bind fun k =>
    let ahead := (count - l.rxSlot.getD count).toNat
    let no := (l.rxNo / max 1 l.width + ahead) * max 1 l.width + k
    if ahead ≤ 16 && l.rxNo ≤ no && !l.rxHeld.any fun q => q.1 == no then some no else none

/-- A frame waits for its turn. -/
def Link.hold (l : Link) (no : Nat) (ft : FrameType) (f : Frame) : Link :=
  { l with
    rxSlot := some (l.rxSlot.getD (if f.fec.isNone then l.lanes[f.lane].cw + 1 else cwCount f.hdr))
    rxHeld := (no, ft, f) :: l.rxHeld }

/-- The next frame in order, if it has come: it leaves those that wait, and the last lane's ends the slot (R339). -/
def Link.nextHeld (l : Link) : Option (Link × FrameType × Frame) :=
  (l.rxHeld.find? fun q => q.1 == l.rxNo).map fun q =>
    ({ l with
       rxHeld := l.rxHeld.filter fun q => q.1 != l.rxNo
       rxNo := l.rxNo + 1
       rxSlot := if (l.rxNo + 1) % max 1 l.width == 0 then l.rxSlot.map (· + 1) else l.rxSlot }, q.2.1, q.2.2)

/-- Reserved fields and encodings of a frame and its codeword header (R337, R340). -/
def frameFormed (ft : FrameType) (f : Frame) : Bool :=
  cwMark f.hdr == 0 && f.ftype.toNat == ft.code && f.flags.toNat < 4 && f.flitMask.toNat < 512 && bvFld f.flitVc 27 5 == 0 && f.reserved == 0#80 &&
    ((List.range 9).all fun i => bvFld f.flitVc (3 * i) 3 ≤ 4) &&
    (ft == .data || f.flitMask == 0#16) && (ft == .data || ft == .control || f.seq == 0#32) &&
    (f.flags.getLsbD 1 || allZero f.tag)

/-- Bytes 0 to 43 of a received frame. -/
def frameHeadOf (f : Frame) : Bytes :=
  frameHead f.ftype.toNat f.flags.toNat f.flitMask.toNat f.flitVc.toNat f.seq.toNat f.ack.toNat f.credit f.txCount.toNat
    f.reserved.toNat

/-- The CRC of a received frame is that of its bytes 0 to 635 (R340). -/
def frameCrcOk (f : Frame) : Bool := f.crc == crc32 (frameHeadOf f ++ f.slots ++ f.tag)

/-- The receive key of the frame's epoch (R350). -/
def Link.rxKeyOf (l : Link) (epoch : Bool) : Option Bytes :=
  if epoch == l.rxEpoch then (if l.rxKey.isEmpty then none else some l.rxKey) else l.rxNew

/-- The slots of a frame whose tag passes. -/
def Link.openFrame (l : Link) (f : Frame) : Option Bytes :=
  if !f.flags.getLsbD 1 then some f.slots
  else match l.rxKeyOf (f.flags.getLsbD 0) with
    | some k => Config.gcmOpen k (frameIv f.txCount.toNat) (frameHeadOf f) f.slots f.tag
    | none => none

/-- The first frame of a new epoch completes a rekey (R350). -/
def Link.tookEpoch (l : Link) (f : Frame) (now : Nat) : Link :=
  let l := if f.flags.getLsbD 1 then { l with rxCount := f.txCount.toNat } else l
  match l.rxNew with
  | some k =>
    if f.flags.getLsbD 1 && f.flags.getLsbD 0 != l.rxEpoch then
      { l with rxKey := k, rxNew := none, rxEpoch := f.flags.getLsbD 0, rekeying := false, rekeys := l.rekeys.inc now,
               keySince := now }
    else l
  | none => l

/-- The frame is not admitted in the link's state: counted with the tag failures (R341). -/
def Link.notAdmitted (l : Link) (ft : FrameType) (f : Frame) : Bool :=
  (l.state == .up && !f.flags.getLsbD 1) || (l.state == .handshake && ft == .data)

/-- The used flits of a DATA frame. -/
def frameFlits (f : Frame) (slots : Bytes) : List (Nat × Bytes) :=
  ((List.range 9).filter fun i => f.flitMask.getLsbD i).map fun i => (bvFld f.flitVc (3 * i) 3, sliceAt slots (64 * i) 64)

/-- A good DATA or CONTROL frame by its SEQ: accepted, a duplicate, or after a gap (R342). -/
def acceptFrame (n : LinkId) (ft : FrameType) (f : Frame) (slots : Bytes) (fz : Fuse) (d : Dev) : Dev :=
  let l := d.link n
  if f.seq == l.expected then
    let d := d.modLink n fun l => { l with expected := l.expected + 1, rxFrames := satInc l.rxFrames }
    if ft == .data then d.modLink n fun l => { l with rxFlits := l.rxFlits ++ frameFlits f slots }
    else fragEffect n slots fz d
  else if seqDist f.seq l.expected ≤ 256 then d
  else d.modLink n fun l => l.askReplay d.now

/-- A tag failure: the third within 1 s makes the link QUARANTINED (R342, R349). -/
def Dev.tagFailed (d : Dev) (fz : Fuse) (n : LinkId) : Dev :=
  let d := d.modLink n fun l => { l with
    tagFail := l.tagFail.inc d.now
    tagFailAt := d.now :: within d.now (msN 1000) l.tagFailAt }
  if 3 ≤ (d.link n).tagFailAt.length then d.quarantine fz n 0x6003 else d.modLink n fun l => l.askReplay d.now

/-- A frame whose turn has come, checked in the order of R342. -/
def takeFrame (n : LinkId) (ft : FrameType) (f : Frame) (fz : Fuse) (d : Dev) : Dev :=
  let l := d.link n
  if f.fec.isNone then d.modLink n fun l => l.askReplay d.now
  else if !frameCrcOk f || !frameFormed ft f || some (cwLane f.hdr) != l.logical f.lane then
    d.modLink n fun l => { l with crcErr := l.crcErr.inc d.now }.askReplay d.now
  else if l.ackBad f.ack then (d.modLink n fun l => { l with crcErr := l.crcErr.inc d.now }).linkDown fz n
  else if l.notAdmitted ft f then d.modLink n fun l => { l with tagFail := l.tagFail.inc d.now }
  else match l.openFrame f with
    | none => d.tagFailed fz n
    | some slots =>
      let d := d.modLink n fun l => (l.tookEpoch f d.now).apply f.ack f.credit d.now
      match ft with
      | .idle => d
      | .nak => d.modLink n fun l => l.startReplay
      | .data | .control => acceptFrame n ft f slots fz d

/-- Frames are taken while the link is in HANDSHAKE or UP (R336). -/
def Link.takes (l : Link) : Bool := l.state == .handshake || l.state == .up

/-- The frames that have come are taken in order, up to the first that is missing (R339). -/
def Dev.takeHeld (n : LinkId) (fz : Fuse) : Nat → Dev → Dev
  | 0, d => d
  | k + 1, d =>
    if !(d.link n).takes then d
    else match (d.link n).nextHeld with
      | none => d
      | some (l, ft, f) => Dev.takeHeld n fz k (takeFrame n ft f fz (d.modLink n fun _ => l))

/-- A codeword that carries a frame. The FEC decode is counted. In a link that aligns it does nothing more; one whose SYNC is
another costs the lane its lock; one that no lane and slot places in the order of frames means that alignment is lost (R333,
R338, R339, R352, R354). -/
def receiveFrame (n : LinkId) (ft : FrameType) (f : Frame) (fz : Fuse) (d : Dev) : Dev :=
  let l := d.link n
  let d := d.modLink n fun l => l.countFec f.lane f.fec f.hdr d.now
  if !l.takes || (l.logical f.lane).isNone then d
  else if f.fec.isSome && !cwSync f.hdr then d.modLink n fun l => l.unlock f.lane
  else match l.frameIndex f with
    | none => d.realign fz n
    | some no => Dev.takeHeld n fz (l.rxHeld.length + 1) (d.modLink n fun x =>
        { x with rxSlot := (l.hold no ft f).rxSlot, rxHeld := (l.hold no ft f).rxHeld })

/-- The row of a type takes a frame of its FTYPE, one of an FTYPE that is malformed, and one that cannot be decoded (R340). -/
def typeFits (ft : FrameType) (f : Frame) : Bool := f.fec.isNone || f.ftype.toNat == ft.code || 4 ≤ f.ftype.toNat

/-- A codeword with a frame comes in on a lane of the link; one that is decoded has MARK FRAME or a malformed MARK (R337). -/
def receiveEnabled (n : LinkId) (ft : FrameType) (f : Frame) (d : Dev) : Bool :=
  d.running && (d.link n).hears && f.lane.val < d.linkLanes n && typeFits ft f && (f.fec.isNone || cwMark f.hdr != 1)

/-- IDLE frame (R342). -/
def execIdleFrame (n : LinkId) (f : Frame) (st : State) : Host.Outcome State Fault Refusal :=
  onEvent st (receiveEnabled n .idle f) (receiveFrame n .idle f)

/-- DATA frame (R342). -/
def execDataFrame (n : LinkId) (f : Frame) (st : State) : Host.Outcome State Fault Refusal :=
  onEvent st (receiveEnabled n .data f) (receiveFrame n .data f)

/-- NAK frame (R345). -/
def execNakFrame (n : LinkId) (f : Frame) (st : State) : Host.Outcome State Fault Refusal :=
  onEvent st (receiveEnabled n .nak f) (receiveFrame n .nak f)

/-- CONTROL frame (R342). -/
def execControlFrame (n : LinkId) (f : Frame) (st : State) : Host.Outcome State Fault Refusal :=
  onEvent st (receiveEnabled n .control f) (receiveFrame n .control f)

/-! ### Lanes and back-off (R352, R353) -/

/-- A lane meets a condition of R352 within the last second: more than 2 × 10⁻⁴ of the symbols of its codewords, 544 each,
corrected; four codewords uncorrectable; or SYNC lock lost. -/
def Lane.fails (x : Lane) (cause : LaneCause) (now : Nat) : Bool :=
  let r := x.recent.filter fun q => now < q.1 + msN 1000
  match cause with
  | .symbolErrors => 2 * 544 * r.length < 10000 * sumNat (r.map fun q => q.2.getD 0)
  | .uncorrectable => 4 ≤ (r.filter fun q => q.2.isNone).length
  | .lostSync => true

/-- A lane in service meets the condition; its loss of SYNC lock may be what a codeword has shown. -/
def retireLaneEnabled (n : LinkId) (lane : Fin 8) (cause : LaneCause) (d : Dev) : Bool :=
  let l := d.link n
  d.running && l.lanes[lane].fails cause d.now && (l.state == .up || l.state == .handshake || l.state == .retrain) && lane.val < d.linkLanes n &&
    l.lanes[lane].good && (l.lanes[lane].locked || cause == .lostSync)

/-- The lane is retired and the link retrains without it (R352, R498); the loss of its SYNC lock in HANDSHAKE is the loss of
alignment of R348. -/
def retireLaneEffect (n : LinkId) (lane : Fin 8) (cause : LaneCause) (fz : Fuse) (d : Dev) : Dev :=
  let lanes := d.linkLanes n
  let d := d.modLink n fun l => { l with lanes := vmod l.lanes lane fun x => { x with
    retired := true, locked := x.locked && cause != .lostSync } }
  let w := widthOf lanes ((d.link n).common lanes).length
  let d := d.linkEvent n 0x6005 [lane.val, w]
  let d := d.modLink n fun l => { l with mask := l.goodMask lanes, alignSent := 0 }
  let d := if (d.link n).state == .retrain then d else if cause == .lostSync then d.realign fz n else d.retrain fz n
  d.health

/-- LANE_RETIRE (R352). -/
def execLaneRetire (n : LinkId) (lane : Fin 8) (cause : LaneCause) (st : State) : Host.Outcome State Fault Refusal :=
  onEvent st (retireLaneEnabled n lane cause) (retireLaneEffect n lane cause)

/-- The back-off of a link in DOWN has passed: 1 s, then 2 s, 4 s and so on, up to 64 s. -/
def downRetryEnabled (n : LinkId) (d : Dev) : Bool :=
  let l := d.link n
  d.running && l.state == .down && d.linkWanted n && l.since + msN 1000 * l.backoff ≤ d.now

def downRetryEffect (n : LinkId) (fz : Fuse) (d : Dev) : Dev :=
  (((d.modLink n fun l => { l with backoff := min 64 (2 * l.backoff) }).startTraining n).reportUp fz.serial).health

/-- DOWN_RETRY (R353). -/
def execDownRetry (n : LinkId) (st : State) : Host.Outcome State Fault Refusal :=
  onEvent st (downRetryEnabled n) (downRetryEffect n)

/-! ### The owner's setting of a link (R353, R434) -/

/-- The other link of the port. -/
def otherLink (n : LinkId) : LinkId := if n.val % 2 == 0 then n + 1 else n - 1

/-- The port takes its split from the owner setting (R332). -/
def Dev.takeSplit (d : Dev) (p : Nat) : Dev :=
  (fins 16).foldl (fun d n =>
    if n.val / 2 == p then d.modLink n fun l => { l with
      cfg := BitVec.ofNat 32 (setFld l.cfg.toNat 4 1 (d.settingSplit p).toNat) } else d) d

/-- The link leaves its state for DISABLED, or for TRAINING under the new setting. Where that enables the port, whose other
link is not enabled, the port's split setting takes effect (R332). -/
def Dev.linkSet (d : Dev) (fz : Fuse) (n : LinkId) (cfg : Nat) : Dev :=
  let old := (d.link n).state
  let d := (d.loseFlits n).modLink n fun l =>
    { l.fresh .disabled d.now with cfg := BitVec.ofNat 32 (setFld l.cfg.toNat 0 4 cfg), backoff := 1 }
  let d := if bitOf cfg 0 && !(d.link (otherLink n)).enabled then d.takeSplit (n.val / 2) else d
  let d := d.linkLeft fz n old
  if d.linkWanted n then ((d.startTraining n).reportUp fz.serial).health else d

/-- At bring-up the enabled links begin training under their owner settings (R332, R532). -/
def Dev.bringUpLink (d : Dev) (n : LinkId) : Dev :=
  let cfg := (d.setting (0x10 + n.val)).getD 0
  let d := (d.takeSplit (n.val / 2)).modLink n fun l => { l with cfg := BitVec.ofNat 32 (setFld l.cfg.toNat 0 4 cfg) }
  if d.linkWanted n then d.startTraining n else d

end Sys2Proof.Machine
end

