-- ==== Sys2Proof/Machine/Image.lean ====
section
/-!
DEFINITION. Loading an image (R297 to R306): the start of a load, its stages, failure and delivery, the commit, and what
the lead of a hitch passes on.
-/
namespace Sys2Proof.Machine

/-! ### Loads -/

/-- The load proceeds: its operation is RUNNING or SUSPENDING, and no commit has been sent. -/
def Dev.loading (d : Dev) (slot : Fin 64) : Option ImageLoad :=
  let o := d.op slot
  if d.worvis && o.live && (o.state == .running || o.state == .suspending) then
    (d.loadOf slot).bind fun l => if l.committing then none else some l
  else none

/-- The image's bytes that have arrived in order: of a hitch container, the lead's own sub-image. -/
def ImageLoad.img (l : ImageLoad) : Bytes :=
  if l.hitch then (l.data.drop 64).take (conLen l.data 0) else l.data

/-- Length that the header's IMAGE_BYTES must equal (R288). -/
def ImageLoad.imgBytes (l : ImageLoad) : Nat := if l.hitch then conLen l.data 0 else l.bytes

/-! ### Tile banks (R302, R307) -/

/-- Channel, queue and rank registers from the active bank (R302). -/
def Tile.bankRegs (t : Tile) : Tile :=
  let b := t.active
  { t with
    ctl := { t.ctl with rank := b.rank }
    chans := Vector.ofFn fun i : Fin 64 => { t.chans[i] with cfg := BitVec.ofNat 64 (fieldAt b.channels (8 * i.val) 8) }
    queues := Vector.ofFn fun i : Fin 32 => { t.queues[i] with cfg := BitVec.ofNat 16 (fieldAt b.channels (512 + 2 * i.val) 2) } }

/-- Pass sites that a site's tile hosts. -/
def Dev.hostedAt (d : Dev) (s : SiteId) : List (SiteId × Nat) :=
  ((((d.padOf s).bind d.pad).bind (·.image)).map fun im => im.hosted (d.tileNum s)).getD []

/-- The live walker's bound on every tile of a paddock follows its image (R308, R312). -/
def Dev.setBounds (d : Dev) (k : PadId) : Dev :=
  match d.pad k with
  | some p => p.sites.foldl (fun d s => d.modTile s fun t => { t with scrub := t.scrub.setBound (d.hostedAt s).length }) d
  | none => d

/-- Every unit position empty, links OFF, generation 0 (R225, R302). -/
def Tile.emptyGrid (t : Tile) : Tile :=
  { t with
    ctl := { t.ctl with cfgGen := 0#16 }
    grid := t.grid.map fun q => { q with cfg := 0#1024, switch := 0#16 } }

/-- What the commit does on a tile (R302). -/
def Tile.commitImage (t : Tile) : Tile :=
  let had := t.ctl.image
  let a := 1 - t.ctl.activeIdx
  let t := { t with ctl := { t.ctl with
    cfgBank := BitVec.ofNat 8 (a + 2 * (if had then 3 else 0) + 8), imageTag := (vgetN t.banks a {}).tag } }
  t.bankRegs.emptyGrid

/-- The RETAINED bank is active again and its registers are rewritten; `had` says that it holds a usable image (R302). -/
def Tile.revertImage (t : Tile) : Tile :=
  let had := t.ctl.shadow == 3
  let a := 1 - t.ctl.activeIdx
  let t := { t with ctl := { t.ctl with
    cfgBank := BitVec.ofNat 8 (a + 8 * had.toNat), imageTag := if had then (vgetN t.banks a {}).tag else 0#64 } }
  let t := t.bankRegs
  { t with banks := vsetN t.banks (1 - a) {} }

/-! ### The start of a load (R297) -/

/-- On every tile: valid bits and inbound queues cleared, the shadow bank EMPTY; staging then begins. -/
def Dev.startLoad (d : Dev) (k : PadId) : Dev :=
  match d.pad k with
  | none => d
  | some p =>
    let d := d.forSites p.sites fun t =>
      let t := t.shadowEmpty
      { t with
        spad := t.spad.invalidate
        queues := t.queues.map fun q => { q with entries := [] }
        ctl := t.ctl.setShadow 1 }
    d.modPad k fun p => { p with retained := none }

/-- A hitch load fails with the position that it names (R305). -/
def Dev.failHitch (d : Dev) (slot : Fin 64) (code pos : Nat) : Dev :=
  (d.endLoad slot .failed code).modOp slot fun o => { o with position := some pos }

/-! ### Which checks can run (R298, R299) -/

/-- Failures of the container header on a lead (R303). -/
def containerFails (size bytes : Nat) (c : Bytes) : List (Nat × Nat) :=
  failAt (sliceAt c 0 4 != [0x46#8, 0x4C#8, 0x45#8, 0x56#8]) 0 0x5002 ++ failAt (containerOk size bytes c) 0 0x5003

/-- Stage 1 can run: of a hitch container, as soon as its header fails, else with the header of the lead's sub-image. -/
def ImageLoad.headReady (l : ImageLoad) : Bool :=
  if l.hitch then
    64 ≤ l.data.length && (!(containerFails l.count l.bytes l.data).isEmpty || 256 ≤ l.img.length)
  else 256 ≤ l.img.length

/-- Positions of the sections of a tile. -/
def tileSecs (img : Bytes) (n : Nat) : List Nat :=
  ((secsOf img).zipIdx.filter fun p => p.1.kind < 0x10 && p.1.tile == n).map (·.2)

/-- Checks that can run now and have not, each with its stage and the lowest byte that it can name. A tile's check waits for the
RANKS body, which the table lists second (R291, R301). The security version
is held against the signer's floor once the signature block has arrived: its failure counts as stage 1, byte 32. -/
def ImageLoad.ready (l : ImageLoad) : List (Nat × Nat) :=
  let img := l.img
  let here (n : Nat) : Bool := n ≤ img.length
  if !l.passed.contains 1 then (if l.headReady then [(1, 0)] else [])
  else
    let secs := (secsOf img).zipIdx
    let checked (i : Nat) : Bool := l.bodies.any fun b => b.1 == i
    (if !l.passed.contains 2 && here (keyOff img) then [(2, 256)] else []) ++
    (if imSealed img && !l.passed.contains 3 && here (sigOff img) then [(3, keyOff img)] else []) ++
    (if !l.passed.contains 4 && here (bodiesOff img) then [(1, 32)] else []) ++
    (if l.passed.contains 2 && (!imSealed img || l.imageKey.isSome) then
      (secs.filter fun p => !checked p.2 && here (p.1.off + pad64 p.1.len)).map fun p => (5, p.1.off)
     else []) ++
    (if l.passed.contains 2 then
      ((List.range (imTiles img)).filter fun n => !l.tiles.contains n && checked 1 && (tileSecs img n).all checked).map fun n => (6, n)
     else []) ++
    (if l.passed.contains 2 && l.passed.contains 4 && secs.all (fun p => checked p.2) &&
        (List.range (imTiles img)).all l.tiles.contains && !l.passed.contains 7 then [(7, 0)] else [])

def before (a b : Nat × Nat) : Bool := a.1 < b.1 || (a.1 == b.1 && a.2 < b.2)

/-- The checks that could still name an earlier failure. -/
def ImageLoad.todo (l : ImageLoad) : List (Nat × Nat) :=
  match l.failure with
  | none => l.ready
  | some f => l.ready.filter fun r => before r (f.1, f.2.1)

/-- Note a failure where it comes before the one held. -/
def ImageLoad.fail (l : ImageLoad) (stage byte code : Nat) : ImageLoad :=
  match l.failure with
  | some f => if before (stage, byte) (f.1, f.2.1) then { l with failure := some (stage, byte, BitVec.ofNat 16 code) } else l
  | none => { l with failure := some (stage, byte, BitVec.ofNat 16 code) }

/-- The load ends FAILED as soon as its result is decided. -/
def Dev.decideLoad (d : Dev) (slot : Fin 64) : Dev :=
  match d.loadOf slot with
  | some l => match l.failure with
    | some f => if l.todo.isEmpty then d.endLoad slot .failed f.2.2.toNat else d
    | none => d
  | none => d

/-- Run a check: its failure, where it has one, or what it leaves. -/
def Dev.checked (d : Dev) (slot : Fin 64) (stage : Nat) (fails : Option (Nat × Nat)) (f : ImageLoad → ImageLoad) : Dev :=
  let d := d.modLoad slot fun l => match fails with
    | some x => (f l).fail stage x.1 x.2
    | none => f l
  d.decideLoad slot

/-- A check of the named stage can run. -/
def loadEnabled (slot : Fin 64) (key : ImageLoad → Nat × Nat) (d : Dev) : Bool :=
  match d.loading slot with
  | some l => l.todo.contains (key l)
  | none => false

/-- Change the load with its current contents. -/
def withLoad (slot : Fin 64) (f : ImageLoad → Dev → Dev) (d : Dev) : Dev :=
  match d.loadOf slot with
  | some l => f l d
  | none => d

/-! ### Stages 1 to 4 -/

/-- What stage 1 knows (R253, R298). -/
def Dev.headerEnv (d : Dev) (fz : Fuse) (k : PadId) (bytes : Nat) : HeaderEnv :=
  let p := d.pad k
  let c := (p.map Paddock.block).getD {}
  { variantL := fz.variantL, serial := fz.serial, inHitch := d.inHitch, tiles := (p.map fun q => q.tiles.length).getD 0,
    bars := c.barCount, works := c.workCount, sealed_ := (d.seals[k]).sealed_, bytes := bytes }

/-- Pieces in which a lead sends a sub-image on, so that a packet's payload holds each (R304, R366). DESIGN CHOICE, log entry 48. -/
def hitchPiece : Nat := 2048

/-- Sub-images whose headers have arrived are checked, and those that have arrived whole are passed on to their members (R304). -/
def Dev.passOn (d : Dev) (slot : Fin 64) : Dev :=
  match d.loadOf slot, d.hitch with
  | some l, some h =>
    if !l.hitch || !l.passed.contains 1 || l.failure.isSome then d
    else d.members.foldl (fun d q =>
      let sub := sliceAt l.data (conOff l.data q) (conLen l.data q)
      if sub.length < 256 || (h.ends.any fun e => e.1 == q) || (d.loadOf slot).isNone then d
      else if !subHeaderOk d.hitchSize q h.jobId sub then d.endLoad slot .failed 0x5009
      else if fieldAt sub 8 8 != conLen l.data q then d.endLoad slot .failed 0x5003
      else if l.data.length < conOff l.data q + conLen l.data q then d
      else
        let d := d.sendHitch q .loadBegin h.jobId 0 (leBytes 4 sub.length)
        let d := ((List.range (ceilDiv sub.length hitchPiece)).map fun i => sliceAt sub (hitchPiece * i) hitchPiece).foldl (fun d x => d.sendHitch q .data h.jobId 0 x) d
        let d := d.sendHitch q .loadEnd h.jobId 0 []
        { d with hitch := d.hitch.map fun h => { h with ends := h.ends ++ [(q, d.now)] } }) d
  | _, _ => d

/-- Stage 1; a lead's container header first. A lead then passes the other sub-images on. -/
def headerEffect (slot : Fin 64) (fz : Fuse) : Dev → Dev :=
  withLoad slot fun l d =>
    let con := if l.hitch then containerFails l.count l.bytes l.data else []
    let own := con ++ headerFails (d.headerEnv fz l.pad l.imgBytes) l.img ++
      (if l.hitch then failAt (subHeaderOk d.hitchSize 0 (imJob l.img) l.img) 36 0x5009 else [])
    let d := if l.hitch && (lowest own).isNone then { d with hitch := some { jobId := imJob l.img } } else d
    (d.checked slot 1 (if con.isEmpty then lowest own else lowest con) fun l => { l with passed := 1 :: l.passed }).passOn slot

/-- LOAD_HEADER_CHECK (R298). -/
def execLoadHeaderCheck (slot : Fin 64) (st : State) : Host.Outcome State Fault Refusal :=
  onEvent st (loadEnabled slot fun _ => (1, 0)) (headerEffect slot)

/-- Stage 2. -/
def tableEffect (slot : Fin 64) (_ : Fuse) : Dev → Dev :=
  withLoad slot fun l d =>
    d.checked slot 2 (if tableOk l.img then none else some (256, 0x5003)) fun l => { l with passed := 2 :: l.passed }

/-- SECTION_TABLE_CHECK (R298). -/
def execSectionTableCheck (slot : Fin 64) (st : State) : Host.Outcome State Fault Refusal :=
  onEvent st (loadEnabled slot fun _ => (2, 256)) (tableEffect slot)

/-- Stage 3. -/
def wrappedKeyEffect (slot : Fin 64) (fz : Fuse) : Dev → Dev :=
  withLoad slot fun l d =>
    let f := lowest (keyFails fz l.img)
    d.checked slot 3 f fun l => { l with passed := 3 :: l.passed, imageKey := if f.isNone then imKey fz l.img else none }

/-- WRAPPED_KEY_CHECK (R298). -/
def execWrappedKeyCheck (slot : Fin 64) (st : State) : Host.Outcome State Fault Refusal :=
  onEvent st (loadEnabled slot fun l => (3, keyOff l.img)) (wrappedKeyEffect slot)

/-- Stage 4, and the SVN check of stage 1, which names the signer. -/
def signatureEffect (slot : Fin 64) (fz : Fuse) : Dev → Dev :=
  withLoad slot fun l d =>
    let d := if d.svnLow fz l.img then d.modLoad slot fun l => l.fail 1 32 0x5008 else d
    d.checked slot 4 (lowest (d.sigFails fz l.img)) fun l => { l with passed := 4 :: l.passed }

/-- SIGNATURE_CHECK (R298). -/
def execSignatureCheck (slot : Fin 64) (st : State) : Host.Outcome State Fault Refusal :=
  onEvent st (loadEnabled slot fun _ => (1, 32)) (signatureEffect slot)

/-! ### Stages 5 to 7 -/

/-- The configuration port of a tile stages into its shadow bank, and the scrubber's access moves on from its cycle (R301, R309). -/
def Dev.stageBank (d : Dev) (s : SiteId) (f : Bank → Bank) : Dev :=
  d.modTile s fun t => { t with banks := vmodN t.banks (1 - t.ctl.activeIdx) f, portAt := some d.now }

/-- Stage 5 for one body: staged into the shadow bank of its tile. -/
def bodyEffect (slot : Fin 64) (sec : Nat) (_ : Fuse) : Dev → Dev :=
  withLoad slot fun l d =>
    let s := secOf l.img sec
    match bodyCheckOf l.img l.imageKey sec with
    | .error c => d.checked slot 5 (some (s.off, c)) fun l => { l with bodies := setKey sec [] l.bodies }
    | .ok b =>
      let d := match d.tileSite l.pad s.tile with
        | some site => if s.kind < 0x10 then d.stageBank site fun x => x.put s.kind s.idx b else d
        | none => d
      d.checked slot 5 none fun l => { l with bodies := setKey sec b l.bodies }

/-- BODY_CHECK (R298). -/
def execBodyCheck (slot : Fin 64) (sec : Nat) (st : State) : Host.Outcome State Fault Refusal :=
  onEvent st (loadEnabled slot fun l => (5, if sec < imSections l.img then (secOf l.img sec).off else 0)) (bodyEffect slot sec)

/-- The paddock has a striped space (R195). -/
def Dev.padStriped (d : Dev) (k : PadId) : Bool :=
  match (d.pad k).bind fun p => p.sites.head? with
  | some s => bvFld (d.tile s).ctl.stripeCfg 0 6 != 0
  | none => false

/-- Stage 6 for one tile; its bank then holds rank and tag. -/
def tileCheckEffect (slot : Fin 64) (n : Nat) (_ : Fuse) : Dev → Dev :=
  withLoad slot fun l d =>
    let b := imBank l.img l.bodies n
    let d := match d.tileSite l.pad n with
      | some site => d.stageBank site fun _ => b
      | none => d
    d.checked slot 6 (if b.tileOk (d.padStriped l.pad) then none else some (n, 0x5003)) fun l => { l with tiles := insertNat n l.tiles }

/-- TILE_CHECK (R298). -/
def execTileCheck (slot : Fin 64) (tile : Nat) (st : State) : Host.Outcome State Fault Refusal :=
  onEvent st (loadEnabled slot fun _ => (6, tile)) (tileCheckEffect slot tile)

/-- A site can carry pass-through for a paddock (R300). -/
def Dev.passSite (d : Dev) (k : PadId) (s : SiteId) : Bool :=
  (d.kinds[s] == .darkRemount || d.kinds[s] == .retired) && ((d.pad k).map fun p => p.pass.contains s).getD false

/-- The pass sites of an image on a paddock, or the code of stage 7's failure. -/
def Dev.imageFits (d : Dev) (k : PadId) (img : Bytes) (bodies : List (Nat × Bytes)) : Except Nat (List (SiteId × Nat)) :=
  let geo := (lookupNat 0 bodies).getD []
  let n := imTiles img
  let sites := (List.range n).filterMap fun i => d.tileSite k i
  match placement geo n sites (d.passSite k) with
  | none => .error 0x5007
  | some pass => if acrossOk ((List.range n).map (imBank img bodies)) sites pass then .ok pass else .error 0x5003

/-- Stage 7: the shadow banks are VERIFIED. -/
def imageCheckEffect (slot : Fin 64) (_ : Fuse) : Dev → Dev :=
  withLoad slot fun l d =>
    match d.imageFits l.pad l.img l.bodies with
    | .error c => d.checked slot 7 (some (0, c)) fun l => { l with passed := 7 :: l.passed }
    | .ok _ =>
      let d := d.forSites (((d.pad l.pad).map (·.sites)).getD []) fun t => { t with ctl := t.ctl.setShadow 2 }
      let d := d.checked slot 7 none fun l => { l with passed := 7 :: l.passed }
      if l.hitch then { d with hitch := d.hitch.map fun h => { h with verified := true } } else d

/-- IMAGE_CHECK (R300). -/
def execImageCheck (slot : Fin 64) (st : State) : Host.Outcome State Fault Refusal :=
  onEvent st (loadEnabled slot fun _ => (7, 0)) (imageCheckEffect slot)

/-! ### Delivery (R299, R403) -/

/-- The delivery ends early, every check whose bytes have arrived has run, and none has failed. -/
def endsEarly (slot : Fin 64) (d : Dev) : Bool :=
  match d.loading slot with
  | some l => l.ended && l.data.length < l.bytes && l.failure.isNone && l.ready.isEmpty
  | none => false

/-- IMAGE_DELIVERY_END (R299). -/
def execImageDeliveryEnd (slot : Fin 64) (st : State) : Host.Outcome State Fault Refusal :=
  onEvent st (endsEarly slot) fun _ d => d.endLoad slot .failed 0x5001

/-- Later pieces that now follow the bytes in order are joined to them. -/
def joinLater : Nat → Bytes → List (Nat × Bytes) → Bytes × List (Nat × Bytes)
  | 0, data, later => (data, later)
  | fuel + 1, data, later =>
    match later.find? fun p => p.1 == data.length with
    | some p => joinLater fuel (data ++ p.2) (eraseFirst (fun q => q.1 == data.length) later)
    | none => (data, later)

/-- Bytes of the stream are placed by their offset (R403). -/
def ImageLoad.deliver (l : ImageLoad) (off : Nat) (bs : Bytes) : ImageLoad :=
  let r := joinLater (l.later.length + 2) l.data (setKey off bs l.later)
  { l with data := r.1, later := r.2 }

/-! ### The commit (R254, R302) -/

/-- CAR_BAR_CFG of a barrier of an image (R254). -/
def barCfg (target : Nat) (spanning : Bool) (brand : BitVec 16) (k : PadId) (enabled : Bool) : BitVec 128 :=
  BitVec.ofNat 128 (target + (if spanning then 2 ^ 29 else 0) + brand.toNat * 2 ^ 48 + k.val * 2 ^ 64 + (if enabled then 2 ^ 68 else 0))

/-- Free the spanning slots that a paddock holds (R430). -/
def Dev.freeSpans (d : Dev) (k : PadId) : Dev :=
  match d.pad k with
  | none => d
  | some p =>
    let d := p.spanned.foldl (fun d x => { d with car := { d.car with spans := vsetN d.car.spans x.2 [] } }) d
    d.modPad k fun p => { p with spanned := [] }

/-- A barrier of a paddock's block under a new image: one that the image has starts anew, its count of releases kept; the
others are not enabled (R254, R260). -/
def CarBarrier.forImage (q : CarBarrier) (bar : Option (Nat × Bool)) (brand : BitVec 16) (k : PadId) : CarBarrier :=
  match bar with
  | some x => { cfg := barCfg x.1 x.2 brand k (!x.2), state := BitVec.ofNat 64 (q.releases * 2 ^ 32) }
  | none => { q with cfg := barCfg 0 false 0#16 k false }

/-- The yardmaster configures the paddock's barriers for an image, BRAND from FAB_BRAND (R254). -/
def Dev.setBarriers (d : Dev) (k : PadId) (bars : List (Nat × Bool)) : Dev :=
  match d.pad k with
  | none => d
  | some p =>
    let c := p.block
    let brand := BitVec.ofNat 16 ((vgetN d.fab.brands k.val 0#32).toNat % 2 ^ 16)
    let d := d.freeSpans k
    let d := (List.range c.barCount).foldl (fun d b =>
      { d with car := { d.car with bars := vmodN d.car.bars (c.barBase + b) fun q => q.forImage bars[b]? brand k } }) d
    d.forSites p.sites fun t => { t with
      ctl := (List.range bars.length).foldl (fun x b => x.setEpisode (c.barBase + b) 0#2) t.ctl }

/-- What the yardmaster keeps of an image (R254, R293). -/
def imInfo (img : Bytes) (bodies : List (Nat × Bytes)) (pass : List (SiteId × Nat)) : ImageInfo :=
  { tag := BitVec.ofNat 64 (fieldAt img (sigOff img + 32) 8), digest := sliceAt img (sigOff img + 32) 64, jobId := imJob img,
    sealed_ := imSealed img, signer := sliceAt img (sigOff img) 32, svn := imSvn img,
    barriers := if imBarriers img == 0 then []
      else (pieces 8 ((lookupNat 2 bodies).getD [])).map fun c => (fieldAt c 0 2, bitOf (fieldAt c 2 1) 0),
    workCounters := imWorks img, pass := pass, hitchPart := imHitch img }

/-- Every tile of the paddock commits, and the carillon's barriers are configured. -/
def Dev.commitImage (d : Dev) (k : PadId) (info : ImageInfo) : Dev :=
  match d.pad k with
  | none => d
  | some p =>
    let d := (d.forSites p.sites Tile.commitImage).setBarriers k info.barriers
    (d.modPad k fun p => { p with retained := p.image, image := some info }).setBounds k

/-- Every tile makes the RETAINED bank active again, and the barriers are those of its image (R302, R305). -/
def Dev.revertImage (d : Dev) (k : PadId) : Dev :=
  match d.pad k with
  | none => d
  | some p =>
    let d := (d.forSites p.sites Tile.revertImage).setBarriers k ((p.retained.map (·.barriers)).getD [])
    (d.modPad k fun p => { p with image := p.retained, retained := none }).setBounds k

/-- All stages have passed; a lead has also heard VERIFIED from every member (R302, R305). -/
def commitEnabled (slot : Fin 64) (d : Dev) : Bool :=
  match d.loading slot with
  | some l => l.failure.isNone && l.passed.contains 7 &&
      (!l.hitch || match d.hitch with
        | some h => h.verified && d.members.all h.peersVerified.contains
        | none => false)
  | none => false

/-- A load ends DONE. -/
def Dev.loadDone (d : Dev) (slot : Fin 64) (l : ImageLoad) : Dev :=
  let d := d.leaveLoading l.pad
  let d := { d with loads := d.loads.filter fun q => q.op != slot }
  (d.closeStream l.copy).setOp slot .done 0

/-- IMAGE_COMMIT: a hardware error on a tile takes every tile back to its RETAINED bank (R302). A lead sends COMMIT to
its members and commits itself; its load goes on until they answer (R305). -/
def imageCommitEffect (slot : Fin 64) (hwErr : BitVec 16) (_ : Fuse) : Dev → Dev :=
  withLoad slot fun l d =>
    match d.imageFits l.pad l.img l.bodies with
    | .error _ => d
    | .ok pass =>
      let d := d.commitImage l.pad { imInfo l.img l.bodies pass with key := l.imageKey.getD [] }
      if hwErr != 0#16 then
        ((d.revertImage l.pad).modLoad slot fun l => { l with committing := true }).endLoad slot .failed hwErr.toNat
      else if l.hitch then
        let d := (d.modLoad slot fun l => { l with committing := true }).tellMembers .commit (imJob l.img)
        { d with hitch := d.hitch.map fun h => { h with committed := true, since := d.now } }
      else d.loadDone slot l

/-- IMAGE_COMMIT (R302). -/
def execImageCommit (slot : Fin 64) (hwErr : BitVec 16) (st : State) : Host.Outcome State Fault Refusal :=
  onEvent st (commitEnabled slot) (imageCommitEffect slot hwErr)

end Sys2Proof.Machine
end

