-- ==== Sys2Proof/Machine/Hitch.lean ====
section
/-!
DEFINITION. Loading a hitch (R303 to R305): the messages between the lead and its members, and the two time limits. A
member takes the bytes of LOAD_BEGIN to LOAD_END for its lowest paddock without a load or a run.
-/
namespace Sys2Proof.Machine

/-! ### A whole sub-image checked on a member (R298, R299, R304) -/

/-- First pair of a list of failures, as its code. -/
def firstCode (l : List (Nat × Nat)) : Option Nat := (lowest l).map (·.2)

/-- Bodies of the sections that have arrived, up to the first that fails: its code, or all bodies. -/
def bodiesOf (img : Bytes) (key : Option Bytes) : Except Nat (List (Nat × Bytes)) :=
  (List.range (imSections img)).foldl (fun acc i => match acc with
    | .error c => .error c
    | .ok bs =>
      let s := secOf img i
      if img.length < s.off + pad64 s.len then .ok bs
      else match bodyCheckOf img key i with
        | .error c => .error c
        | .ok b => .ok (setKey i b bs)) (.ok [])

/-- A tile whose bodies have all arrived and break a rule. -/
def badTile (img : Bytes) (bodies : List (Nat × Bytes)) (striped : Bool) : Bool :=
  (List.range (imTiles img)).any fun n =>
    (tileSecs img n).all (fun i => bodies.any fun b => b.1 == i) && !(imBank img bodies n).tileOk striped

/-- Stages 1 to 7 over the bytes of a delivery of `bytes` bytes that has ended: the code of the failure that R299 names,
or the bodies and pass sites. -/
def Dev.checkWhole (d : Dev) (fz : Fuse) (k : PadId) (bytes : Nat) (img : Bytes) :
    Except Nat (List (Nat × Bytes) × List (SiteId × Nat)) :=
  let here (n : Nat) : Bool := n ≤ img.length
  let stop (o : Option Nat) (next : Unit → Except Nat (List (Nat × Bytes) × List (SiteId × Nat))) :=
    match o with | some c => .error c | none => next ()
  if !here 256 then .error 0x5001
  else stop (firstCode (headerFails (d.headerEnv fz k bytes) img)) fun _ =>
    stop (if here (bodiesOff img) && d.svnLow fz img then some 0x5008 else none) fun _ =>
    stop (if here (keyOff img) && !tableOk img then some 0x5003 else none) fun _ =>
    stop (if imSealed img && here (sigOff img) then firstCode (keyFails fz img) else none) fun _ =>
    stop (if here (bodiesOff img) then firstCode (d.sigFails fz img) else some 0x5001) fun _ =>
    match bodiesOf img (imKey fz img) with
    | .error c => .error c
    | .ok bodies =>
      stop (if badTile img bodies (d.padStriped k) then some 0x5003 else none) fun _ =>
      stop (if img.length < bytes then some 0x5001 else none) fun _ =>
      match d.imageFits k img bodies with
      | .error c => .error c
      | .ok pass => .ok (bodies, pass)

/-! ### Members -/

/-- The hitch link to position `q` carries hitch traffic: it is UP and matches the map, in a formed hitch (R358). -/
def Dev.hitchOpen (d : Dev) (q : Nat) : Bool :=
  d.worvis && d.hitchFormed && ((d.hitchLink q).map fun n => (d.link n).state == .up && d.fab.hitchOk.contains n).getD false

/-- The link to position `q` has MGMT_TRUSTED (R359). -/
def Dev.hitchTrusts (d : Dev) (q : Nat) : Bool := ((d.hitchLink q).map d.trusted).getD false

/-- A member of a formed hitch can take a message of its lead. -/
def memberEnabled (d : Dev) : Bool := d.role == 3 && d.hitchOpen 0 && d.hitchTrusts 0

/-- A message of position `q` leaves the buffers of the link it came on. -/
def Dev.tookFrom (d : Dev) (q : Nat) : Dev :=
  match d.hitchLink q with
  | some n => d.freeFlits n 4
  | none => d

/-- A message of position `q`: one that comes on a link without MGMT_TRUSTED is dropped, counted and reported (R359); any other does
what it does where it is expected. -/
def onHitch (st : State) (q : Nat) (here : Dev → Bool) (en : Dev → Bool) (f : Fuse → Dev → Dev) :
    Host.Outcome State Fault Refusal :=
  onEvent st (fun d => here d && d.hitchOpen q && (!d.hitchTrusts q || en d)) fun fz d =>
    if d.hitchTrusts q then f fz d else (d.tookFrom q).mgmtRefuse [((d.hitchLink q).map (·.val)).getD 0]

/-- A message of the lead to a member. -/
def onMember (st : State) (en : Dev → Bool) (f : Fuse → Dev → Dev) : Host.Outcome State Fault Refusal :=
  onHitch st 0 (fun d => d.role == 3) en f

/-- A message of the member at a position to the lead. -/
def onLead (st : State) (q : Nat) (en : Dev → Bool) (f : Fuse → Dev → Dev) : Host.Outcome State Fault Refusal :=
  onHitch st q (fun d => d.role == 2 && d.members.contains q) en f

/-- The paddock that takes a sub-image. -/
def Dev.loadPad (d : Dev) : Option PadId :=
  (fins 16).find? fun k => match d.pad k with
    | some p => p.load.isNone && p.state != .loading && !((p.run.map fun i => (d.op i).live).getD false)
    | none => false

/-- A member gives up what it has staged. -/
def Dev.dropMember (d : Dev) : Dev :=
  match d.hitch.bind (·.pad) with
  | some k => { (d.dropShadow k).leaveLoading k with hitch := none }
  | none => { d with hitch := none }

def loadBeginEffect (slotLen : Nat) (jobId : Bytes) (_ : Fuse) (d : Dev) : Dev :=
  let d := (d.tookFrom 0).dropMember
  match d.loadPad with
  | some k =>
    let d := (d.startLoad k).modPad k fun p => { p with state := .loading }
    { d with hitch := some { jobId := padTo 32 jobId, pad := some k, slotLen := slotLen } }
  | none => { d with hitch := some { jobId := padTo 32 jobId, slotLen := slotLen } }

/-- HITCH_LOAD_BEGIN (R304). -/
def execHitchLoadBegin (slotLen : Nat) (jobId : Bytes) (st : State) : Host.Outcome State Fault Refusal :=
  onMember st (fun _ => true) (loadBeginEffect slotLen jobId)

/-- HITCH_LOAD_DATA (R304). -/
def execHitchLoadData (data : Bytes) (st : State) : Host.Outcome State Fault Refusal :=
  onMember st (fun d => (d.hitch.map fun h => !h.ended).getD false) fun _ d =>
    { d.tookFrom 0 with hitch := d.hitch.map fun h => { h with data := h.data ++ data } }

/-- The member runs stages 1 to 7 and answers VERIFIED with its JOB_ID and 0 or its failure. -/
def loadEndEffect (fz : Fuse) (d : Dev) : Dev :=
  let d := d.tookFrom 0
  match d.hitch with
  | none => d
  | some h =>
    match h.pad with
    | none => { d.sendHitch 0 .verified h.jobId 0x5009 [] with hitch := some { h with ended := true } }
    | some k => match d.checkWhole fz k h.slotLen h.data with
      | .error c =>
        let d := (d.dropShadow k).sendHitch 0 .verified h.jobId c []
        { d with hitch := some { h with ended := true } }
      | .ok (bodies, _) =>
        let sites := ((d.pad k).map (·.sites)).getD []
        let d := (List.range (imTiles h.data)).foldl (fun d n => match d.tileSite k n with
          | some s => d.stageBank s fun _ => imBank h.data bodies n
          | none => d) d
        let d := d.forSites sites fun t => { t with ctl := t.ctl.setShadow 2 }
        let d := d.sendHitch 0 .verified h.jobId 0 []
        { d with hitch := some { h with ended := true, verified := true } }

/-- HITCH_LOAD_END (R304). -/
def execHitchLoadEnd (st : State) : Host.Outcome State Fault Refusal :=
  onMember st (fun d => (d.hitch.map fun h => !h.ended).getD false) loadEndEffect

/-- The member commits under R302; a hardware error takes it back, and it then sends no COMMITTED. -/
def hitchCommitEffect (hwErr : BitVec 16) (fz : Fuse) (d : Dev) : Dev :=
  let d := d.tookFrom 0
  match d.hitch with
  | none => d
  | some h => match h.pad with
    | none => d
    | some k => match d.checkWhole fz k h.slotLen h.data with
      | .error _ => d
      | .ok (bodies, pass) =>
        let d := (d.commitImage k { imInfo h.data bodies pass with key := (imKey fz h.data).getD [] }).leaveLoading k
        if hwErr != 0#16 then { (d.revertImage k).leaveLoading k with hitch := none }
        else
          let d := d.sendHitch 0 .committed h.jobId 0 []
          { d with hitch := some { h with committed := true } }

/-- HITCH_COMMIT (R305). -/
def execHitchCommit (hwErr : BitVec 16) (st : State) : Host.Outcome State Fault Refusal :=
  onMember st (fun d => (d.hitch.map fun h => h.verified && !h.committed).getD false) (hitchCommitEffect hwErr)

/-- HITCH_ABORT (R304). -/
def execHitchAbort (st : State) : Host.Outcome State Fault Refusal :=
  onMember st (fun d => (d.hitch.map fun h => !h.committed).getD false) fun _ d => (d.tookFrom 0).dropMember

/-- The RETAINED bank is active again, and the paddock's state follows it. -/
def Dev.revertMember (d : Dev) (k : PadId) : Dev :=
  let d := d.revertImage k
  let st := if d.imageUsable k then PadState.ready else PadState.empty
  { d.modPad k fun p => { p with state := if p.state == .ready || p.state == .loading then st else p.state } with hitch := none }

/-- HITCH_REVERT (R304, R305): ignored by a member that has not committed. -/
def execHitchRevert (st : State) : Host.Outcome State Fault Refusal :=
  onMember st (fun _ => true) fun _ d =>
    let d := d.tookFrom 0
    match d.hitch with
    | some h => match h.committed, h.pad with
      | true, some k => d.revertMember k
      | _, _ => d
    | none => d

/-- HITCH_RELEASE (R304): the RETAINED image is discarded. -/
def execHitchRelease (st : State) : Host.Outcome State Fault Refusal :=
  onMember st (fun _ => true) fun _ d =>
    let d := d.tookFrom 0
    match d.hitch with
    | some h => match h.committed, h.pad with
      | true, some k =>
        let d := (d.forSites (((d.pad k).map (·.sites)).getD []) Tile.shadowEmpty).modPad k fun p => { p with retained := none }
        { d with hitch := none }
      | _, _ => d
    | none => d

/-! ### The lead -/

/-- A load whose paddock has not been prepared for it: it is QUEUED, or was suspended so. -/
def Dev.loadUnbegun (d : Dev) (k : PadId) : Bool :=
  match (d.pad k).bind fun p => p.sites.head? with
  | some s => (d.tile s).ctl.shadow != 1 && (d.tile s).ctl.shadow != 2
  | none => false

/-- The lead's hitch load in progress; one whose commit has been sent is, whatever its tiles' banks now say. -/
def Dev.leadLoad (d : Dev) : Option ImageLoad :=
  d.loads.find? fun (l : ImageLoad) =>
    l.hitch && (d.op l.op).live && (d.op l.op).state != .queued && (l.committing || !d.loadUnbegun l.pad)

/-- The lead waits for VERIFIED, or for COMMITTED. -/
def leadWaits (committing : Bool) (d : Dev) : Bool :=
  d.worvis && d.role == 2 && d.hitch.isSome && (d.leadLoad.map fun l => l.committing == committing).getD false

/-- A member's report: a failure or another JOB_ID ends the load (R305). -/
def verifiedEffect (pos : Nat) (jobId : Bytes) (code : BitVec 16) (_ : Fuse) (d : Dev) : Dev :=
  let d := d.tookFrom pos
  match d.leadLoad, d.hitch with
  | some l, some h =>
    if code != 0#16 then d.failHitch l.op code.toNat pos
    else if jobId != h.jobId then d.failHitch l.op 0x5009 pos
    else { d with hitch := some { h with peersVerified := insertNat pos h.peersVerified } }
  | _, _ => d

/-- HITCH_VERIFIED (R305). -/
def execHitchVerified (pos : Nat) (jobId : Bytes) (code : BitVec 16) (st : State) : Host.Outcome State Fault Refusal :=
  onLead st pos (leadWaits false) (verifiedEffect pos jobId code)

/-- The first position whose VERIFIED is late: due 50 ms after LOAD_END was sent. -/
def Dev.lateVerified (d : Dev) : Option Nat :=
  d.hitch.bind fun h => (h.ends.find? fun e => !h.peersVerified.contains e.1 && e.2 + msN 50 ≤ d.now).map (·.1)

def verifiedLate (d : Dev) : Bool := leadWaits false d && d.lateVerified.isSome

/-- HITCH_VERIFIED_TIMEOUT (R305). -/
def execHitchVerifiedTimeout (st : State) : Host.Outcome State Fault Refusal :=
  onEvent st verifiedLate fun _ d => match d.leadLoad with
    | some l => d.failHitch l.op 0x5009 (d.lateVerified.getD 0)
    | none => d

/-- Every COMMITTED has come: RELEASE is sent and the load ends DONE. -/
def committedEffect (pos : Nat) (_ : Fuse) (d : Dev) : Dev :=
  let d := d.tookFrom pos
  match d.leadLoad, d.hitch with
  | some l, some h =>
    let got := insertNat pos h.peersCommitted
    if d.members.all got.contains then
      { (d.tellMembers .release h.jobId).loadDone l.op l with hitch := none, hitchFailed := false }
    else { d with hitch := some { h with peersCommitted := got } }
  | _, _ => d

/-- HITCH_COMMITTED (R305). -/
def execHitchCommitted (pos : Nat) (st : State) : Host.Outcome State Fault Refusal :=
  onLead st pos (leadWaits true) (committedEffect pos)

/-- A COMMITTED is due 10 ms after COMMIT was sent. -/
def committedLate (d : Dev) : Bool :=
  leadWaits true d && match d.hitch with
  | some h => h.since + msN 10 ≤ d.now
  | none => false

/-- REVERT goes to every member, and the lead reverts itself. -/
def committedTimeoutEffect (_ : Fuse) (d : Dev) : Dev :=
  match d.leadLoad, d.hitch with
  | some l, some h =>
    let d := (d.tellMembers .revert h.jobId).revertImage l.pad
    { d with hitch := none }.failHitch l.op 0x5009 ((d.members.find? fun q => !h.peersCommitted.contains q).getD 0)
  | _, _ => d

/-- HITCH_COMMITTED_TIMEOUT (R305). -/
def execHitchCommittedTimeout (st : State) : Host.Outcome State Fault Refusal :=
  onEvent st committedLate committedTimeoutEffect

end Sys2Proof.Machine
end

