-- ==== Sys2Proof/Machine/Scrub.lean ====
section
/-!
DEFINITION. The scrubber of a tile (R308 to R314), uncorrectable configuration words (R311), the yardmaster's checks, and
the self-test of dark remounts (R488).
-/
namespace Sys2Proof.Machine

/-- The position that a live word belongs to, in the order of R308: unit records, link switch words, regions, constant
stores and the rest. Regions, the pool, channels and queues belong to no position. -/
def liveWordPos (w : Nat) : Option PosId :=
  if w < 4 then some mxuPos
  else if w < 260 then (finOf 25 ((w - 4) / 16 + 1)).map unitPos
  else if w < 292 then (finOf 25 ((w - 260) / 4 + 17)).map unitPos
  else if w < 317 then finOf 25 (w - 292)
  else if w < 349 then none
  else if w < 33117 then (finOf 25 ((w - 349) / 2048 + 1)).map unitPos
  else none

/-- The site and position that a live word of a tile belongs to: of its own, or of a pass site that it hosts (R308, R311). -/
def Dev.wordAt (d : Dev) (s : SiteId) (w : Nat) : Option (SiteId × PosId) :=
  if w < 37286 then (liveWordPos w).map fun p => (s, p)
  else ((d.hostedAt s)[(w - 37286) / 25]?).bind fun h => (finOf 25 ((w - 37286) % 25)).map fun p => (h.1, p)

/-! ### An uncorrectable word (R311) -/

/-- A run of the paddock is in progress. -/
def Dev.runs (d : Dev) (k : PadId) : Bool :=
  match d.pad k with
  | some p => p.state == .running || p.state == .suspended
  | none => false

/-- Stop the paddock's run where one is in progress, else post the event from the site (R485). -/
def Dev.cfgEvent (d : Dev) (s : SiteId) (unit : Nat) (word : Nat) : Dev :=
  match d.padOf s with
  | some k =>
    if d.runs k then d.raise k none true { code := 0xE003, site := some s, unit := some unit, addr := word, area := 2 }
    else d.post 0 1 s.val 0xE003 (payloadE word s.val unit 2 0xFF 0 0)
  | none => d.post 0 1 s.val 0xE003 (payloadE word s.val unit 2 0xFF 0 0)

/-- The active bank's image is unusable. -/
def Dev.dropImage (d : Dev) (k : PadId) : Dev :=
  match d.pad k with
  | some p =>
    let d := d.forSites p.sites fun t => { t with ctl := { t.ctl with cfgBank := t.ctl.cfgBank &&& 0xF7#8, imageTag := 0#64 } }
    (d.modPad k fun p => { p with image := none }).setBounds k
  | none => d

/-- What an uncorrectable configuration word does, by area. -/
def Dev.cfgUncorrectable (d : Dev) (s : SiteId) (a : CfgArea) (word : Nat) : Dev :=
  let area := match a with | .live => 0 | .bank0 => 1 | .bank1 => 2
  let loc := BitVec.ofNat 32 (word % 2 ^ 20 + area * 2 ^ 20 + 2 ^ 31)
  let d := d.modTile s fun t => { t with scrub := { t.scrub with ueLoc := loc } }
  let t := d.tile s
  let k := d.padOf s
  if area == 0 then
    let p := d.wordAt s word
    let d := match p with
      | some (x, p) => d.modTile x fun t => { t with scrub := { t.scrub with badPos := insertNat p.val t.scrub.badPos } }
      | none => d
    (d.cfgEvent s ((p.map fun q => (posUnit q.2).val).getD 0xFF) word).countCfgUe s
  else if area - 1 == t.ctl.activeIdx then
    let d := d.cfgEvent s 0xFF word
    (match k with | some k => d.dropImage k | none => d).countCfgUe s
  else
    let d := d.post 0 1 s.val 0xE003 (payloadE word s.val 0xFF 2 0xFF 0 0)
    match k with
    | none => d
    | some k =>
      if t.ctl.shadow == 1 || t.ctl.shadow == 2 then d.failLoad k 0xE003
      else if t.ctl.shadow == 3 then
        (d.forSites (((d.pad k).map (·.sites)).getD []) Tile.shadowEmpty).modPad k fun p => { p with retained := none }
      else d

/-! ### SCRUBBER_ACCESS (R309 to R311) -/

/-- The walker of an area has the turn (R309): an access every RATE cycles, the two walkers in turn where both run in the
site's power state (R527, R529). -/
def Dev.walkTurn (d : Dev) (s : SiteId) (isLive : Bool) : Bool :=
  let c := (d.tile s).scrub
  if c.lastLive != isLive then c.lastAt + c.rate ≤ d.now
  else c.lastAt + 2 * c.rate ≤ d.now && (!isLive && 2 ≤ d.power s)

/-- The configuration port does not write in this cycle; it has priority over the scrubber (R309, R310). -/
def Dev.portQuiet (d : Dev) (s : SiteId) : Bool := (d.tile s).portAt != some d.now && !portEnabled s d

/-- The word is the next of its walker, which has the turn and runs in the site's power state, and the port is quiet. -/
def Dev.walks (d : Dev) (s : SiteId) (a : CfgArea) (word : Nat) : Bool :=
  let c := (d.tile s).scrub
  c.works && d.walkTurn s (a == .live) && d.portQuiet s && match a with
  | .live => d.power s < 2 && word == c.live
  | .bank0 => d.power s < 3 && c.bank == 0 && word == c.bankPtr
  | .bank1 => d.power s < 3 && c.bank == 1 && word == c.bankPtr

/-- One access of a walker: correct, count, step on; a completed live pass advances the heartbeat. -/
def Scrubber.walk (c : Scrubber) (a : CfgArea) (ecc : Ecc) (now : Nat) : Scrubber :=
  let c := { c with ce := if ecc == Ecc.corrected then c.ce.inc now else c.ce, lastAt := now, lastLive := a == CfgArea.live }
  match a with
  | .live => if c.live + 1 < c.liveBound then c.put 32 20 (c.live + 1) else (c.put 32 20 0).put 0 32 (c.beat + 1)
  | _ => if c.bankPtr + 1 < c.bankBound then c.put 52 21 (c.bankPtr + 1) else (c.put 52 21 0).put 73 1 (1 - c.bank)

/-- A walker's access, or a decoder's find of an uncorrectable word elsewhere. -/
def accessEffect (s : SiteId) (a : CfgArea) (word : Nat) (ecc : Ecc) (_ : Fuse) (d : Dev) : Dev :=
  let d := if d.walks s a word then d.modTile s fun t => { t with scrub := t.scrub.walk a ecc d.now } else d
  if ecc == .uncorrectable then d.cfgUncorrectable s a word else d

/-- SCRUBBER_ACCESS (R309). -/
def execScrubberAccess (s : SiteId) (a : CfgArea) (word : Nat) (ecc : Ecc) (st : State) : Host.Outcome State Fault Refusal :=
  onEvent st (fun d => d.running && d.hasTile s && (d.walks s a word || (ecc == .uncorrectable && d.power s < 3)))
    (accessEffect s a word ecc)

/-! ### SCRUBBER_VOTE (R312) -/

/-- The vote over the three copies as they are found. -/
def Scrubber.voted (c : Scrubber) (x y z now : Nat) : Scrubber :=
  let x := x % 2 ^ scrubBits
  let y := y % 2 ^ scrubBits
  let z := z % 2 ^ scrubBits
  if x == y && y == z then { c with copyA := x, copyB := x, copyC := x }
  else if x == y || x == z then { c with copyA := x, copyB := x, copyC := x, vote := c.vote.inc now }
  else if y == z then { c with copyA := y, copyB := y, copyC := y, vote := c.vote.inc now }
  else { c with copyA := x, copyB := y, copyC := z, vote := c.vote.inc now, halted := true }

/-- A disagreement counts toward the tile's retirement: 16 in 1 h (R488). -/
def voteEffect (s : SiteId) (x y z : Nat) (_ : Fuse) (d : Dev) : Dev :=
  let d' := d.modTile s fun t => { t with scrub := t.scrub.voted x y z d.now }
  if x % 2 ^ scrubBits == y % 2 ^ scrubBits && y % 2 ^ scrubBits == z % 2 ^ scrubBits then d'
  else d'.countUpset s (·.votes) (fun h l => { h with votes := l }) hour 16

/-- SCRUBBER_VOTE (R312). -/
def execScrubberVote (s : SiteId) (copyA copyB copyC : Nat) (st : State) : Host.Outcome State Fault Refusal :=
  onEvent st (fun d => d.running && d.hasTile s && d.power s < 3 && !(d.tile s).scrub.halted) (voteEffect s copyA copyB copyC)

/-! ### The known-answer scan and the yardmaster's checks (R313, R314) -/

/-- TILE_SCRUB_KAT_CMD (R313, R314): a write from any source but the yardmaster has no effect. The result is clear for the
rest of the NCLK cycle, and the scan is done at its end. -/
def execTileScrubKatCmd (s : SiteId) (by_ : Accessor) (seed : Word) (st : State) : Host.Outcome State Fault Refusal :=
  onEvent st (fun d => d.running && d.hasTile s && d.power s < 2 && by_ == .yardmaster) fun _ d =>
    d.modTile s fun t => t.askScan seed

/-- The checks of one tile; a failure retires it with SCRUBBER_FAILED. The seed is the yardmaster's: a free value. -/
def scrubCheckEffect (s : SiteId) (_ : Fuse) (d : Dev) : Dev :=
  let c := (d.tile s).scrub
  let advanced := BitVec.ofNat 32 c.beat != c.lastBeat
  let (x, d) := d.draw
  let seed := BitVec.ofNat 32 x
  let d := d.modTile s fun t =>
    let t := if advanced then (t.askScan seed).scan else t
    { t with scrub := { t.scrub with lastBeat := BitVec.ofNat 32 c.beat, checkedAt := d.now } }
  if advanced && (d.tile s).scrub.scanOk seed then d else d.retireTile s (some 0xE004)

/-- SCRUBBER_CHECK (R313): every 1 ms, for a tile that is neither in RETAIN nor OFF; not during a handover (R500). -/
def execScrubberCheck (s : SiteId) (st : State) : Host.Outcome State Fault Refusal :=
  onEvent st (fun d => d.worvis && d.hasTile s && d.power s < 2 && d.ym.handover.isEmpty &&
      (d.tile s).scrub.checkedAt + msN 1 ≤ d.now) (scrubCheckEffect s)

/-- A site has been tested (R488). -/
def Dev.noteTest (d : Dev) (s : SiteId) : Dev :=
  d.modYm fun y => { y with hist := vmod y.hist s fun h => { h with testedAt := d.now } }

/-- REMOUNT_SELF_TEST (R488): of a dark remount, every 24 hours after its test at bring-up. -/
def execRemountSelfTest (s : SiteId) (pass : Bool) (st : State) : Host.Outcome State Fault Refusal :=
  onEvent st (fun d => d.worvis && d.kinds[s] == .darkRemount && (d.ym.hist[s]).testedAt + day ≤ d.now) fun _ d =>
    let d := d.noteTest s
    if pass then d else d.retireTile s none

end Sys2Proof.Machine
end

