-- ==== Sys2Proof/Machine/HostPort.lean ====
section
/-!
DEFINITION. The host port (R394 to R416): modules and credit, the register window, mailboxes, event rings and their
vectors, training and lane repair.
-/
namespace Sys2Proof.Machine

/-! ### Modules and credit (R394 to R401) -/

def Dev.module (d : Dev) (m : ModId) : Module := d.host.mods[m]
def Dev.modModule (d : Dev) (m : ModId) (f : Module → Module) : Dev :=
  { d with host := { d.host with mods := vmod d.host.mods m f } }

def Module.trained (x : Module) : Bool := x.width != 0

/-- The window module: module 0, or module 1 when module 0 is not trained (R396). -/
def Dev.windowMod (d : Dev) : ModId := if (d.module 0).trained then 0 else 1

/-! #### Messages and flits (R397, R398) -/

/-- MTYPE of a message of the device. -/
def HostMsg.mtype : HostMsg → Nat
  | .winData .. => 0x11
  | .memWrite .. => 0x12
  | .doorbell .. => 0x13
  | .error .. => 0x14
  | .credit .. => 0x0F

/-- The payload, LEN bytes. -/
def HostMsg.payload : HostMsg → Bytes
  | .winData _ _ _ data => data
  | .memWrite _ _ data => data
  | .error _ code mtype tag addr => leBytes 2 code.toNat ++ leBytes 1 mtype ++ leBytes 1 0 ++ leBytes 2 tag.toNat ++ leBytes 2 0 ++ leBytes 8 addr.toNat
  | .doorbell .. | .credit .. => []

/-- TAG and ADDR. -/
def HostMsg.tag : HostMsg → BitVec 16
  | .winData _ tag _ _ => tag
  | _ => 0#16

def HostMsg.addr : HostMsg → Nat
  | .winData _ _ addr _ => addr.toNat
  | .memWrite _ addr _ => addr.toNat
  | .doorbell _ vector => vector
  | .error .. => 0
  | .credit _ p np cpl => p.toNat + np.toNat * 2 ^ 16 + cpl.toNat * 2 ^ 32

/-- The module that a message travels on. -/
def HostMsg.module : HostMsg → ModId
  | .winData m .. | .memWrite m .. | .doorbell m .. | .error m .. | .credit m .. => m

/-- The same message on another module. -/
def HostMsg.on (m : ModId) : HostMsg → HostMsg
  | .winData _ tag addr data => .winData m tag addr data
  | .memWrite _ addr data => .memWrite m addr data
  | .doorbell _ vector => .doorbell m vector
  | .error _ code mtype tag addr => .error m code mtype tag addr
  | .credit _ p np cpl => .credit m p np cpl

def HostMsg.isCredit : HostMsg → Bool
  | .credit .. => true
  | _ => false

/-- A header of the layout of R397. -/
def hostHeader (mtype len : Nat) (tag handle : BitVec 16) (addr : Nat) : HostHdr :=
  { bits := BitVec.ofNat 128 (mtype + len * 2 ^ 16 + tag.toNat * 2 ^ 32 + handle.toNat * 2 ^ 48 + addr * 2 ^ 64) }

def HostMsg.header (q : HostMsg) : HostHdr := hostHeader q.mtype q.payload.length q.tag 0#16 q.addr

/-- The 16-byte slots of a message: its header, then its payload, zero beyond LEN. -/
def HostMsg.slots (q : HostMsg) : List Bytes :=
  leBytes 16 q.header.bits.toNat ::
    (List.range (ceilDiv q.payload.length 16)).map fun i => padTo 16 (sliceAt q.payload (16 * i) 16)

/-- The 240 protocol bytes of each flit that carries a list of slots: 15 slots, and NOP headers where none is left. -/
def hostFlits (slots : List Bytes) : List Bytes :=
  (List.range (ceilDiv slots.length 15)).map fun i => padTo 240 ((slots.drop (15 * i)).take 15).flatten

/-- The flits that carry the messages which have left on a module. -/
def HostPort.flits (h : HostPort) (m : ModId) : List Bytes :=
  hostFlits ((h.out.filter fun q => q.module == m).flatMap HostMsg.slots)

/-- P and CPL slots that a message takes (R397, R398); a CREDIT has no class. -/
def HostMsg.cost (q : HostMsg) : Nat × Nat :=
  match q with
  | .winData .. => (0, 1 + ceilDiv q.payload.length 16)
  | .credit .. => (0, 0)
  | _ => (1 + ceilDiv q.payload.length 16, 0)

/-! #### Credit -/

/-- Credit held (R399): the last count received less what has been sent, modulo 2¹⁶; none before the first CREDIT. -/
def creditHeld (got : Bool) (count : BitVec 16) (sent : Nat) : Nat :=
  if got then (count - BitVec.ofNat 16 sent).toNat else 0

def Module.roomP (x : Module) : Nat := creditHeld x.gotCredit x.hostP x.sentP
def Module.roomCpl (x : Module) : Nat := creditHeld x.gotCredit x.hostCpl x.sentCpl

def Module.canSend (x : Module) (q : HostMsg) : Bool := q.cost.1 ≤ x.roomP && q.cost.2 ≤ x.roomCpl

def Module.sent (x : Module) (q : HostMsg) : Module :=
  { x with sentP := x.sentP + q.cost.1, sentCpl := x.sentCpl + q.cost.2 }

/-- Send from the head of a queue while credit lasts (R401): the module, what leaves, and what stays. -/
def flushList (x : Module) : List HostMsg → Module × List HostMsg × List HostMsg
  | [] => (x, [], [])
  | q :: qs =>
    if x.canSend q then
      let r := flushList (x.sent q) qs
      (r.1, q :: r.2.1, r.2.2)
    else (x, [], q :: qs)

def Dev.flush (d : Dev) (m : ModId) : Dev :=
  let x := d.module m
  if !x.trained then d
  else
    let r := flushList x x.queue
    { d with host := { d.host with
        mods := vmod d.host.mods m fun _ => { r.1 with queue := r.2.2 }, out := d.host.out ++ r.2.1 } }

/-- Generate a message on a module. -/
def Dev.say (d : Dev) (m : ModId) (q : HostMsg) : Dev :=
  (d.modModule m fun x => { x with queue := x.queue ++ [q] }).flush m

def Dev.sayWindow (d : Dev) (q : HostMsg) : Dev := d.say d.windowMod q

/-- Credit for what has been performed or dropped is returned in a CREDIT (R399, R400). -/
def Dev.returnCredit (d : Dev) (m : ModId) : Dev :=
  let x := d.module m
  if !x.trained || (x.retP == x.rcvdP && x.retNp == x.rcvdNp) then d
  else
    (d.modModule m fun x => { x with retP := x.rcvdP, retNp := x.rcvdNp }).say m
      (.credit m (BitVec.ofNat 16 (4096 + x.rcvdP)) (BitVec.ofNat 16 (64 + x.rcvdNp)) 0#16)

/-- A refused message is counted and answered with ERROR on the window module (R396, R400). -/
def Dev.refuseHost (d : Dev) (code : Nat) (h : HostHdr) : Dev :=
  { d with host := { d.host with refused := d.host.refused.inc d.now } }.sayWindow
    (.error d.windowMod (BitVec.ofNat 16 code) h.mtype.toNat h.tag h.addr)

/-- A message beyond the credit of its own class: of `p` P slots, or of `np` requests (R399, R400). -/
def Module.beyond (x : Module) (p np : Nat) : Bool :=
  (0 < p && 4096 + x.retP < x.rcvdP + p) || (0 < np && 64 + x.retNp < x.rcvdNp + np)

/-- A message of `p` P slots and `np` requests (R400): malformed, beyond credit, refused by its own rules, or performed (`perform` says which). -/
def Dev.receive (d : Dev) (m : ModId) (h : HostHdr) (p np : Nat) (bad : Bool) (perform : Dev → Dev × Bool) : Dev :=
  let beyond := (d.module m).beyond p np
  let d := d.modModule m fun x => { x with rcvdP := x.rcvdP + p, rcvdNp := x.rcvdNp + np }
  if bad then d.refuseHost 0x7001 h
  else if beyond then d.refuseHost 0x7003 h
  else
    let r := perform d
    if r.2 then r.1 else r.1.refuseHost 0x7002 h

/-- A type that the host may send, NOP apart (R398). -/
def hdrKnown (h : HostHdr) : Bool := [0x01#8, 0x02#8, 0x03#8, 0x0F#8].contains h.mtype

/-- A message of another type is malformed; it has no class, and takes no credit (R398, R400). -/
def Dev.receiveOther (d : Dev) (h : HostHdr) : Dev := d.refuseHost 0x7001 h

/-- A row looks at its own type, and at types that no row has; a NOP is nothing to look at (R397, R398). -/
def hdrIsFor (h : HostHdr) (t : Byte) : Bool := h.mtype == t || (!hdrKnown h && h.mtype != 0#8)

/-- What a message does: its own type by `f`, another is malformed. -/
def Dev.byType (d : Dev) (h : HostHdr) (f : Dev → Dev) : Dev := if hdrKnown h then f d else d.receiveOther h

/-- A module can take a message. -/
def receives (m : ModId) (d : Dev) : Bool := d.running && (d.module m).trained

/-- A module can take a message that a row looks at. -/
def takes (m : ModId) (h : HostHdr) (t : Byte) (d : Dev) : Bool := receives m d && hdrIsFor h t

/-! ### What the window shows (R402, R404, R406) -/

/-- HOST_ID_STATUS. -/
def Dev.idStatus (d : Dev) (fz : Fuse) : Nat :=
  bit d.mailboxReady 0 + bit (d.ym.degrade != 0#32) 1 + bit (d.ym.replace != 0#32) 2 + fz.lifecycle.code * 2 ^ 3 +
    d.role * 2 ^ 5 + bit d.numbered 8 + d.number.toNat * 2 ^ 9 + bit d.hitchFormed 23 + bit (d.module 0).trained 24 +
    bit (d.module 1).trained 25 + d.windowMod.val * 2 ^ 26

/-- HOST_ID_SITES (R404). -/
def Dev.idSites (d : Dev) : Nat := packFields 2 (d.kinds.toList.map SiteKind.code)

/-- HOST_ID_TILES (R404). -/
def Dev.idTiles (d : Dev) : Nat :=
  packFields 6 [d.kindCount .inService, d.kindCount .darkRemount, d.kindCount .usedRemount, d.kindCount .retired]

/-- HOST_ID_BOOT (R404). -/
def Dev.idBoot (d : Dev) : Nat := bit d.ym.slotB 0 + bit d.ym.diverge 1 + bit d.ym.safeSettings 2

/-- The identity block, offsets 0x0000 to 0x0043. -/
def Dev.identity (d : Dev) (fz : Fuse) : Bytes :=
  leBytes 4 0x59469840 ++ leBytes 4 (0x9840 + 0xA1 * 2 ^ 16 + bit fz.variantL 24) ++ leBytes 8 fz.serial.toNat
    ++ leBytes 8 (d.idStatus fz) ++ leBytes 4 d.ym.fwVersion.toNat ++ leBytes 4 d.ym.runSvn.toNat
    ++ leBytes 16 d.idSites ++ leBytes 8 d.idTiles ++ leBytes 8 d.now ++ leBytes 4 d.idBoot

/-- HOST_PORT_STATUS. -/
def Dev.portStatus (d : Dev) : Nat := (d.module 0).width + 4 * (d.module 1).width

def MbState.code : MbState → Nat
  | .empty => 0
  | .pending => 1
  | .ready => 2

/-- HOST_MB_STATE. -/
def Mailbox.stateReg (b : Mailbox) : Nat := b.state.code + b.seq.toNat * 2 ^ 16

/-- A 16-byte response header (R405). -/
def rspHeader (op seq : BitVec 16) (status len handle : Nat) : Bytes :=
  leBytes 2 op.toNat ++ leBytes 2 seq.toNat ++ leBytes 4 status ++ leBytes 4 len ++ leBytes 4 handle

/-- What a read of the response buffer returns (R406), without the zeros that follow. -/
def Mailbox.response (b : Mailbox) : Bytes :=
  match b.state with
  | .empty => rspHeader b.ackOp b.ackSeq 2 16 0
  | .pending => rspHeader b.op b.seq 1 16 0
  | .ready => b.rsp

def Mailbox.regs (now : Nat) (b : Mailbox) : Bytes :=
  padTo 64 (leBytes 8 0 ++ leBytes 4 b.stateReg ++ leBytes 4 b.cfg.toNat ++ leBytes 4 (b.refused.seen now).toNat)

def Ring.regs (now : Nat) (r : Ring) : Bytes :=
  padTo 64 (leBytes 8 r.cfg.toNat ++ leBytes 8 r.base.toNat ++ leBytes 8 r.prodAddr.toNat ++ leBytes 4 r.prod.toNat
    ++ leBytes 4 r.cons.toNat ++ leBytes 4 (r.lost.seen now).toNat)

/-- The mailbox that a buffer offset belongs to, and whether it is its response buffer. -/
def bufferOf (a : Nat) : Option (MbId × Bool) :=
  if a < 0x10000 then none
  else (finOf 17 ((a - 0x10000) / 0x2000)).map fun n => (n, 0x1000 ≤ (a - 0x10000) % 0x2000)

/-- The 4 KiB page of the window that holds an offset; what no register occupies reads as zero. -/
def Dev.windowPage (d : Dev) (fz : Fuse) (a : Nat) : Bytes :=
  match bufferOf a with
  | some (n, true) => (d.mbs[n]).response
  | some (n, false) => (d.mbs[n]).cmdBuf.readN 0 4096
  | none =>
    if a / 4096 == 0 then d.identity fz
    else if a / 4096 == 1 then
      leBytes 8 d.portStatus ++ leBytes 4 (d.host.refused.seen d.now).toNat ++ leBytes 8 d.host.copyBytes.toNat
    else if a / 4096 == 2 then d.mbs.toList.flatMap (Mailbox.regs d.now)
    else if a / 4096 == 3 then d.rings.toList.flatMap (Ring.regs d.now)
    else []

/-- A read of the window. -/
def Dev.windowRead (d : Dev) (fz : Fuse) (a n : Nat) : Bytes := padTo n (sliceAt (d.windowPage fz a) (a % 4096) n)

/-- A read clears the RC registers that it covers (R8). -/
def Dev.windowClear (d : Dev) (a n : Nat) : Dev :=
  let o := a % 4096
  let covers (r : Nat) : Bool := o % 64 ≤ r && r < o % 64 + n
  if a / 4096 == 1 && o ≤ 8 && 8 < o + n then { d with host := { d.host with refused := d.host.refused.taken d.now } }
  else if a / 4096 == 2 && covers 0x10 then { d with mbs := vmodN d.mbs (o / 64) fun b => { b with refused := b.refused.taken d.now } }
  else if a / 4096 == 3 && covers 0x20 then { d with rings := vmodN d.rings (o / 64) fun r => { r with lost := r.lost.taken d.now } }
  else d

/-- Where an access of more than 8 bytes may lie (R398). -/
def bulkArea (a : Nat) : Bool := a < 0x1000 || (bufferOf a).isSome

/-- A window access is malformed (R396, R397, R398). -/
def Dev.windowBad (d : Dev) (m : ModId) (h : HostHdr) : Bool :=
  let n := h.len.toNat
  let a := h.addr.toNat
  h.reserved || h.handle != 0#16 || m != d.windowMod ||
    !(n == 4 || n == 8 || (bulkArea a && 16 ≤ n && n ≤ 256 && n % 16 == 0)) ||
    a % min n 16 != 0 || 2 ^ 20 < a + n || a / 4096 != (a + n - 1) / 4096

/-- WIN_READ (R402): answered by WIN_DATA, over the mesh (R329). -/
def winReadEffect (m : ModId) (h : HostHdr) (fz : Fuse) (d : Dev) : Dev :=
  d.byType h fun d => d.receive m h 0 1 (d.windowBad m h) fun d =>
    let data := d.windowRead fz h.addr.toNat h.len.toNat
    (((d.windowClear h.addr.toNat h.len.toNat).windowTrip m 0 h.len.toNat).say m (.winData m h.tag h.addr data), true)

/-- WIN_READ (R402). -/
def execWinRead (m : ModId) (h : HostHdr) (st : State) : Host.Outcome State Fault Refusal :=
  onEvent st (takes m h 0x01) (winReadEffect m h)

/-! ### Mailboxes (R407, R408) -/

def Dev.mb (d : Dev) (n : MbId) : Mailbox := d.mbs[n]
def Dev.modMb (d : Dev) (n : MbId) (f : Mailbox → Mailbox) : Dev := { d with mbs := vmod d.mbs n f }

/-- The command in a carrier becomes PENDING. -/
def Mailbox.submit (b : Mailbox) (cmd : Bytes) : Mailbox :=
  { b with state := .pending, cmd := cmd, rsp := [], op := BitVec.ofNat 16 (fieldAt cmd 0 2), seq := BitVec.ofNat 16 (fieldAt cmd 2 2) }

/-- A response is released. -/
def Mailbox.release (b : Mailbox) : Mailbox := { b with state := .empty, rsp := [], ackOp := b.op, ackSeq := b.seq }

/-- A write of RING = 1. -/
def Dev.ringDoorbell (d : Dev) (n : MbId) : Dev :=
  d.modMb n fun b =>
    if b.state == .empty && d.mailboxReady then b.submit (b.cmdBuf.readN 0 4096) else { b with refused := b.refused.inc d.now }

/-- A write of HOST_MB_ACK. -/
def Dev.ackMailbox (d : Dev) (n : MbId) (seq : BitVec 16) : Dev :=
  d.modMb n fun b => if b.state == .ready && b.seq == seq then b.release else { b with refused := b.refused.inc d.now }

/-- A write of HOST_EV_CONS (R413): outside PROD − RECORDS to PROD it is ignored and counted. -/
def Dev.consumed (d : Dev) (n : MbId) (v : Word) : Dev :=
  if (d.rings[n].prod - v).toNat ≤ d.rings[n].records then { d with rings := vmod d.rings n fun r => { r with cons := v } }
  else d.modMb n fun b => { b with refused := b.refused.inc d.now }

/-- The window module carries host messages. -/
def windowUp (d : Dev) : Bool := d.running && (d.module d.windowMod).trained

/-- MAILBOX_DOORBELL (R407). -/
def execMailboxDoorbell (n : MbId) (st : State) : Host.Outcome State Fault Refusal :=
  onEvent st windowUp fun _ d => d.ringDoorbell n

/-- MAILBOX_ACK (R408). -/
def execMailboxAck (n : MbId) (seq : BitVec 16) (st : State) : Host.Outcome State Fault Refusal :=
  onEvent st windowUp fun _ d => d.ackMailbox n seq

/-- EVENT_CONSUME (R413). -/
def execEventConsume (n : MbId) (value : Word) (st : State) : Host.Outcome State Fault Refusal :=
  onEvent st windowUp fun _ d => d.consumed n value

/-- A 32-bit write to a register of the window; RO and unassigned offsets are unaffected (R5, R402). -/
def Dev.windowWord (d : Dev) (a : Nat) (v : Word) : Dev :=
  match finOf 17 (a % 4096 / 64) with
  | none => d
  | some n =>
    if a / 4096 == 2 then
      if a % 64 == 0 then (if v.getLsbD 0 then d.ringDoorbell n else d)
      else if a % 64 == 4 then d.ackMailbox n (v.setWidth 16)
      else if a % 64 == 0xC then d.modMb n fun b => { b with cfg := v &&& 3#32 }
      else d
    else if a / 4096 == 3 && a % 64 == 0x1C then d.consumed n v
    else d

/-- A write of the window. -/
def Dev.windowWrite (d : Dev) (a : Nat) (data : Bytes) : Dev :=
  match bufferOf a with
  | some (n, false) => d.modMb n fun b => { b with cmdBuf := b.cmdBuf.writeN (a % 4096) data }
  | some (_, true) => d
  | none => (List.range (data.length / 4)).foldl (fun d i =>
      d.windowWord (a + 4 * i) (BitVec.ofNat 32 (fieldAt data (4 * i) 4))) d

/-- WIN_WRITE (R402). -/
def winWriteEffect (m : ModId) (h : HostHdr) (data : Bytes) (_ : Fuse) (d : Dev) : Dev :=
  d.byType h fun d => d.receive m h (1 + ceilDiv h.len.toNat 16) 0 (d.windowBad m h || data.length != h.len.toNat) fun d =>
    ((d.windowWrite h.addr.toNat data).windowTrip m data.length 0, true)

/-- WIN_WRITE (R402). -/
def execWinWrite (m : ModId) (h : HostHdr) (data : Bytes) (st : State) : Host.Outcome State Fault Refusal :=
  onEvent st (takes m h 0x02) (winWriteEffect m h data)

/-! ### Event rings (R410, R412 to R414) -/

/-- Records that the ring has room for. -/
def Ring.room (r : Ring) : Nat := r.records - (r.prod - r.cons).toNat

/-- EVENT_LOST (R411, R414), from source KIND 0. -/
def Ring.lostRec (r : Ring) (time : BitVec 64) : EventRec :=
  { kind := 0, index := 0, seq := r.seqOf 0 0, time := time, typ := 2#16, payload := padTo 16 (leBytes 4 r.lostPending) }

/-- Records to write now: those that wait, then one EVENT_LOST, as far as there is room; and the ring after them. -/
def Ring.burst (r : Ring) (time : BitVec 64) : Ring × List EventRec :=
  let now := r.waiting.take r.room
  let r1 := { r with waiting := r.waiting.drop r.room, prod := r.prod + BitVec.ofNat 32 now.length }
  if r1.waiting.isEmpty && 0 < r1.lostPending && 0 < r1.room then
    ({ r1.bumpSeq 0 0 with lostPending := 0, prod := r1.prod + 1 }, now ++ [r1.lostRec time])
  else (r1, now)

/-- No vector of the ring has been sent in the last 2 µs. -/
def Ring.vectorFree (r : Ring) (now : Nat) : Bool :=
  match r.lastVector with
  | some t => t + usN 2 ≤ now
  | none => true

/-- Vector 32 + n, at most one in 2 µs (R410). -/
def Dev.vector (d : Dev) (n : MbId) : Dev :=
  let r := d.rings[n]
  if !(d.mb n).cfg.getLsbD 1 then d
  else if r.vectorFree d.now then
    ({ d with rings := vmod d.rings n fun r => { r with lastVector := some d.now, vectorDue := false } }.carry prYard
      (prOfModule d.windowMod) 0 false none 0).sayWindow (.doorbell d.windowMod (32 + n.val))
  else { d with rings := vmod d.rings n fun r => { r with vectorDue := true } }

/-- The ring has something to write and room for it. -/
def ringEnabled (n : MbId) (d : Dev) : Bool :=
  let r := d.rings[n]
  windowUp d && d.ym.handover.isEmpty && r.enabled && 0 < r.room && (!r.waiting.isEmpty || 0 < r.lostPending)

/-- Each record goes to BASE + 32 × (PROD mod RECORDS), then PROD to PROD_ADDR. -/
def ringEffect (n : MbId) (_ : Fuse) (d : Dev) : Dev :=
  let r := d.rings[n]
  let b := r.burst d.stamp
  let w := d.windowMod
  let d := { d with rings := vmod d.rings n fun _ => b.1 }.carry prYard (prOfModule w) 0 false none (32 * b.2.length + 8)
  let d := b.2.zipIdx.foldl (fun d x =>
    d.say w (.memWrite w (r.base + BitVec.ofNat 64 (32 * ((r.prod.toNat + x.2) % r.records))) x.1.bytes)) d
  (d.say w (.memWrite w r.prodAddr (leBytes 8 b.1.prod.toNat))).vector n

/-- EVENT_RING_WRITE (R413). -/
def execEventRingWrite (n : MbId) (st : State) : Host.Outcome State Fault Refusal :=
  onEvent st (ringEnabled n) (ringEffect n)

/-- EVENT_VECTOR (R410): the 2 µs have passed. -/
def execEventVector (n : MbId) (st : State) : Host.Outcome State Fault Refusal :=
  onEvent st (fun d => windowUp d && d.rings[n].vectorDue && d.rings[n].vectorFree d.now)
    fun _ d => (d.vector n)

/-- A ring is enabled (R414, R428): the first record is the EVENT_LOST that counts what was lost. -/
def Ring.enable (r : Ring) (log2 : Nat) (base prodAddr : BitVec 64) (time : BitVec 64) : Ring :=
  let r := { r with cfg := BitVec.ofNat 32 (1 + 2 * log2), base := base, prodAddr := prodAddr, prod := 0#32, cons := 0#32 }
  if r.lostPending == 0 then r
  else { r.bumpSeq 0 0 with waiting := [r.lostRec time], lostPending := 0 }

/-- A ring is disabled: what waits inside the device is lost. -/
def Ring.disable (now : Nat) (r : Ring) : Ring :=
  { r.lose now r.waiting.length with cfg := r.cfg &&& ~~~1#32, waiting := [] }

/-! ### Training (R394, R395, R536) -/

/-- What the window module has yet to send goes with it where it has changed from `old`: behind a CREDIT that waits there, in the
order in which it was generated (R396, R401, R412). -/
def Dev.moveWindow (d : Dev) (old : ModId) : Dev :=
  let w := d.windowMod
  if w == old then d
  else
    let q := (d.module old).queue.filter fun q => !q.isCredit
    let d := d.modModule old fun x => { x with queue := x.queue.filter HostMsg.isCredit }
    (d.modModule w fun x => { x with queue := x.queue ++ q.map (HostMsg.on w) }).flush w

/-- A module carries nothing: the CREDITs that wait are of no use after the next training (R399). -/
def Dev.moduleDown (d : Dev) (m : ModId) (f : Module → Module) : Dev :=
  (d.modModule m fun x => { f x with width := 0, queue := x.queue.filter fun q => !q.isCredit }).moveWindow d.windowMod

/-- The other module. -/
def otherMod (m : ModId) : ModId := if m == 0 then 1 else 0

/-- A module that stays down: HOST_MODULE_DOWN, which names it by its source, where ring 0 is enabled; both down is a failure
(R395, R503). -/
def Dev.moduleLost (d : Dev) (m : ModId) : Dev :=
  let d := d.moduleDown m fun x => { x with stayDown := true }
  let d := if d.rings[(0 : Fin 17)].enabled then d.post 0 6 m.val 0x7004 [] else d
  if (d.module (otherMod m)).stayDown then d.fail else d.health

/-- Copies no longer wait for what a module sent before it trained anew. -/
def Dev.forgetOwed (d : Dev) (m : ModId) : Dev :=
  { d with copies := d.copies.map fun c => { c with owed := c.owed.filter fun o => o.1 != m } }

/-- A training attempt ends. The first CREDIT goes out in the first slot after training (R399). -/
def trainingEffect (m : ModId) (x32 ok : Bool) (_ : Fuse) (d : Dev) : Dev :=
  if ok then
    let old := d.windowMod
    let d := (d.forgetOwed m).modModule m fun x => {
      width := if x32 then 1 else 2, queue := .credit m 4096#16 64#16 0#16 :: x.queue.filter fun q => !q.isCredit }
    ((d.flush m).moveWindow old).health
  else if 2 ≤ (d.module m).fails then d.moduleLost m
  else d.modModule m fun x => { x with fails := x.fails + 1 }

/-- UCIE_TRAINING (R395). -/
def execUcieTraining (m : ModId) (x32 ok : Bool) (st : State) : Host.Outcome State Fault Refusal :=
  onEvent st (fun d => d.running && !(d.module m).trained && !(d.module m).stayDown) (trainingEffect m x32 ok)

/-- UCIE_LANE_REPAIR (R394): redundant lanes keep the width, x32 degrades it, or the module trains again. -/
def execUcieLaneRepair (m : ModId) (repaired x32 : Bool) (st : State) : Host.Outcome State Fault Refusal :=
  onEvent st (receives m) fun _ d =>
    if repaired then (d.modModule m fun x => { x with width := if x32 then 1 else x.width }).health
    else (d.moduleDown m fun x => { x with fails := 0 }).health

end Sys2Proof.Machine
end

