-- ==== Sys2Proof/Machine/Copies.lean ====
section
/-!
DEFINITION. Copies between host and lofts, and the delivery of images (R403, R432, R471, R472); CREDIT (R399).
-/
namespace Sys2Proof.Machine

/-! ### Linear DRAM (R194) -/

/-- The pieces of a range of a loft that lie in one 512-byte block each. -/
def loftPieces (off n : Nat) : List (Nat × Nat) :=
  (List.range (n / 512 + 2)).filterMap fun i =>
    let a := max off ((off / 512 + i) * 512)
    let e := min (off + n) ((off / 512 + i + 1) * 512)
    if a < e then some (a, e - a) else none

def Dev.storeLoft (d : Dev) (l off : Nat) (bs : Bytes) : Dev :=
  match finOf 48 l with
  | some l => (loftPieces off bs.length).foldl (fun d p =>
      d.modLoft l fun lo => lo.store p.1 (sliceAt bs (p.1 - off) p.2) d.now) d
  | none => d

/-- Write at a linear address; a range may run on into the next loft. -/
def Dev.storeLinear (d : Dev) (a : Nat) (bs : Bytes) : Dev :=
  let n := min bs.length (2 ^ 33 - dramOff a)
  (d.storeLoft (dramLoft a) (dramOff a) (bs.take n)).storeLoft (dramLoft a + 1) 0 (bs.drop n)

def Dev.loadLoft (d : Dev) (l off n : Nat) : Bytes :=
  match finOf 48 l with
  | some l => (d.loft l).mem.readN off n
  | none => []

/-- Read at a linear address. -/
def Dev.loadLinear (d : Dev) (a n : Nat) : Bytes :=
  let k := min n (2 ^ 33 - dramOff a)
  d.loadLoft (dramLoft a) (dramOff a) k ++ d.loadLoft (dramLoft a + 1) 0 (n - k)

/-- Linear address of the first uncorrectable codeword that the range meets. -/
def Dev.badAt (d : Dev) (a n : Nat) : Option Nat :=
  let k := min n (2 ^ 33 - dramOff a)
  let bad (l off n : Nat) : Option Nat := match finOf 48 l with
    | some l => ((loftPieces off n).findSome? fun p => (d.loft l).badIn p.1 p.2).map fun o => l.val * 2 ^ 33 + 64 * o
    | none => none
  (bad (dramLoft a) (dramOff a) k).orElse fun _ => bad (dramLoft a + 1) 0 (n - k)

/-- The range holds an uncorrectable codeword. -/
def Dev.badLinear (d : Dev) (a n : Nat) : Bool := (d.badAt a n).isSome

/-! ### Handles -/

/-- The open copy of a handle. -/
def Dev.copyOf (d : Dev) (id : Nat) : Option (Fin 16) :=
  if id = 0 then none else (fins 16).find? fun i => (d.copies[i]).open_ && (d.copies[i]).id == id

def Dev.modCopy (d : Dev) (i : Fin 16) (f : Copy → Copy) : Dev := { d with copies := vmod d.copies i f }

/-- Insert a range of offsets, given by start and end, into ranges that rise and stay apart. -/
def addRange (a b : Nat) : List (Nat × Nat) → List (Nat × Nat)
  | [] => [(a, b)]
  | (x, y) :: rs =>
    if b < x then (a, b) :: (x, y) :: rs
    else if y < a then (x, y) :: addRange a b rs
    else addRange (min a x) (max b y) rs

def hitsRange (a b : Nat) (rs : List (Nat × Nat)) : Bool := rs.any fun r => a < r.2 && r.1 < b

/-- COPY_DONE and the end of the handle (R432). -/
def Dev.copyDone (d : Dev) (i : Fin 16) : Dev :=
  let c := d.copies[i]
  let d := d.post c.mailbox 5 c.mailbox 0x7010 (leBytes 2 c.id ++ leBytes 2 c.code.toNat ++ leBytes 4 0 ++ leBytes 8 c.moved)
  (d.modCopy i fun c => { c with open_ := false }).modPad c.paddock fun p => { p with quietSince := d.now }

/-- Units of a sealed copy (R471). -/
def Copy.units (c : Copy) : Nat := ceilDiv c.bytes 4080

/-- Bytes that travel: BYTES, or the sealed length S. -/
def Copy.total (c : Copy) : Nat := if c.session.isSome then c.bytes + 16 * c.units else c.bytes

/-- Plain bytes of unit `u`. -/
def Copy.unitLen (c : Copy) (u : Nat) : Nat := min 4080 (c.bytes - 4080 * u)

def Copy.iv (c : Copy) (u : Nat) : Bytes := leBytes 4 c.copyNo ++ leBytes 8 u

def Copy.aad (c : Copy) (u : Nat) : Bytes :=
  leBytes 8 (c.addr + 4080 * u) ++ leBytes 1 c.paddock.val ++ leBytes 1 (if c.kind == .copyOut then 1 else 0) ++ leBytes 6 0

/-! ### COPY_WRITE (R403) -/

/-- Bytes of a copy cross the mesh between a module and the lofts of a linear range, in either direction (R329). -/
def Dev.carryCopy (d : Dev) (m : ModId) (out : Bool) (pad : PadId) (a n : Nat) : Dev :=
  let k := min n (2 ^ 33 - dramOff a)
  let part (d : Dev) (l off n : Nat) : Dev := match finOf 48 l with
    | none => d
    | some l => (loftPieces off n).foldl (fun d p =>
        if out then d.carry (.loft l) (prOfModule m) 0 false (some pad) p.2
        else (d.carry (prOfModule m) (.loft l) 0 false (some pad) p.2).carry (.loft l) (prOfModule m) 1 false (some pad) 0) d
  part (part d (dramLoft a) (dramOff a) k) (dramLoft a + 1) 0 (n - k)

/-- The loft copy takes a message: the device after it, and whether it was taken. -/
def Dev.copyIn (d : Dev) (m : ModId) (i : Fin 16) (a : Nat) (data : Bytes) : Dev × Bool :=
  let c := d.copies[i]
  if c.session.isNone then
    if c.bytes < a + data.length then (d, false)
    else (((d.carryCopy m false c.paddock (c.addr + a) data.length).storeLinear (c.addr + a) data).modCopy i fun c => { c with moved := c.moved + data.length }, true)
  else
    let u := a / 4096
    let n := c.unitLen u
    if a % 4096 != 0 || c.units ≤ u || data.length != n + 16 then (d, false)
    else match Config.gcmOpen c.key (c.iv u) (c.aad u) (data.take n) (data.drop n) with
      | some pt => (((d.carryCopy m false c.paddock (c.addr + 4080 * u) n).storeLinear (c.addr + 4080 * u) pt).modCopy i fun c => { c with moved := c.moved + n }, true)
      | none => ((d.modCopy i fun c => { c with code := 0x8002#16 }).copyDone i, false)

/-- The stream of an image load takes a message, until the host has ended the delivery (R299). After the load has ended the bytes are discarded, and the handle closes
when all have arrived (R301). -/
def Dev.streamIn (d : Dev) (m : ModId) (i : Fin 16) (a : Nat) (data : Bytes) : Dev × Bool :=
  let c := d.copies[i]
  let e := a + data.length
  let got (d : Dev) : Dev := d.modCopy i fun c =>
    let g := addRange a e c.got
    { c with got := g, moved := sumNat (g.map fun r => r.2 - r.1) }
  if c.bytes < e || c.ended then (d, false)
  else match c.op.bind fun slot => (d.loadOf slot).map fun l => (slot, l) with
    | none =>
      let d := got d
      (d.modCopy i fun c => { c with open_ := !(c.bytes ≤ c.moved) }, true)
    | some (slot, l) =>
      if l.data.length + 2 ^ 20 < e || hitsRange a e c.got || (d.op slot).state == .suspended then (d, false)
      else
        let d := ((got d).carry (prOfModule m) prYard 0 false none data.length).modLoad slot fun l => l.deliver a data
        let d := d.modOp slot fun o => { o with progress := (d.copies[i]).moved }
        (d.passOn slot, true)

def copyWriteBad (h : HostHdr) (data : Bytes) : Bool :=
  h.reserved || h.len.toNat < 16 || 4096 < h.len.toNat || h.len.toNat % 16 != 0 || h.addr.toNat % 16 != 0 ||
    data.length != h.len.toNat

def copyWriteEffect (m : ModId) (h : HostHdr) (data : Bytes) (_ : Fuse) (d : Dev) : Dev :=
  d.byType h fun d => d.receive m h (1 + ceilDiv h.len.toNat 16) 0 (copyWriteBad h data) fun d =>
    match d.copyOf h.handle.toNat with
    | none => (d, false)
    | some i =>
      let r := match (d.copies[i]).kind with
        | .copyOut => (d, false)
        | .copyIn => d.copyIn m i h.addr.toNat data
        | .stream => d.streamIn m i h.addr.toNat data
      if r.2 then
        ({ r.1 with host := { r.1.host with copyBytes := r.1.host.copyBytes + BitVec.ofNat 64 data.length } }, true)
      else r

/-- COPY_WRITE (R403). -/
def execCopyWrite (m : ModId) (h : HostHdr) (data : Bytes) (st : State) : Host.Outcome State Fault Refusal :=
  onEvent st (takes m h 0x03) (copyWriteEffect m h data)

/-! ### OUT copies (R396, R432) -/

/-- Host address of a position of an OUT copy, and the bytes left in its range. -/
def hostPlace : List (BitVec 64 × Nat) → Nat → Option (BitVec 64 × Nat)
  | [], _ => none
  | (a, n) :: rs, p => if p < n then some (a + BitVec.ofNat 64 p, n - p) else hostPlace rs (p - n)

/-- Bytes of the next MEM_WRITE, with its host address. -/
def Copy.nextOut (c : Copy) : Option (BitVec 64 × Nat) :=
  (hostPlace c.ranges c.moved).map fun x =>
    let unit := if c.session.isSome then min (4096 - c.moved % 4096) (c.total - c.moved) else min 4096 (c.total - c.moved)
    (x.1, min x.2 unit)

/-- Linear range that the next MEM_WRITE reads. -/
def Copy.outRange (c : Copy) (n : Nat) : Nat × Nat :=
  if c.session.isSome then (c.addr + 4080 * (c.moved / 4096), c.unitLen (c.moved / 4096)) else (c.addr + c.moved, n)

/-- The next MEM_WRITE reads the DRAM: each of an unsealed copy does, and the first of a sealed unit (R472). -/
def Copy.reads (c : Copy) : Bool := c.session.isNone || c.moved % 4096 == 0

/-- The unit that is being sent: encrypted once, before its first MEM_WRITE (R472). -/
def Dev.outUnit (d : Dev) (c : Copy) : Bytes :=
  if c.reads then
    let u := c.moved / 4096
    let x := Config.gcmSeal c.key (c.iv u) (c.aad u) (d.loadLinear (c.addr + 4080 * u) (c.unitLen u))
    padTo (c.unitLen u) x.1 ++ padTo 16 x.2
  else c.unitBuf

/-- The bytes it carries. -/
def Dev.outBytes (d : Dev) (c : Copy) (n : Nat) : Bytes :=
  if c.session.isSome then sliceAt (d.outUnit c) (c.moved % 4096) n else d.loadLinear (c.addr + c.moved) n

/-- Copies whose every MEM_WRITE the host has returned are done (R399, R432). -/
def Dev.settleCopies (d : Dev) : Dev :=
  (fins 16).foldl (fun d i =>
    let c := d.copies[i]
    if c.open_ && c.kind == .copyOut && c.ended && c.owed.all (fun o => o.2 ≤ (d.module o.1).hostRet) then d.copyDone i
    else d) d

/-- The next MEM_WRITE of an OUT copy can go on module `m`: the trained module that holds most credit. -/
def outEnabled (i : Fin 16) (m : ModId) (d : Dev) : Bool :=
  let c := d.copies[i]
  let x := d.module m
  let room (y : Module) : Nat := if y.trained then y.roomP else 0
  d.worvis && c.open_ && c.kind == .copyOut && !c.ended && x.trained && x.queue.isEmpty &&
    (fins 2).all (fun o => room (d.module o) ≤ room x) &&
    (match c.nextOut with | some q => 1 + ceilDiv q.2 16 ≤ x.roomP | none => false)

/-- An uncorrectable read ends the copy with 0xE001 (R432). `ecc` is what the first codeword read shows. -/
def outEffect (i : Fin 16) (m : ModId) (ecc : DramEcc) (_ : Fuse) (d : Dev) : Dev :=
  let c := d.copies[i]
  match c.nextOut with
  | none => d
  | some (a, n) =>
    let r := c.outRange n
    let d := match finOf 48 (dramLoft r.1) with
      | some l => if c.reads then d.dramCode l (dramOff r.1) ecc else d
      | none => d
    if c.reads && d.badLinear r.1 r.2 then
      (d.modCopy i fun c => { c with ended := true, code := 0xE001#16 }).settleCopies
    else
      let unit := if c.session.isSome then d.outUnit c else []
      let d := (if c.reads then d.carryCopy m true c.paddock r.1 r.2 else d).say m (.memWrite m a (d.outBytes c n))
      let sent := (d.module m).sentP
      (d.modCopy i fun c => { c with
        unitBuf := unit, moved := c.moved + n, ended := c.total ≤ c.moved + n, owed := (m, sent) :: c.owed.filter fun o => o.1 != m }).settleCopies

/-- COPY_OUT_TRANSFER (R432). -/
def execCopyOutTransfer (copy : Fin 16) (m : ModId) (ecc : DramEcc) (st : State) : Host.Outcome State Fault Refusal :=
  onEvent st (outEnabled copy m) (outEffect copy m ecc)

/-! ### CREDIT (R399) -/

def creditBad (h : HostHdr) : Bool :=
  h.reserved || h.handle != 0#16 || h.len != 0#13 || 2 ^ 48 ≤ h.addr.toNat

/-- The counts of a CREDIT replace the last ones; what waited for credit goes out. -/
def creditEffect (m : ModId) (h : HostHdr) (_ : Fuse) (d : Dev) : Dev :=
  d.byType h fun d =>
  if creditBad h then d.refuseHost 0x7001 h
  else
    let p := BitVec.ofNat 16 (bvFld h.addr 0 16)
    let d := d.modModule m fun x => { x with
      hostRet := if x.gotCredit then x.hostRet + (p - x.hostP).toNat else 0
      hostP := p
      hostNp := BitVec.ofNat 16 (bvFld h.addr 16 16)
      hostCpl := BitVec.ofNat 16 (bvFld h.addr 32 16)
      gotCredit := true }
    (d.flush m).settleCopies

/-- CREDIT (R399). -/
def execCredit (m : ModId) (h : HostHdr) (st : State) : Host.Outcome State Fault Refusal :=
  onEvent st (takes m h 0x0F) (creditEffect m h)

end Sys2Proof.Machine
end

