-- ==== Sys2Proof/Machine/Runs.lean ====
section
/-!
DEFINITION. Power states of tiles (R527 to R529), the reload (R441), runs (R223, R417 to R419, R514) and the beat table
(R443 to R445).
-/
namespace Sys2Proof.Machine

/-! ### Power (R527 to R529) -/

/-- The remote engine without work: every tag is free and has moved on (R380, R441). -/
def Remote.cleared (r : Remote) : Remote :=
  { tags := r.tags.map fun g => { seq := g.seq + 1, held := none }, done := r.done, stale := r.stale }

/-- Channels with no message (R267). -/
def Chan.cleared (h : Chan) : Chan := { cfg := h.cfg, seq := h.seq }

/-- Queues, buffers, pipelines and registers of a position, empty. -/
def Pos.emptied (q : Pos) : Pos := { switch := q.switch, cfg := q.cfg, fired := q.fired, parityErrs := q.parityErrs }

/-- What the reload, and the entry to RETAIN, discard of the work of a tile's control core: contexts, bells, messages, remote
requests and what waits for the ports (R441, R527). What the fabric has asked of the tile's ports stays (R382). -/
def Tile.dropWork (t : Tile) : Tile :=
  { t with
    ctxs := Vector.replicate 16 {}
    bells := Vector.replicate 48 0#32
    bellNow := []
    bellNext := []
    queues := t.queues.map fun q => { cfg := q.cfg }
    chans := t.chans.map Chan.cleared
    rm := t.rm.cleared
    core := []
    arr := t.arr.filter fun a => a.region.isNone
    commitDue := false
    commitWait := false
    restored := false
    startDue := false
    portQ := []
    descBuf := [] }

/-- What RETAIN keeps: panels and valid bits, both banks, and the registers of the tile control block (R527). -/
def Tile.retain (t : Tile) : Tile :=
  { t.dropWork with
    grid := t.grid.map fun q => { switch := q.switch }
    mxu := {}
    vxus := Vector.replicate 16 {}
    msus := Vector.replicate 8 {}
    inbox := []
    fullMsg := none
    arr := []
    power := 2#8 }

/-- No load, run, checkpoint or copy of the paddock is in progress. -/
def Dev.padIdle (d : Dev) (k : PadId) : Bool :=
  d.ops.toList.all (fun o => !(o.live && o.paddock == some k)) && !(d.hitch.map fun h => h.pad == some k).getD false &&
    d.copies.toList.all fun c => !(c.open_ && c.paddock == k)

/-- The paddock's run is SUSPENDED (R419, R441). -/
def Dev.runSuspended (d : Dev) (p : Paddock) : Bool := (p.run.map fun i => (d.op i).state == .suspended).getD false

/-- State of a paddock as it is reported: RESUME_OP makes it RUNNING, though its run may wait QUEUED for a beat (R417, R441). -/
def Dev.padState (d : Dev) (p : Paddock) : PadState :=
  if p.state == .suspended && (p.run.map fun i => (d.op i).state == .queued).getD false then .running else p.state

/-- A checkpoint of the paddock is in progress. -/
def Dev.ckptBusy (d : Dev) (k : PadId) : Bool :=
  d.ops.toList.any fun o => o.live && o.typ == .checkpoint && o.paddock == some k

/-- The state that R528 gives a site: a held paddock stays ACTIVE, whatever its state. A checkpoint needs the tiles of a suspended
run (R448). -/
def Dev.powerFor (d : Dev) (s : SiteId) : Nat :=
  if !d.hasTile s then 3
  else match (d.padOf s).bind fun k => (d.pad k).map fun p => (k, p) with
    | none => 3
    | some (k, p) =>
      if p.held then 0
      else if d.runSuspended p then (if d.ckptBusy k then 0 else 1)
      else if (p.state == .ready || p.state == .stopped) && d.padIdle k && p.quietSince + msN 100 ≤ d.now then 2
      else 0

/-- A site enters a deeper state and loses what that state does not keep. -/
def Dev.sleep (d : Dev) (s : SiteId) (p : Nat) : Dev :=
  d.modTile s fun t =>
    if p == 3 then darkTile t else if p == 2 then t.retain else { t with power := BitVec.ofNat 8 p }

/-- TILE_POWER_CHANGE (R528). -/
def execTilePowerChange (s : SiteId) (st : State) : Host.Outcome State Fault Refusal :=
  onEvent st (fun d => d.worvis && d.power s < d.powerFor s) fun _ d => d.sleep s (d.powerFor s)

/-- The known-answer scan of a tile that wakes from RETAIN or OFF, after which the checks of its scrubber start anew; a tile that
fails it is retired (R529). The seed is the yardmaster's: a free value. -/
def Dev.wakeScan (d : Dev) (s : SiteId) : Dev :=
  let (x, d) := d.draw
  let seed := BitVec.ofNat 32 x
  let d := d.modTile s fun t =>
    let t := (t.askScan seed).scan
    { t with scrub := { t.scrub with checkedAt := d.now, lastBeat := BitVec.ofNat 32 t.scrub.beat } }
  if (d.tile s).scrub.scanOk seed then d else d.retireTile s (some 0xE004)

/-- A tile is ACTIVE again (R527): after OFF every panel is invalid, both banks are EMPTY and the IMAGE bit is clear. -/
def Dev.wake (d : Dev) (s : SiteId) : Dev :=
  let p := d.power s
  if p == 0 then d
  else
    let d := d.modTile s fun t => { t with power := 0#8 }
    let d := if p != 3 then d
      else
        let d := d.modTile s fun t => { t with
          spad := t.spad.invalidate, banks := Vector.replicate 2 {}, ctl := { t.ctl with cfgBank := 0#8, imageTag := 0#64 } }
        match d.padOf s with
        | some k => d.dropImage k
        | none => d
    if p == 1 then d else d.wakeScan s

/-- The yardmaster wakes every tile of a paddock before it acts on it (R528). -/
def Dev.wakePad (d : Dev) (k : PadId) : Dev :=
  match d.pad k with
  | some p => p.sites.foldl (fun d s => d.wake s) d
  | none => d

/-- A tile that wakes from RETAIN or OFF and fails the known-answer scan is retired (R529). -/
def tileWakeEffect (s : SiteId) (katPass : Bool) (_ : Fuse) (d : Dev) : Dev :=
  let deep := 2 ≤ d.power s
  let d := d.wake s
  if deep && !katPass then d.retireTile s (some 0xE004) else d

/-- TILE_WAKE (R527). -/
def execTileWake (s : SiteId) (katPass : Bool) (st : State) : Host.Outcome State Fault Refusal :=
  onEvent st (fun d => d.worvis && d.powerFor s < d.power s) (tileWakeEffect s katPass)

/-! ### The reload (R441) -/

/-- What the reload does on a tile. Completion records, error flags and counts stay. -/
def Tile.reload (t : Tile) : Tile :=
  { t.dropWork with
    grid := t.grid.map Pos.emptied
    mxu := { done := t.mxu.done }
    vxus := t.vxus.map fun v => { flags := v.flags }
    msus := t.msus.map fun u => {
      done := u.done
      mv := { seq := u.mv.seq, done := u.mv.done }
      upd := { seq := u.upd.seq, repeat_ := u.upd.repeat_, flags := u.upd.flags } }
    pool := t.active.pool
    ctl := { t.ctl with
      ctxFault := 0#16, faultCode := 0#16, phaseState := 0#8, cfgGen := 0#16, heldNclk := 0#64 } }

/-- The reload of a paddock: its tiles, and the positions of its pass-through sites. -/
def Dev.reload (d : Dev) (k : PadId) : Dev :=
  match d.pad k with
  | none => d
  | some p =>
    (d.forSites p.sites Tile.reload).forSites (p.pass.filter fun s => !p.sites.contains s) fun t =>
      { t with grid := t.grid.map Pos.emptied }

/-- A loft request of a site has not been performed. -/
def LoftReq.of (r : LoftReq) (ss : List SiteId) : Bool := ss.contains r.who.site.1

/-- A packet that carries a loft request of the sites, or its data. -/
def MeshMsg.loftOf (b : MeshMsg) (ss : List SiteId) : Bool := match b with
  | .loft r => r.of ss
  | .loftData r _ => r.of ss
  | _ => false

/-- No loft request of the sites is on its way, in a controller or returning. -/
def Dev.loftQuiet (d : Dev) (ss : List SiteId) : Bool :=
  (d.lofts.toList.all fun l =>
    l.direct.all (fun r => !r.of ss) && l.router.all (fun r => !r.of ss) && l.back.all (fun b => !b.2.1.of ss) &&
      l.tags.all fun t => t.reqs.all fun r => !r.of ss) &&
  d.mesh.all (fun m => !m.body.loftOf ss) && d.landing.all fun x => !x.2.body.loftOf ss

/-- A selector of the standard set (R514): EVENT, UNIT, ALL_UNITS, MODE, THRESH. -/
def selector (event unit : Nat) (all : Bool) (mode thresh : Nat) : Word :=
  BitVec.ofNat 32 (event + unit * 2 ^ 8 + (if all then 2 ^ 13 else 0) + mode * 2 ^ 14 + thresh * 2 ^ 16)

/-- The standard selector set for FOCUS `f` (R514). SUM is mode 0, LEVEL 1, EDGE 2. -/
def standardSet (f : Nat) : Vector Word 16 := #v[
  selector 0x01 1 true 0 0, selector 0x02 0 true 0 0, selector 0x03 0 true 0 0, selector 0x07 0 false 1 4,
  selector 0x05 0 false 0 0, selector 0x06 0 false 0 0, selector 0x08 0 false 0 0, selector 0x08 0 false 1 32,
  selector 0x01 f false 0 0, selector 0x02 f false 2 1, selector 0x03 f false 1 8, selector 0x04 f false 1 4,
  selector 0x0A 0 false 0 0, selector 0x0C 0 false 0 0, selector 0x0E 0 false 0 0, selector 0x0F 0 false 2 32]

/-- Counters at the start of a run: all zero, with the run's measurement word (R509, R513, R514). -/
def Pmc.start (meas : BitVec 64) : Pmc := { sel := standardSet (bvFld meas 0 5), meas := meas }

/-! ### Runs (R417, R419, R441) -/

/-- A run is accepted: counters, the reload, the paddock RUNNING; its operation stands QUEUED. -/
def Dev.startRun (d : Dev) (k : PadId) (slot : Fin 64) (params : List (BitVec 64)) : Dev :=
  let d := d.wakePad k
  let sites := ((d.pad k).map (·.sites)).getD []
  let d := d.forSites sites fun t => { t with pmc := Pmc.start (params.getD 63 0#64) }
  (d.reload k).modPad k fun p => { p with
    state := .running, run := some slot, params := params, reloading := true, stopAt := none, due := [], faultRec := none,
    suspendDue := false, idle := 0, fired := false }

/-- A run goes on from a suspension point: every tile has the next phase to commit (R225, R419); one that was suspended
while it was QUEUED or reloads goes on with that. -/
def Dev.goOn (d : Dev) (k : PadId) : Dev :=
  let d := d.wakePad k
  match d.pad k with
  | none => d
  | some p =>
    let d := d.modPad k fun p => { p with state := .running, suspendDue := false }
    if p.reloading || p.state != .suspended then d else d.forSites p.sites Tile.startCommit

/-- The reload has finished and the run's operation is RUNNING. -/
def reloadDone (k : PadId) (d : Dev) : Bool :=
  d.worvis && match d.pad k with
  | some p => p.reloading && p.stopAt.isNone && p.state == .running &&
      (p.run.map fun i => (d.op i).state == .running || (d.op i).state == .suspending).getD false && d.loftQuiet p.sites
  | none => false

/-- The parameters are written and context 0 of each tile has phase 0 to commit (R223). -/
def reloadEffect (k : PadId) (_ : Fuse) (d : Dev) : Dev :=
  match d.pad k with
  | none => d
  | some p =>
    let params := Vector.ofFn fun i : Fin 64 => p.params.getD i.val 0#64
    ((d.tellTiles p.sites k 512).forSites p.sites fun t => Tile.startCommit { t with ctl := { t.ctl with param := params } }).modPad k fun p =>
      { p with reloading := false }

/-- RELOAD_COMPLETE (R441). -/
def execReloadComplete (k : PadId) (st : State) : Host.Outcome State Fault Refusal :=
  onEvent st (reloadDone k) (reloadEffect k)

/-- CANCEL_OP on a run that is in progress: the paddock stops at once, with a snapshot of FAULT_CODE 0x0000 as its fault
record, and no fault event (R419, R429). -/
def Dev.cancelRun (d : Dev) (k : PadId) : Dev :=
  match d.pad k with
  | none => d
  | some p =>
    let r : FaultRec := { kind := 1, code := 0#16, time := d.stamp, data := snapshot d k p { code := 0 } p.idle }
    let d := d.modPad k fun q => { q with
      state := .stopped, stopAt := some d.now, faultRec := some r, reloading := false, suspendDue := false }
    d.forSites p.sites fun t => t.dropSample d.now

/-! ### Beats (R443 to R445) -/

/-- NCLK cycles of the entries before number `j`, and of the whole table. -/
def beatStart (es : List (Option PadId × Nat)) (j : Nat) : Nat := 1650 * sumNat ((es.take j).map (·.2))

def Beats.named (b : Beats) : Option PadId := (b.entries[b.current]?).bind (·.1)

/-- A beat paddock: at least one entry names it. -/
def Beats.names (b : Beats) (k : PadId) : Bool := b.entries.any fun e => e.1 == some k

/-- Timestamp at which the current beat ends. -/
def Beats.ends (b : Beats) : Nat := b.t0 + beatStart b.entries (b.current + 1)

/-- A paddock is held (R444, R446, R449). -/
def Dev.hold (d : Dev) (k : PadId) : Dev :=
  match d.pad k with
  | none => d
  | some p =>
    let busy := d.runOn p && p.sites.any fun s => (d.tile s).ctxs.toList.any fun c => c.state != .idle
    let d := d.modPad k fun p => { p with held := true, holdAt := d.now }
    if busy then { d with accounts := vmodN d.accounts p.owner fun a => { a with preempt := satInc a.preempt } } else d

/-- A paddock is released: the timers that the hold froze go on where they stood (R444). -/
def Dev.unhold (d : Dev) (k : PadId) : Dev :=
  d.modPad k fun p => { p with held := false, frozen := p.frozen + (d.now - p.holdAt) }

/-- Hold and release paddocks as the current beat says, and show it in TILE_HOLD. -/
def Dev.applyBeat (d : Dev) (b : Beats) : Dev :=
  (fins 16).foldl (fun d k =>
    match d.pad k with
    | none => d
    | some p =>
      let h := b.names k && b.named != some k
      let d := if h && !p.held then d.hold k else if !h && p.held then d.unhold k else d
      d.forSites p.sites fun t => { t with ctl := { t.ctl with hold := BitVec.ofNat 8 (bit h 0 + bit (b.names k) 1) } }) d

/-- A grant that names a paddock begins: it is counted for the paddock's owner (R449). -/
def Dev.grantBeat (d : Dev) (old new : Option PadId) : Dev :=
  match new with
  | some k =>
    if old == new then d
    else match d.pad k with
      | some p => { d with accounts := vmodN d.accounts p.owner fun a => { a with beats := satInc a.beats } }
      | none => d
  | none => d

/-- The table takes a beat as its current one. -/
def Dev.enterBeat (d : Dev) (old : Option PadId) (b : Beats) : Dev :=
  ({ d with beats := some b }.applyBeat b).grantBeat old b.named

/-- The beat after the current one: of a table that waits, entry 0 (R443). -/
def Beats.next (b : Beats) : Beats :=
  match b.pending with
  | some es => { entries := es, t0 := b.ends, current := 0 }
  | none =>
    if b.current + 1 < b.entries.length then { b with current := b.current + 1 }
    else { b with current := 0, t0 := b.ends }

def beatEffect (_ : Fuse) (d : Dev) : Dev :=
  match d.beats with
  | some b => d.enterBeat b.named b.next
  | none => d

/-- BEAT_BOUNDARY (R443, R444). -/
def execBeatBoundary (st : State) : Host.Outcome State Fault Refusal :=
  onEvent st (fun d => d.worvis && (d.beats.map fun b => decide (b.ends ≤ d.now)).getD false) beatEffect

/-- BEAT_TABLE_SET (R443): at once where no table has been set, else at the next boundary. -/
def Dev.setBeats (d : Dev) (es : List (Option PadId × Nat)) : Dev :=
  match d.beats with
  | none => d.enterBeat none { entries := es, t0 := d.now }
  | some b => { d with beats := some { b with pending := some es } }

/-- A released paddock's entries are idle beats (R442). -/
def Dev.idleBeats (d : Dev) (k : PadId) : Dev :=
  let f (es : List (Option PadId × Nat)) : List (Option PadId × Nat) := es.map fun e => if e.1 == some k then (none, e.2) else e
  { d with beats := d.beats.map fun b => { b with entries := f b.entries, pending := b.pending.map f } }

end Sys2Proof.Machine
end

