-- ==== Sys2Proof/Machine/Checkpoints.lean ====
section
/-!
DEFINITION. Windows of a paddock (R438) and checkpoints (R447, R448, R474). R447 says what the header and the state record
hold; their byte layout is the model's own.
-/
namespace Sys2Proof.Machine

/-! ### Windows -/

/-- Linear address of a window's first byte, and of the first byte after it. -/
def Window.start (w : Window) : Nat := w.loft.val * 2 ^ 33 + w.base4k * 4096
def Window.stop (w : Window) : Nat := w.start + w.size4k * 4096

/-- Every byte of a range lies in some window of the list (R432). -/
def covered (ws : List Window) : Nat → Nat → Nat → Bool
  | 0, a, e => e ≤ a
  | fuel + 1, a, e =>
    if e ≤ a then true
    else match ws.find? fun w => w.start ≤ a && a < w.stop with
      | some w => covered ws fuel w.stop e
      | none => false

def inWindows (ws : List Window) (a n : Nat) : Bool := covered ws (ws.length + 1) a (a + n)

/-- The paddock has been sealed (R464). -/
def Dev.sealed (d : Dev) (k : PadId) : Bool := (d.seals[k]).sealed_

/-! ### Size -/

def bitCount (n x : Nat) : Nat := ((List.range n).filter fun i => bitOf x i).length

def bitList (n x : Nat) : List Nat := (List.range n).filter fun i => bitOf x i

/-- Valid panels over a paddock's tiles. -/
def Dev.validPanels (d : Dev) (p : Paddock) : Nat := sumNat (p.sites.map fun s => bitCount 768 (d.tile s).spad.valid.toNat)

/-- Bytes of the tag table of a sealed checkpoint (R474). -/
def tagTable (t v : Nat) : Nat := ceilDiv (16 * (2 + t + v)) 4096 * 4096

/-- Size of a checkpoint of `t` tiles and `v` panels (R447, R474). -/
def ckptSize (sealed_ : Bool) (t v : Nat) : Nat := 65536 * (1 + t) + 32768 * v + if sealed_ then tagTable t v else 0

/-! ### What a checkpoint holds -/

/-- Barriers of a paddock: its block, then its commit barrier (R254). -/
def Paddock.carBars (p : Paddock) (k : PadId) : List Nat :=
  ((List.range p.block.barCount).map fun i => p.block.barBase + i) ++ [240 + k.val]

/-- The header: IMAGE_TAG, tile count, phase, slot lengths, work counters of the paddock, its barriers, each with the children that
have arrived at it where it has a spanning slot. -/
def Dev.ckptHeader (d : Dev) (k : PadId) (p : Paddock) : Bytes :=
  let c := p.block
  let phase := (p.sites.head?.map fun s => (d.tile s).ctl.phase.toNat).getD 0
  let bars := (p.carBars k).map fun b => vgetN d.car.bars b {}
  padTo 65536 (leBytes 8 ((p.image.map (·.tag.toNat)).getD 0) ++ leBytes 4 p.tiles.length ++ leBytes 4 phase
    ++ (d.seqs.toList.flatMap fun q => leBytes 4 (if q.bound == some k then q.length else 0))
    ++ padTo 4096 ((List.range c.workCount).flatMap fun i =>
        let w := vgetN d.car.works (c.workBase + i) {}
        leBytes 8 w.value.toNat ++ leBytes 8 w.gen.toNat)
    ++ padTo 1928 (bars.flatMap fun b => leBytes 8 b.state.toNat)
    ++ (List.range 16).flatMap fun j => match bars.find? fun b => b.spanning && b.slot == j with
      | some b => padTo 512 (leBytes 2 b.children.length ++ b.children.flatMap fun x => leBytes 2 x.toNat)
      | none => padTo 512 [])

def ChanState.code : ChanState → Nat
  | .idle => 0
  | .inFlight => 1
  | .backoff => 2
  | .stuck => 3

def chanStateOf (n : Nat) : ChanState := match n with
  | 1 => .inFlight
  | 2 => .backoff
  | 3 => .stuck
  | _ => .idle

/-- The state record of a tile: TILE_PARAM, bells, valid bits, HEAD and TAIL of the regions, channel states, queue entries. -/
def Tile.ckptRecord (t : Tile) : Bytes :=
  padTo 65536 ((t.ctl.param.toList.flatMap fun x => leBytes 8 x.toNat) ++ ((List.range 48).flatMap fun b => leBytes 4 (min (t.bell b + bellSum t.bellNext b) 0xFFFFFFFF))
    ++ leBytes 96 t.spad.valid.toNat ++ (t.regions.toList.flatMap fun r => leBytes 4 r.head.toNat ++ leBytes 4 r.tail.toNat)
    ++ (t.chans.toList.flatMap fun h => leBytes 4 h.state.code ++ leBytes 4 h.acked.toNat)
    ++ (t.queues.toList.flatMap fun q => leBytes 4 q.entries.length)
    ++ (t.queues.toList.flatMap fun q => padTo 1024 (q.entries.flatMap fun e => padTo 64 e)))

/-- The valid panels of a tile, ascending, each with the address of its first uncorrectable word (R486). DESIGN CHOICE, log entry 86:
the movers that carry them (R30, R448) make no accesses of their own. -/
def Tile.ckptPanels (t : Tile) : List (Bytes × Option Nat) :=
  (bitList 768 t.spad.valid.toNat).map fun i =>
    (t.spad.mem.readN (i * 32768) 32768, (t.spad.badWords.find? fun w => w * 8 / 32768 == i).map (· * 8))

/-- Units in order: the header, then for each tile its record and its panels. A panel that cannot be read names its site and
address. -/
def Dev.ckptUnits (d : Dev) (k : PadId) (p : Paddock) : List (Bytes × Option (SiteId × Nat)) :=
  (d.ckptHeader k p, none) :: p.sites.flatMap fun s =>
    ((d.tile s).ckptRecord, none) :: (d.tile s).ckptPanels.map fun x => (x.1, x.2.map fun a => (s, a))

/-- Checkpoint key of an image (R474). -/
def ckptKey (im : ImageInfo) : Bytes := (Config.shake256 32 (ascii "FLEVER-CKPT-1" ++ im.key)).take 32

def ckptIv (nonce u : Nat) : Bytes := leBytes 8 nonce ++ leBytes 4 u

/-- Units as a checkpoint holds them: in the clear, or each encrypted with the tag table after them (R474). -/
def Dev.ckptBytes (d : Dev) (k : PadId) (p : Paddock) (nonce : Nat) (us : List Bytes) : Bytes :=
  if !d.sealed k then us.flatten
  else
    let im := p.image.getD {}
    let enc := us.zipIdx.map fun x => Config.gcmSeal (ckptKey im) (ckptIv nonce x.2) (leBytes 8 im.tag.toNat) x.1
    (enc.flatMap (·.1)) ++ padTo (tagTable p.tiles.length (us.length - 1 - p.tiles.length))
      (leBytes 8 nonce ++ leBytes 4 us.length ++ leBytes 4 0 ++ enc.flatMap (·.2))

/-- What a SAVE writes: the checkpoint, or its units before the first that cannot be read, and the word that cannot (R447, R486). -/
def Dev.ckptSave (d : Dev) (k : PadId) (p : Paddock) (nonce : Nat) : Bytes × Option (SiteId × Nat) :=
  let us := d.ckptUnits k p
  let good := us.takeWhile fun x => x.2.isNone
  let bytes := d.ckptBytes k p nonce (good.map (·.1))
  ((if good.length < us.length then bytes.take (sumNat (good.map fun x => x.1.length)) else bytes), us.findSome? (·.2))

/-- A SAVE that is cancelled discards what it has written: its header no longer stands there (R419). DESIGN CHOICE, log entry 88: it
reads as zero. -/
def Dev.dropSave (d : Dev) (slot : Fin 64) : Dev :=
  let o := d.op slot
  if o.typ == .checkpoint && o.args.getD 0 0 == 0 then
    d.storeLinear (o.args.getD 1 0) (List.replicate (min 65536 o.progress) 0#8) else d

/-! ### Reading a checkpoint back -/

/-- Read units one after another: each record tells how many panels follow it. `at_` is the place of the next unit, `u`
its number. None where a tag fails. -/
def readTiles (rd : Nat → Nat → Nat → Option Bytes) : Nat → Nat → Nat → Option (List (Bytes × List Bytes))
  | 0, _, _ => some []
  | t + 1, at_, u => do
    let rec_ ← rd at_ 65536 u
    let n := bitCount 768 (fieldAt rec_ 704 96)
    let ps ← (List.range n).mapM fun i => rd (at_ + 65536 + 32768 * i) 32768 (u + 1 + i)
    let rest ← readTiles rd t (at_ + 65536 + 32768 * n) (u + 1 + n)
    pure ((rec_, ps) :: rest)

/-- One unit of a checkpoint at `a`: in the clear, or opened with its tag of the table at `table`. -/
def Dev.ckptUnit (d : Dev) (im : ImageInfo) (sealed_ : Bool) (a table at_ n u : Nat) : Option Bytes :=
  let bs := d.loadLinear (a + at_) n
  if !sealed_ then some bs
  else Config.gcmOpen (ckptKey im) (ckptIv (leNat (d.loadLinear (a + table) 8)) u) (leBytes 8 im.tag.toNat) bs
    (d.loadLinear (a + table + 16 + 16 * u) 16)

/-- Header and tiles of the checkpoint at an address. The table of a sealed one lies after as many panels as its unit
count says. -/
def Dev.readCkpt (d : Dev) (k : PadId) (p : Paddock) (a : Nat) : Option (Bytes × List (Bytes × List Bytes)) :=
  let im := p.image.getD {}
  let t := p.tiles.length
  let parse (table : Nat) : Option (Bytes × List (Bytes × List Bytes)) := do
    let h ← d.ckptUnit im (d.sealed k) a table 0 65536 0
    let ts ← readTiles (d.ckptUnit im (d.sealed k) a table) t 65536 1
    pure (h, ts)
  if !d.sealed k then parse 0
  else (List.range (768 * t + 1)).findSome? fun v =>
    let table := ckptSize false t v
    if leNat (d.loadLinear (a + table + 8) 4) != 1 + t + v then none
    else (parse table).filter fun r => sumNat (r.2.map fun x => x.2.length) == v

/-- Write a tile's record and panels back (R448). -/
def Tile.restore (t : Tile) (rec_ : Bytes) (panels : List Bytes) (phase : Nat) : Tile :=
  let valid := fieldAt rec_ 704 96
  let mem := ((bitList 768 valid).zip panels).foldl (fun m x =>
    Mem.writeN (m.clear (x.1 * 32768) ((x.1 + 1) * 32768)) (x.1 * 32768) x.2) t.spad.invalidate.mem
  let covers (w : Nat) : Bool := bitOf valid (w * 8 / 32768)
  { t with
    ctl := { t.ctl with
      param := Vector.ofFn fun i : Fin 64 => BitVec.ofNat 64 (fieldAt rec_ (8 * i.val) 8),
      phase := BitVec.ofNat 32 phase }
    restored := true
    bells := Vector.ofFn fun i : Fin 48 => BitVec.ofNat 32 (fieldAt rec_ (512 + 4 * i.val) 4)
    spad := { t.spad with
      mem := mem, valid := BitVec.ofNat 768 valid, badWords := t.spad.badWords.filter fun w => !covers w,
      zeroQ := t.spad.invalidate.zeroQ.map fun l => l.filter fun z => !bitOf valid z.1 }
    regions := Vector.ofFn fun i : Fin 16 => { t.regions[i] with
      head := BitVec.ofNat 32 (fieldAt rec_ (800 + 8 * i.val) 4), tail := BitVec.ofNat 32 (fieldAt rec_ (804 + 8 * i.val) 4) }
    chans := Vector.ofFn fun i : Fin 64 => { t.chans[i] with
      state := chanStateOf (fieldAt rec_ (928 + 8 * i.val) 4), acked := BitVec.ofNat 16 (fieldAt rec_ (932 + 8 * i.val) 4) }
    queues := Vector.ofFn fun i : Fin 32 => { t.queues[i] with
      entries := (List.range (min 16 (fieldAt rec_ (1440 + 4 * i.val) 4))).map fun j => sliceAt rec_ (1568 + 1024 * i.val + 64 * j) 64 } }

/-- The carillon state and slot lengths of a header. GEN of every work counter goes one beyond the saved one (R448). -/
def Dev.restoreHeader (d : Dev) (k : PadId) (p : Paddock) (h : Bytes) : Dev :=
  let c := p.block
  let d := { d with seqs := Vector.ofFn fun i : Fin 16 =>
    let q := d.seqs[i]
    if q.bound == some k then { q with length := fieldAt h (16 + 4 * i.val) 4 } else q }
  let d := (List.range c.workCount).foldl (fun (d : Dev) i => { d with car := { d.car with
    works := vmodN d.car.works (c.workBase + i) fun w => { w with
      value := BitVec.ofNat 64 (fieldAt h (80 + 16 * i) 8), gen := BitVec.ofNat 16 (fieldAt h (88 + 16 * i) 2 + 1) } } }) d
  let bars := (p.carBars k).zipIdx
  let d := bars.foldl (fun (d : Dev) x => { d with car := { d.car with bars := vmodN d.car.bars x.1 fun b =>
    let at_ := 6104 + 512 * b.slot
    { b with
      state := BitVec.ofNat 64 (fieldAt h (4176 + 8 * x.2) 8), stuck := false
      children := if b.spanning then (List.range (min 255 (fieldAt h at_ 2))).map fun i => BitVec.ofNat 14 (fieldAt h (at_ + 2 + 2 * i) 2)
                  else [] } } }) d
  d.forSites p.sites fun t => { t with ctl := bars.foldl (fun y x =>
    y.setEpisode x.1 (BitVec.ofNat 2 (fieldAt h (4176 + 8 * x.2) 8 / 2 ^ 24))) t.ctl }

/-- RESTORE: the tiles are empty of work, every item is written back, and the run stands SUSPENDED at the saved phase
(R448). None where a tag fails: nothing is changed (R474). -/
def Dev.restore (d : Dev) (k : PadId) (a : Nat) (slot : Fin 64) : Option Dev :=
  match d.pad k with
  | none => none
  | some p => (d.readCkpt k p a).map fun (h, ts) =>
    let d := (d.reload k).restoreHeader k p h
    let phase := fieldAt h 12 4
    let d := (p.sites.zip ts).foldl (fun d x => d.modTile x.1 fun t => t.restore x.2.1 x.2.2 phase) d
    d.modPad k fun p => { p with
      state := .suspended, run := some slot, stopAt := none, due := [], reloading := false, suspendDue := false, idle := 0 }

end Sys2Proof.Machine
end

