-- ==== Sys2Proof/Machine/Operations.lean ====
section
/-!
DEFINITION. The events of long operations (R417, R419, R433, R434): start, suspend and cancel points, completion.
-/
namespace Sys2Proof.Machine

/-- The meaning of an event that may write fuses or flash. -/
def onBoth (s : State) (en : Dev → Bool) (f : Fuse → Dev → Fuse × Dev) : Host.Outcome State Fault Refusal :=
  .next (if en s.dev then { s with fuse := (f s.fuse s.dev).1, dev := (f s.fuse s.dev).2 } else s)

/-! ### OP_START (R417) -/

/-- Operation `slot` waits, and what it needs is free: a run of a beat paddock waits for its beat (R445), one rebuild runs
at a time, and not within 64 µs of the last flip acknowledgement (R376); firmware is staged in recovery mode too (R533). -/
def startEnabled (slot : Fin 64) (d : Dev) : Bool :=
  let o := d.op slot
  o.live && o.state == .queued && (d.worvis || (d.stage == .recovery && o.typ == .fwStage)) &&
    (match o.typ with
     | .run => (o.paddock.bind d.pad).map (·.held) == some false
     | .imageLoad => !((d.loadOf slot).map (·.hitch)).getD false || d.leadLoad.isNone
     | .routeRebuild => d.rebuild.isNone && d.rebuildOpen
     | _ => true)

/-- What the start does beside the state: a load clears what R297 names, a rebuild writes its entries (R376), a run that
goes on from a suspension commits its next phase, a SAVE takes the bytes it is to write. -/
def startWork (slot : Fin 64) (d : Dev) : Dev :=
  let o := d.op slot
  match o.typ, o.paddock with
  | .imageLoad, some k => d.startLoad k
  | .run, some k => d.goOn k
  | .checkpoint, some k => match o.args.getD 0 0, d.pad k with
    | 0, some p =>
      let x := d.ckptSave k p (o.args.getD 3 0)
      d.modOp slot fun o => { o with data := x.1, bad := x.2 }
    | _, _ => d
  | .routeRebuild, _ =>
    let n := ((d.fabDevices.map (·.toNat)).foldl max d.number.toNat + 1) * (1 + d.fabDevices.length)
    let d := { d with rebuild := some { op := slot, full := o.args.getD 0 0 == 1, written := n } }
    ((d.modOp slot fun o => { o with progress := n }).startRebuild).stepRebuild
  | _, _ => d

/-- OP_START (R417). -/
def execOpStart (slot : Fin 64) (st : State) : Host.Outcome State Fault Refusal :=
  onEvent st (startEnabled slot) fun _ d => startWork slot (d.setOp slot .running 0)

/-! ### Work between points (R419) -/

/-- Lofts of a mask. -/
def maskSites (m : Nat) : List SiteId := (fins 48).filter fun s => bitOf m s.val

/-- Units of work of an operation: channels, or bytes of a checkpoint. -/
def Op.total (o : Op) : Nat :=
  match o.typ with
  | .scrub | .dramTest => 64 * (maskSites (o.args.getD 0 0)).length
  | .checkpoint => o.args.getD 4 0
  | .fwStage => o.args.getD 1 0
  | .imageLoad | .run | .routeRebuild => 0

/-- Work up to the next point: a channel, or 4 MiB. -/
def Op.step (o : Op) (total : Nat) : Nat :=
  match o.typ with
  | .checkpoint => min (2 ^ 22) (total - o.progress)
  | _ => 1

/-- Loft and channel of a unit of work. -/
def chanOf (mask u : Nat) : Option (SiteId × Nat) := ((maskSites mask)[u / 64]?).map fun l => (l, u % 64)

/-- Uncorrectable codewords in a channel. -/
def Loft.badOfChan (l : Loft) (ch : Nat) : List Nat := l.badWords.filter fun u => offChannel (16 * u) == ch

/-- A test writes and reads a channel: it is zero afterwards. -/
def Loft.testChan (l : Loft) (ch : Nat) : Loft :=
  { l with mem := l.mem.filter fun c => offChannel c.1 != ch, badWords := l.badWords.filter fun u => offChannel (16 * u) != ch }

/-- A scrub reads every codeword of a channel (R213). -/
def Dev.scrubChan (d : Dev) (l : SiteId) (ch : Nat) : Dev :=
  ((d.loft l).badOfChan ch).foldl (fun d u => d.scrubCode l (16 * u) .clean) d

/-- A word that a SAVE or a RESTORE cannot read ends it: UNCORRECTABLE_READ in context 1 of the tile, which drives its movers
(R448, R486). -/
def Dev.ckptFault (d : Dev) (slot : Fin 64) (s : SiteId) (addr area : Nat) : Dev :=
  (d.ctxFault s 1 { code := 0xE001, addr := addr, area := area }).setOp slot .failed 0xE001

/-- The same where a RESTORE meets an uncorrectable codeword of the range that it reads. -/
def Dev.restoreBad (d : Dev) (slot : Fin 64) (a n : Nat) : Option Dev :=
  (d.badAt a n).map fun u => match (((d.op slot).paddock.bind d.pad).bind fun p => p.sites.head?) with
    | some s => d.ckptFault slot s u 1
    | none => d.setOp slot .failed 0xE001

/-- Do the work up to the next point. -/
def Dev.workStep (d : Dev) (slot : Fin 64) : Dev :=
  let o := d.op slot
  let n := o.step o.total
  let d := match o.typ, chanOf (o.args.getD 0 0) o.progress with
    | .scrub, some (l, ch) => d.scrubChan l ch
    | .dramTest, some (l, ch) =>
      (d.modOp slot fun o => { o with result := o.result + ((d.loft l).badOfChan ch).length }).modLoft l fun lo => lo.testChan ch
    | .checkpoint, _ =>
      let at_ := o.args.getD 1 0 + o.progress
      if o.args.getD 0 0 == 0 then
        let d := d.storeLinear at_ (sliceAt o.data o.progress n)
        match o.bad with
        | some (s, a) => if o.data.length < o.progress + n then d.ckptFault slot s a 0 else d
        | none => d
      else (d.restoreBad slot at_ n).getD d
    | _, _ => d
  d.modOp slot fun o => { o with progress := o.progress + n }

/-! ### OP_POINT_REACHED (R419) -/

/-- The run stands at a phase drain that another phase would follow. -/
def runPoint (k : PadId) (d : Dev) : Bool :=
  phaseEndEnabled k d && match d.pad k with
  | some p => p.suspendDue && (leftOver d p).isNone && match p.sites with
    | s :: _ => !phLast ((d.tile s).active.phase (d.tile s).ctl.phase.toNat)
    | [] => false
  | none => false

/-- The operation has reached a point. -/
def pointEnabled (slot : Fin 64) (d : Dev) : Bool :=
  let o := d.op slot
  let stops := o.state == .suspending || o.state == .cancelling
  o.live && (match o.typ with
    | .run => (o.state == .cancelling) || (o.state == .suspending && (o.paddock.map fun k => runPoint k d).getD false)
    | .imageLoad => match d.loadOf slot with
      | some l => !l.committing && (o.state == .cancelling || (o.state == .suspending && decide (o.point < l.bodies.length)))
      | none => false
    | .checkpoint | .scrub | .dramTest => d.worvis && (o.state == .running || stops) && decide (o.progress < o.total)
    | .fwStage => o.state == .cancelling
    | .routeRebuild => o.state == .cancelling && !d.fab.flipped && (d.rebuild.map fun r => r.op == slot).getD false)

/-- The operation does the work up to the point, and is suspended or cancelled there. -/
def pointEffect (slot : Fin 64) (fz : Fuse) (d : Dev) : Fuse × Dev :=
  let o := d.op slot
  let final := o.state == .cancelling
  let halt (d : Dev) : Dev :=
    if (d.op slot).state.final then d else if o.state == .suspending then d.setOp slot .suspended 0 else if final then d.setOp slot .cancelled 0 else d
  match o.typ with
  | .run =>
    if final then (fz, halt d)
    else (fz, halt (match o.paddock with
      | some k => d.modPad k fun p => { p with state := .suspended, suspendDue := false }
      | none => d))
  | .imageLoad => (fz, if final then d.endLoad slot .cancelled 0 else halt d)
  | .checkpoint | .scrub | .dramTest =>
    let d := halt (d.workStep slot)
    (fz, if (d.op slot).state == .cancelled then d.dropSave slot else d)
  | .fwStage => ({ fz with slots := vsetN fz.slots (o.args.getD 0 0) (some []) }, halt { d with staging := none })
  | .routeRebuild => (fz, halt { d with rebuild := none, fab := { d.fab with rebuildAcks := [] } })

/-- OP_POINT_REACHED (R419). -/
def execOpPointReached (slot : Fin 64) (st : State) : Host.Outcome State Fault Refusal :=
  onBoth st (pointEnabled slot) (pointEffect slot)

/-! ### OP_COMPLETE (R417) -/

/-- All work of the operation is done, or a hardware error ends it. Loads, runs and rebuilds end by events of their own. -/
def completeEnabled (slot : Fin 64) (code : BitVec 16) (d : Dev) : Bool :=
  let o := d.op slot
  o.live && (o.state == .running || o.state == .suspending || o.state == .cancelling) &&
    (match o.typ with
     | .checkpoint | .scrub | .dramTest => d.worvis && (code != 0#16 || o.total ≤ o.progress)
     | .fwStage => (code != 0#16 || (d.staging.map fun g => g.data.length == g.bytes).getD false)
     | .imageLoad | .run | .routeRebuild => false)

/-- The code of firmware that does not stage: its version above 255, its signature, its version below the floor (R434,
R478). -/
def stageCode (fz : Fuse) (data : Bytes) : Nat :=
  if 255 < Config.fwSecurityVersion data then 0x5003
  else if !Config.fwSignatureValid data then 0x5004
  else if Config.fwSecurityVersion data < fz.svnFloor then 0x5008
  else 0

/-- Staging ends: the slot holds the bytes staged (R434). -/
def stageEffect (slot : Fin 64) (code : BitVec 16) (fz : Fuse) (d : Dev) : Fuse × Dev :=
  let o := d.op slot
  let data := (d.staging.map (·.data)).getD []
  let c := if code != 0#16 then code.toNat else stageCode fz data
  let i := o.args.getD 0 0
  let fz := { fz with slots := vsetN fz.slots i (some (if code != 0#16 then [] else data)) }
  let d := { d with staging := none }
  if c == 0 then (fz, { d with staged := some i }.setOp slot .done 0) else (fz, d.setOp slot .failed c)

/-- A RESTORE ends: the reserved slot becomes the suspended run (R448). -/
def restoreEffect (slot : Fin 64) (d : Dev) : Dev :=
  let o := d.op slot
  match o.paddock, o.reserve with
  | some k, some r =>
    match d.restoreBad slot (o.args.getD 1 0) (o.args.getD 4 0) with
    | some d => d
    | none => match d.restore k (o.args.getD 1 0) r with
    | none => d.setOp slot .failed 0x8003
    | some d =>
      let g := if (d.op r).gen == 0xFFFF#16 then 1#16 else (d.op r).gen + 1
      let d := d.modOp r fun _ => { gen := g, held := true, mailbox := o.mailbox, typ := .run, state := .suspended, paddock := some k }
      let h := opHandle r.val (d.op r)
      let d := (d.modOp slot fun o => { o with result := h }).setOp slot .done 0
      d.post o.mailbox 5 o.mailbox 1 (leBytes 4 h ++ leBytes 2 3 ++ leBytes 2 3)
  | _, _ => d

def completeEffect (slot : Fin 64) (code : BitVec 16) (fz : Fuse) (d : Dev) : Fuse × Dev :=
  let o := d.op slot
  if o.typ == .fwStage then stageEffect slot code fz d
  else if code != 0#16 then (fz, d.setOp slot .failed code.toNat)
  else if o.typ == .checkpoint then
    (fz, if o.args.getD 0 0 == 1 then restoreEffect slot d
         else (d.modOp slot fun o => { o with result := o.args.getD 4 0 }).setOp slot .done 0)
  else (fz, d.setOp slot .done 0)

/-- OP_COMPLETE (R417). -/
def execOpComplete (slot : Fin 64) (code : BitVec 16) (st : State) : Host.Outcome State Fault Refusal :=
  onBoth st (completeEnabled slot code) (completeEffect slot code)

end Sys2Proof.Machine
end

