-- ==== Sys2Proof/Machine/Registers.lean ====
section
/-!
DEFINITION. Registers and their addresses (R8, R42, R119, R152, R166, R187, R194, R200, R214, R222, R253, R260, R263,
R285, R307, R314, R330, R354, R392, R446, R501, R519, R529, R537): what a read returns and clears, and what a write does.
-/
namespace Sys2Proof.Machine

/-- A register: its offset in its block, its bytes and its value. -/
structure Reg where
  off : Nat
  bytes : Nat
  val : Nat
  deriving DecidableEq, Repr

/-- A register of an array: offset `o + step * i`. -/
def regsAt (o step bytes : Nat) (vals : List Nat) : List Reg := vals.zipIdx.map fun x => ⟨o + step * x.2, bytes, x.1⟩

/-- The register at an offset. -/
def regAt (rs : List Reg) (off : Nat) : Nat := ((rs.find? fun r => r.off == off).map (·.val)).getD 0

/-- A block of registers as bytes, one after another. -/
def regBytes (rs : List Reg) : Bytes := rs.flatMap fun r => leBytes r.bytes r.val

/-! ### The tile control block -/

def CtxState.code : CtxState → Nat
  | .idle => 0
  | .ready => 1
  | .running => 2
  | .waitBell => 3
  | .waitQueue => 4
  | .waitTransfer => 5
  | .faulted => 6

/-- TILE_CTX_STATE: a READY context that issued in this cycle shows RUNNING (R43). -/
def Tile.ctxWord (t : Tile) (now : Nat) : Nat :=
  packFields 4 ((fins 16).map fun c =>
    let x := t.ctxs[c]
    if x.state == .ready && t.lastCtx == c.val && t.lastIssue == some now then 2 else x.state.code)

/-- TILE_ID (R42). -/
def Dev.tileId (d : Dev) (s : SiteId) : Nat :=
  s.val + (d.kinds[s]).code * 2 ^ 8 + match (d.tile s).ctl.bound with
    | some (k, n) => 2 ^ 16 + k.val * 2 ^ 17 + n * 2 ^ 24
    | none => 0

/-- TILE_RTR_PORTS (R316, R330): a side is connected to a neighbour or to a periphery router. -/
def rtrPorts (s : SiteId) : Nat :=
  let pr (side : Nat) : Bool := (List.range 8).any fun k => (prSites k).2 == side && (prSites k).1.contains s
  bit (siteY s != 0 || pr 0) 0 + bit (siteX s != 5 || pr 1) 1 + bit (siteY s != 7 || pr 2) 2 + bit (siteX s != 0 || pr 3) 3 +
    bit (pr 4) 4 + bit (siteY s == 3 || siteY s == 4) 5 + (if pr 4 then 7 * 2 ^ 6 else 0)

/-- TILE_PHASE_STATE: STOPPED once the paddock has stopped (R222). -/
def Dev.phaseState (d : Dev) (s : SiteId) : Nat :=
  if (((d.padOf s).bind d.pad).map fun p => p.stopAt.isSome).getD false then 4 else (d.tile s).ctl.phaseState.toNat

/-- The loft registers of a site (R214). -/
def Dev.loftRegs (d : Dev) (l : SiteId) : List Reg :=
  let o := d.loft l
  [⟨0x440, 4, (o.ce.seen d.now).toNat⟩, ⟨0x444, 4, (o.ue.seen d.now).toNat⟩, ⟨0x448, 8, o.ceAddr.toNat⟩, ⟨0x450, 2, o.temp.toNat⟩,
   ⟨0x452, 1, o.refresh.toNat⟩, ⟨0x454, 2, o.tags.length⟩, ⟨0x458, 4, (o.merged.seen d.now).toNat⟩]

/-- TILE_CHAN_STATE. -/
def Chan.word (h : Chan) : Nat := h.state.code + bit h.waiting.isSome 2 + h.tries % 256 * 2 ^ 3 + h.acked.toNat * 2 ^ 16

def heldCount (a b : Bool) : Nat := a.toNat + b.toNat

/-- TILE_RM_STATUS. -/
def Remote.status (r : Remote) (epoch : BitVec 1) : Nat :=
  heldCount r.running.isSome r.pending.isSome + (r.tags.toList.filter fun t => t.held.isSome).length * 2 ^ 2 +
    bit (r.running.isSome && r.holds (rdMsu r.x) (BitVec.ofNat 14 (rdFaddr r.x / 2 ^ 39)) epoch) 10 + r.done.recs.length * 2 ^ 11

/-- The registers of a tile control block below the loft registers. -/
def Dev.tileLow (d : Dev) (s : SiteId) : List Reg :=
  let t := d.tile s
  [⟨0x0, 4, d.tileId s⟩, ⟨0x8, 2, t.ctl.cfgGen.toNat⟩, ⟨0x10, 8, t.ctxWord d.now⟩, ⟨0x18, 2, t.ctl.ctxFault.toNat⟩,
   ⟨0x1C, 2, t.ctl.faultCode.toNat⟩, ⟨0x20, 8, d.now % 2 ^ 64⟩, ⟨0x100, 96, t.spad.valid.toNat⟩,
   ⟨0x160, 2, sumNat (t.spad.zeroQ.toList.map List.length)⟩]
  ++ regsAt 0x200 16 16 (t.regions.toList.map fun r => r.desc.toNat)
  ++ regsAt 0x300 4 4 (t.regions.toList.flatMap fun r => [r.head.toNat, r.tail.toNat])
  ++ [⟨0x380, 4, (t.spad.ecc.seen d.now).toNat⟩, ⟨0x400, 8, t.ctl.stripeCfg.toNat⟩, ⟨0x408, 48, t.ctl.stripeList.toNat⟩]

/-- The registers above the loft registers, up to the queues' data. -/
def Dev.tileMid (d : Dev) (s : SiteId) : List Reg :=
  let t := d.tile s
  [⟨0x460, 1, t.ctl.hold.toNat⟩, ⟨0x468, 8, t.ctl.heldNclk.toNat⟩, ⟨0x470, 1, t.power.toNat⟩, ⟨0x474, 2, t.jctTemp.toNat⟩,
   ⟨0x480, 2, rtrPorts s⟩, ⟨0x488, 8, (t.router.flits.seen d.now).toNat⟩, ⟨0x490, 2, (t.router.hiWait.seen d.now).toNat⟩,
   ⟨0x494, 4, (t.router.loYield.seen d.now).toNat⟩, ⟨0x498, 4, (t.router.ce.seen d.now).toNat⟩, ⟨0x49C, 4, (t.router.ue.seen d.now).toNat⟩,
   ⟨0x4A0, 4, (t.router.discard.seen d.now).toNat⟩, ⟨0x500, 4, t.ctl.phase.toNat⟩, ⟨0x504, 1, d.phaseState s⟩,
   ⟨0x508, 4, (t.ctl.claimDup.seen d.now).toNat⟩, ⟨0x50C, 4, (t.ctl.claimStale.seen d.now).toNat⟩, ⟨0x510, 8, t.ctl.planLast.toNat⟩,
   ⟨0x540, 4, t.ctl.fabCfg.toNat⟩, ⟨0x5C0, 4, t.rm.status d.injEpoch⟩, ⟨0x5C8, 8, t.rm.done.value d.now 18⟩,
   ⟨0x5D0, 4, (t.rm.stale.seen d.now).toNat⟩, ⟨0x600, 1, t.ctl.cfgBank.toNat⟩, ⟨0x608, 8, t.ctl.imageTag.toNat⟩,
   ⟨0x610, 4, t.scrub.beat⟩, ⟨0x614, 4, (t.scrub.ce.seen d.now).toNat⟩, ⟨0x618, 4, (t.scrub.vote.seen d.now).toNat⟩,
   ⟨0x61C, 4, t.scrub.ueLoc.toNat⟩, ⟨0x628, 8, t.scrub.kat.toNat⟩, ⟨0x6C0, 8, t.ctl.carMap.toNat⟩,
   ⟨0x6C8, 2, t.ctl.rank.toNat⟩]
  ++ regsAt 0x700 2 2 (t.queues.toList.map fun q => q.cfg.toNat)
  ++ regsAt 0x740 2 2 (t.queues.toList.map fun q => q.entries.length)
  ++ [⟨0x780, 4, (t.drops.seen d.now).toNat⟩]

/-- TILE_PARAM, and the registers above it. -/
def Dev.tileParams (d : Dev) (s : SiteId) : List Reg := regsAt 0x800 8 8 ((d.tile s).ctl.param.toList.map (·.toNat))

def Dev.tileHigh (d : Dev) (s : SiteId) : List Reg :=
  let t := d.tile s
  regsAt 0xA00 4 4 (t.ctl.seqLen.toList.map (·.toNat)) ++ regsAt 0xB00 8 8 (t.chans.toList.map (·.cfg.toNat))
  ++ regsAt 0xD00 4 4 (t.chans.toList.map Chan.word) ++ [⟨0xE00, 64, t.ctl.barEpisode.toNat⟩]

/-- TILE_QUEUE_DATA: the head entry of each queue. -/
def Dev.tileData (d : Dev) (s : SiteId) : List Reg :=
  regsAt 0x1000 64 64 ((d.tile s).queues.toList.map fun q => leNat (q.entries.headD []))

/-- The counters of R519. -/
def Dev.tilePmc (d : Dev) (s : SiteId) : List Reg :=
  let p := (d.tile s).pmc
  regsAt 0x1800 8 8 (p.fixed.toList.map (·.toNat)) ++ regsAt 0x1840 8 8 (p.prog.toList.map (·.toNat))
  ++ regsAt 0x18C0 4 4 (p.sel.toList.map (·.toNat))
  ++ [⟨0x1900, 8, p.meas.toNat⟩, ⟨0x1908, 4, (p.countSeen d.now).toNat⟩, ⟨0x190C, 4, (p.smpWritten.seen d.now).toNat⟩, ⟨0x1910, 4, (p.smpLost.seen d.now).toNat⟩]
  ++ regsAt 0x1A00 8 8 ((List.range 100).map fun i => ((lookupNat i p.slots).map (·.toNat)).getD 0)

/-- The tile control block. Write-only registers are not listed and read as zero (R8). -/
def Dev.tileRegs (d : Dev) (s : SiteId) : List Reg :=
  d.tileLow s ++ d.loftRegs s ++ d.tileMid s ++ d.tileParams s ++ d.tileHigh s ++ d.tileData s ++ d.tilePmc s

/-! ### Units -/

/-- MXU registers (R119). -/
def Dev.mxuRegs (d : Dev) (s : SiteId) : List Reg :=
  let u := (d.tile s).mxu
  [⟨0x20, 4, heldCount u.running.isSome u.pending.isSome + bit u.running.isSome 2 + u.heldFold.toNat * 2 ^ 3 +
      bit u.heldType 5 + u.done.recs.length * 2 ^ 6⟩,
   ⟨0x28, 8, u.done.value d.now 28⟩, ⟨0x30, 4, u.stepCount.toNat⟩]

/-- VXU registers (R152). -/
def Dev.vxuRegs (d : Dev) (s : SiteId) (v : VxuId) : List Reg :=
  let t := d.tile s
  let q := t.grid[unitPos ⟨v.val + 1, by omega⟩]
  [⟨0x0, 1, ((t.vxus[v]).flags.seen d.now).toNat⟩, ⟨0x4, 2, hdrCfgGen q.cfg.toNat⟩, ⟨0x8, 4, q.fired⟩,
   ⟨0xC, 1, if q.cfg == 0#1024 then 0 else vxLatency q.cfg.toNat⟩]

/-- MSU registers (R187, R200, R285). -/
def Dev.msuRegs (d : Dev) (s : SiteId) (m : MsuId) : List Reg :=
  let t := d.tile s
  let u := t.msus[m]
  let q := t.grid[msuPos m]
  let held := if t.msuCfgMode m == 3 then heldCount u.upd.running.isSome u.upd.pending.isSome
    else heldCount u.mv.running.isSome u.mv.pending.isSome
  [⟨0xC0, 4, heldCount u.rd.running.isSome u.rd.pending.isSome + heldCount u.wr.running.isSome u.wr.pending.isSome * 2 ^ 2 +
      bit (u.readWaits t.regions d.anow) 4 + bit (u.writeWaits t.regions d.anow) 5 + u.done.recs.length * 2 ^ 6 + t.msuCfgMode m * 2 ^ 9⟩,
   ⟨0xC8, 8, u.done.value d.now 18⟩, ⟨0xD0, 4, u.rdTokens.toNat⟩, ⟨0xD4, 4, u.wrTokens.toNat⟩,
   ⟨0xD8, 2, hdrCfgGen q.cfg.toNat⟩,
   ⟨0x140, 4, held + min u.mv.inFlight 256 * 2 ^ 2 + bit (u.mv.waits t.regions d.anow) 11 + u.mv.done.recs.length * 2 ^ 12⟩,
   ⟨0x148, 8, u.mv.done.value d.now 18⟩, ⟨0x150, 8, u.mv.bytesMoved % 2 ^ 64⟩, ⟨0x180, 4, u.upd.blocks.toNat⟩,
   ⟨0x184, 4, u.upd.skipped.toNat⟩, ⟨0x188, 4, (u.upd.repeat_.seen d.now).toNat⟩, ⟨0x18C, 1, (u.upd.flags.seen d.now).toNat⟩]

/-! ### Carillon, fabric, yardmaster -/

/-- CAR_WORK (R260). -/
def CarWork.word (w : CarWork) : Nat :=
  w.value.toNat + w.gen.toNat * 2 ^ 64 + w.paddock.val * 2 ^ 80 + bit w.enabled 84

def spanWord (l : List (BitVec 14)) : Nat := packFields 16 (l.map (·.toNat))

/-- The carillon's registers (R260). -/
def Dev.carRegs (d : Dev) : List Reg :=
  regsAt 0 16 16 (d.car.bars.toList.map fun b => b.cfg.toNat) ++ regsAt 0x1000 8 8 (d.car.bars.toList.map fun b => b.state.toNat)
  ++ regsAt 0x2000 16 16 (d.car.works.toList.map CarWork.word) ++ regsAt 0x4000 512 510 (d.car.spans.toList.map spanWord)

def LinkState.code : LinkState → Nat
  | .disabled => 0
  | .training => 1
  | .handshake => 2
  | .up => 3
  | .retrain => 4
  | .down => 5
  | .quarantined => 6

/-- FAB_LINK_CFG and FAB_LINK_STATE. -/
def Dev.linkCfg (d : Dev) (n : LinkId) : Nat := (d.link n).cfg.toNat % 16 + bit (d.splitOf (n.val / 2) && n.val % 2 == 0) 4
def Link.stateWord (l : Link) : Nat := l.state.code + bit l.keyEpoch 3 + l.width * 2 ^ 4 + l.mask.toNat * 2 ^ 8

/-- The registers of one link (R354). -/
def Dev.linkRegs (d : Dev) (n : LinkId) : List Reg :=
  let l := d.link n
  let o := 0x80 * n.val
  [⟨o, 4, d.linkCfg n⟩, ⟨o + 4, 4, l.stateWord⟩, ⟨o + 8, 8, l.peer.toNat⟩, ⟨o + 0x10, 8, l.txFrames.toNat⟩,
   ⟨o + 0x18, 8, l.rxFrames.toNat⟩, ⟨o + 0x20, 4, (l.crcErr.seen d.now).toNat⟩, ⟨o + 0x24, 4, (l.replays.seen d.now).toNat⟩, ⟨o + 0x28, 4, (l.naks.seen d.now).toNat⟩,
   ⟨o + 0x2C, 4, (l.tagFail.seen d.now).toNat⟩, ⟨o + 0x30, 4, (l.retrains.seen d.now).toNat⟩, ⟨o + 0x34, 4, (l.rekeys.seen d.now).toNat⟩]

/-- The link and the lane of it that port lane `8p + l` is. -/
def Dev.portLane (d : Dev) (i : Nat) : LinkId × Nat :=
  let p := i / 8 % 8
  let l := i % 8
  if d.splitOf p && 4 ≤ l then ((finOf 16 (2 * p + 1)).getD 0, l - 4) else ((finOf 16 (2 * p)).getD 0, l)

/-- The registers of one lane. -/
def Dev.laneRegs (d : Dev) (i : Nat) : List Reg :=
  let x := d.portLane i
  let a := vgetN (d.link x.1).lanes x.2 {}
  let o := 0x800 + 0x10 * i
  [⟨o, 8, (a.symCorr.seen d.now).toNat⟩, ⟨o + 8, 4, (a.uncorr.seen d.now).toNat⟩, ⟨o + 0xC, 1, bit a.locked 0 + bit a.retired 1⟩]

def Dev.allLinkRegs (d : Dev) : List Reg := ((fins 16).flatMap d.linkRegs) ++ ((List.range 64).flatMap d.laneRegs)

/-- FAB_DEV_CFG (R392). -/
def Dev.devCfg (d : Dev) : Nat :=
  d.role + bvFld d.fab.devCfg 3 17 * 2 ^ 3 + d.hitchPos * 2 ^ 20 + bit d.hitchFormed 22

/-- The fabric registers (R354, R392), the route tables apart. -/
def Dev.fabRegs (d : Dev) : List Reg :=
  d.allLinkRegs ++ [⟨0x1000, 4, d.devCfg⟩, ⟨0x1008, 8, d.fab.master.toNat⟩]
  ++ regsAt 0x1010 4 4 (d.fab.brands.toList.map (·.toNat))
  ++ [⟨0x1050, 4, (d.fab.dropBrand.seen d.now).toNat⟩, ⟨0x1054, 4, (d.fab.dropMalformed.seen d.now).toNat⟩, ⟨0x1058, 4, (d.fab.dropTtl.seen d.now).toNat⟩,
      ⟨0x105C, 4, (d.fab.dropRoute.seen d.now).toNat⟩, ⟨0x1060, 4, (d.fab.dropMgmt.seen d.now).toNat⟩]

/-- A fabric register, route entries among them. -/
def Dev.fabReg (d : Dev) (off : Nat) : Nat :=
  if 0x10000 ≤ off && off < 0x20000 then
    let i := (off - 0x10000) / 2
    if off % 2 == 0 then (d.routeShown (BitVec.ofNat 1 (i / 16384)) (BitVec.ofNat 14 (i % 16384))).toNat else 0
  else regAt d.fabRegs off

def CoreState.code : CoreState → Nat
  | .active => 0
  | .standby => 1
  | .resetting => 2
  | .retired => 3

/-- The loft with the hottest layer sensor: its reading and number (R537). -/
def Dev.hotLoft (d : Dev) : BitVec 16 × Nat :=
  (fins 48).foldl (fun best l => if best.1.toInt < (d.loft l).temp.toInt then ((d.loft l).temp, l.val) else best)
    ((d.loft 0).temp, 0)

/-- YM_CLK, YM_THERM and YM_BOOT (R537). -/
def Yard.clk (y : Yard) : Nat := y.step + y.cap * 2 ^ 2 + bit (decide (y.cap < y.thermal)) 4 + bit (decide (y.cap < y.power)) 5
def Dev.therm (d : Dev) : Nat :=
  d.ym.hotJct.toNat + d.ym.hotSite * 2 ^ 16 + d.hotLoft.1.toNat * 2 ^ 32 + d.hotLoft.2 * 2 ^ 48
def Dev.ymBoot (d : Dev) (fz : Fuse) : Nat :=
  bit d.ym.slotB 0 + bit d.ym.validA 1 + bit d.ym.validB 2 + bit d.ym.diverge 3 + bit d.ym.safeSettings 4 + fz.svnFloor * 2 ^ 5

/-- The yardmaster's registers (R501, R537). -/
def Dev.ymRegs (d : Dev) (fz : Fuse) : List Reg :=
  let y := d.ym
  regsAt 0 8 4 ((fins 4).map fun c => (y.cores[c]).code + (y.duties[c]).toNat * 2 ^ 2)
  ++ [⟨0x40, 4, y.handovers.toNat⟩, ⟨0x44, 4, y.lastHandover.toNat⟩, ⟨0x48, 1, 64 - d.repairs.length⟩,
      ⟨0x50, 4, y.degrade.toNat⟩, ⟨0x54, 4, y.replace.toNat⟩, ⟨0x100, 4, y.clk⟩, ⟨0x104, 4, (y.clkSteps.seen d.now).toNat⟩,
      ⟨0x108, 8, d.therm⟩, ⟨0x110, 4, d.ymBoot fz⟩, ⟨0x118, 8, y.readyTime.toNat⟩]

/-! ### REGISTER_READ (R8, R9) -/

/-- The value of a register. A read of the host window covers 4 bytes. -/
def Dev.regRead (d : Dev) (fz : Fuse) (b : RegBlock) (off : Nat) : Nat :=
  match b with
  | .tile s => regAt (d.tileRegs s) off
  | .mxu s => regAt (d.mxuRegs s) off
  | .vxu s v => regAt (d.vxuRegs s v) off
  | .msu s m => regAt (d.msuRegs s m) off
  | .carillon => regAt d.carRegs off
  | .fabric => d.fabReg off
  | .yardmaster => regAt (d.ymRegs fz) off
  | .window => leNat (d.windowRead fz off 4)

/-- The RC registers of a tile control block are cleared by a read. -/
def Tile.clearReg (t : Tile) (now off : Nat) : Tile :=
  match off with
  | 0x380 => { t with spad := { t.spad with ecc := t.spad.ecc.taken now } }
  | 0x488 => { t with router := { t.router with flits := t.router.flits.taken now } }
  | 0x490 => { t with router := { t.router with hiWait := t.router.hiWait.taken now } }
  | 0x494 => { t with router := { t.router with loYield := t.router.loYield.taken now } }
  | 0x498 => { t with router := { t.router with ce := t.router.ce.taken now } }
  | 0x49C => { t with router := { t.router with ue := t.router.ue.taken now } }
  | 0x4A0 => { t with router := { t.router with discard := t.router.discard.taken now } }
  | 0x508 => { t with ctl := { t.ctl with claimDup := t.ctl.claimDup.taken now } }
  | 0x50C => { t with ctl := { t.ctl with claimStale := t.ctl.claimStale.taken now } }
  | 0x5C8 => { t with rm := { t.rm with done := t.rm.done.taken now } }
  | 0x5D0 => { t with rm := { t.rm with stale := t.rm.stale.taken now } }
  | 0x614 => { t with scrub := { t.scrub with ce := t.scrub.ce.taken now } }
  | 0x618 => { t with scrub := { t.scrub with vote := t.scrub.vote.taken now } }
  | 0x780 => { t with drops := t.drops.taken now }
  | 0x1910 => { t with pmc := { t.pmc with smpLost := t.pmc.smpLost.taken now } }
  | _ => t

def Loft.clearReg (l : Loft) (now off : Nat) : Loft :=
  match off with
  | 0x440 => { l with ce := l.ce.taken now }
  | 0x444 => { l with ue := l.ue.taken now }
  | 0x458 => { l with merged := l.merged.taken now }
  | _ => l

def Msu.clearReg (u : Msu) (now off : Nat) : Msu :=
  match off with
  | 0xC8 => { u with done := u.done.taken now }
  | 0x148 => { u with mv := { u.mv with done := u.mv.done.taken now } }
  | 0x188 => { u with upd := { u.upd with repeat_ := u.upd.repeat_.taken now } }
  | 0x18C => { u with upd := { u.upd with flags := u.upd.flags.taken now } }
  | _ => u

def Link.clearReg (l : Link) (now off : Nat) : Link :=
  match off with
  | 0x20 => { l with crcErr := l.crcErr.taken now }
  | 0x24 => { l with replays := l.replays.taken now }
  | 0x28 => { l with naks := l.naks.taken now }
  | 0x2C => { l with tagFail := l.tagFail.taken now }
  | 0x30 => { l with retrains := l.retrains.taken now }
  | 0x34 => { l with rekeys := l.rekeys.taken now }
  | _ => l

def Lane.clearReg (x : Lane) (now off : Nat) : Lane :=
  match off with
  | 0 => { x with symCorr := x.symCorr.taken now }
  | 8 => { x with uncorr := x.uncorr.taken now }
  | _ => x

/-- What a read of a fabric register clears. -/
def Dev.clearFab (d : Dev) (off : Nat) : Dev :=
  let now := d.now
  if off < 0x800 then match finOf 16 (off / 0x80) with
    | some n => d.modLink n fun l => l.clearReg now (off % 0x80)
    | none => d
  else if off < 0xC00 then
    let x := d.portLane ((off - 0x800) / 0x10)
    d.modLink x.1 fun l => { l with lanes := vmodN l.lanes x.2 fun a => a.clearReg now (off % 0x10) }
  else match off with
    | 0x1050 => { d with fab := { d.fab with dropBrand := d.fab.dropBrand.taken now } }
    | 0x1054 => { d with fab := { d.fab with dropMalformed := d.fab.dropMalformed.taken now } }
    | 0x1058 => { d with fab := { d.fab with dropTtl := d.fab.dropTtl.taken now } }
    | 0x105C => { d with fab := { d.fab with dropRoute := d.fab.dropRoute.taken now } }
    | 0x1060 => { d with fab := { d.fab with dropMgmt := d.fab.dropMgmt.taken now } }
    | _ => d

/-- What a read of a register clears (RC). -/
def Dev.regClear (d : Dev) (b : RegBlock) (off : Nat) : Dev :=
  let now := d.now
  match b with
  | .tile s => (d.modTile s fun t => t.clearReg now off).modLoft s fun l => l.clearReg now off
  | .mxu s => if off == 0x28 then d.modMxu s fun u => { u with done := u.done.taken now } else d
  | .vxu s v => if off == 0 then d.modTile s fun t => { t with vxus := vmod t.vxus v fun x => { x with flags := x.flags.taken now } } else d
  | .msu s m => d.modMsu s m fun u => u.clearReg now off
  | .carillon => d
  | .fabric => d.clearFab off
  | .yardmaster => if off == 0x104 then d.modYm fun y => { y with clkSteps := y.clkSteps.taken now } else d
  | .window => d.windowClear off 4

/-- Who may access a block (R42, R119, R152, R260, R392, R404): a tile's core every block of its own tile, and alone the
blocks of the matrix unit and the vector units; the yardmaster the other blocks of every tile, the carillon, the fabric
and its own block; the host the window. -/
def mayAccess (b : RegBlock) (a : Accessor) (d : Dev) : Bool :=
  d.running && match b, a with
  | .tile s, .core c => s == c && d.power s < 2
  | .mxu s, .core c => s == c && d.power s < 2
  | .vxu s _, .core c => s == c && d.power s < 2
  | .msu s _, .core c => s == c && d.power s < 2
  | .tile _, .yardmaster => d.worvis
  | .msu _ _, .yardmaster => d.worvis
  | .carillon, .yardmaster => d.worvis
  | .fabric, .yardmaster => d.worvis
  | .yardmaster, .yardmaster => d.worvis
  | .window, .host => windowUp d
  | _, _ => false

/-- REGISTER_READ (R8): the value, and the clear of an RC field. -/
def execRegisterRead (b : RegBlock) (off : Nat) (by_ : Accessor) (st : State) : Host.Outcome State Fault Refusal :=
  onEvent st (mayAccess b by_) fun fz d => (d.show (d.regRead fz b off)).regClear b off

/-! ### REGISTER_WRITE (R5, R8) -/

/-- A 64-bit write at an 8-byte offset of a wide register, reserved bits left zero: the register's new value. -/
def write64 (old mask part v : Nat) : Nat := setFld old (64 * part) 64 (v % 2 ^ 64) &&& mask

/-- Writable bits of CAR_BAR_CFG, CAR_WORK and CAR_SPAN (R260). -/
def barMask : Nat := 0x1F_FFFF3FFF_3FFFFFFF
def workMask : Nat := 0x1F_FFFF_FFFFFFFF_FFFFFFFF
def spanMask : Nat := packFields 16 (List.replicate 255 0x3FFF)

/-- The child list of a CAR_SPAN value. -/
def spanList (x : Nat) : List (BitVec 14) := (List.range 255).map fun i => BitVec.ofNat 14 (fld x (16 * i) 14)

/-- CAR_WORK with a new value. -/
def CarWork.put (w : CarWork) (x : Nat) : CarWork :=
  { w with value := BitVec.ofNat 64 x, gen := BitVec.ofNat 16 (x / 2 ^ 64),
           paddock := (finOf 16 (fld x 80 4)).getD 0, enabled := bitOf x 84 }

/-- A barrier with a new configuration: one whose LOCAL_TARGET and CHILD_COUNT are both 0 is never ENABLED, and without SPANNING
the CHILD_COUNT field is ignored (R260). -/
def CarBarrier.put (b : CarBarrier) (x : Nat) : CarBarrier :=
  let c : CarBarrier := { b with cfg := BitVec.ofNat 128 x }
  if c.target == 0 && (!c.spanning || c.childCount == 0) then { c with cfg := BitVec.ofNat 128 (setFld x 68 1 0) } else c

/-- A write of the carillon's registers. -/
def Dev.writeCar (d : Dev) (off v : Nat) : Dev :=
  if off % 8 != 0 then d
  else if off < 0x1000 then
    let f (b : CarBarrier) : CarBarrier := b.put (write64 b.cfg.toNat barMask (off / 8 % 2) v)
    { d with car := { d.car with bars := vmodN d.car.bars (off / 16) f } }
  else if off < 0x2000 then d
  else if off < 0x3000 then
    let f (w : CarWork) : CarWork := w.put (write64 w.word workMask (off / 8 % 2) v)
    { d with car := { d.car with works := vmodN d.car.works ((off - 0x2000) / 16) f } }
  else if 0x4000 ≤ off && off < 0x6000 then
    let f (l : List (BitVec 14)) : List (BitVec 14) := spanList (write64 (spanWord l) spanMask ((off - 0x4000) % 512 / 8) v)
    { d with car := { d.car with spans := vmodN d.car.spans ((off - 0x4000) / 512) f } }
  else d

/-- Words of a descriptor register collected so far: its number, and its word count. -/
def Tile.descWord (t : Tile) (reg i : Nat) : Nat := ((lookupNat (64 * reg + i) t.descBuf).map (·.toNat)).getD 0

/-- A 32-bit word of a descriptor register is written; the last word issues the descriptor, where it is well formed: another is
rejected and has no effect (R5, R11, R12). The context that issues is context 1 (R38). DESIGN CHOICE, log entry 75: the words
written are gone with the issue, and a word that is not written again is zero in the next descriptor. -/
def Dev.writeDesc (d : Dev) (s : SiteId) (reg n i : Nat) (v : Word) (ok : Nat → Bool) (issue : Nat → Dev → Dev) : Dev :=
  let d := d.modTile s fun t => { t with descBuf := setKey (64 * reg + i) v t.descBuf }
  if i + 1 != n then d
  else
    let x := packFields 32 ((List.range n).map fun j => (d.tile s).descWord reg j)
    let pc := ((d.tile s).ctxs[(1 : CtxId)]).pc
    let d := d.modTile s fun t => { t with descBuf := t.descBuf.filter fun w => w.1 / 64 != reg }
    if ok x then (issue x d).modCtx s 1 fun c => { c with pc := pc } else d

/-- A descriptor for a generator of an MSU is well formed, with the regions as they are (R177 to R186). -/
def Tile.patternOk (t : Tile) (write : Bool) (x : Nat) : Bool :=
  patternDescOk x && patternRegionOk x (fun r => vgetN t.regions r {}) && (!write || pdIlv x ≤ 1)

/-- A descriptor for a mover, or for an update path where MODE is 3, is well formed (R197, R198, R215, R274). -/
def Tile.transferOk (t : Tile) (m : MsuId) (x : Nat) : Bool :=
  let striped := 0 < stripeCount t.ctl
  if t.msuCfgMode m == 3 then updateDescOk x && (striped || !bitOf x 3)
  else moverDescOk x && moverRegionOk x (fun r => vgetN t.regions r {}) && (striped || !mvStriped x)

/-- A write of TILE_CTX_FAULT: each 1 clears its bit, but for those that this very NCLK cycle sets (R9, R43). -/
def TileCtl.clearFaults (c : TileCtl) (v : BitVec 16) (now : Nat) : TileCtl :=
  { c with ctxFault := c.ctxFault &&& ~~~ (v &&& ~~~ (if c.faultSet.1 == now then c.faultSet.2 else 0#16)) }

/-- A write of a tile's or a unit's register. -/
def Dev.writeUnit (d : Dev) (b : RegBlock) (off : Nat) (byCore : Bool) (v : BitVec 64) : Dev :=
  let w := v.setWidth 32
  match b with
  | .tile s =>
    if off == 0x18 then d.modCtl s fun c => c.clearFaults (v.setWidth 16) d.now
    else if byCore && 0x580 ≤ off && off < 0x5C0 && off % 4 == 0 then
      d.writeDesc s 25 16 ((off - 0x580) / 4) w remoteDescOk (fun x d => d.issueRm s 1 x)
    else if off == 0x784 then d.modTile s fun t => { t with queues := vmodN t.queues (v.toNat % 256) MsgQueue.pop }
    else if !byCore && off == 0x620 then d.modTile s fun t => t.askScan w
    else d
  | .mxu s => if byCore && off < 0x20 && off % 4 == 0 then d.writeDesc s 0 8 (off / 4) w mxuDescOk (fun x d => d.issueMxu s 1 x) else d
  | .msu s m =>
    if !byCore || off % 4 != 0 then d
    else if off < 0x60 then d.writeDesc s (1 + m.val) 24 (off / 4) w ((d.tile s).patternOk false) (fun x d => d.issueGen s 1 m false x)
    else if off < 0xC0 then d.writeDesc s (9 + m.val) 24 ((off - 0x60) / 4) w ((d.tile s).patternOk true) (fun x d => d.issueGen s 1 m true x)
    else if 0x100 ≤ off && off < 0x140 then d.writeDesc s (17 + m.val) 16 ((off - 0x100) / 4) w ((d.tile s).transferOk m) (fun x d => d.issueMv s 1 m x)
    else d
  | _ => d

/-- A write of any register by whoever may make it; RO and RC registers, and reserved bits, are unaffected. -/
def Dev.regWrite (d : Dev) (b : RegBlock) (off : Nat) (by_ : Accessor) (v : BitVec 64) : Dev :=
  match b with
  | .carillon => d.writeCar off v.toNat
  | .fabric =>
    if 0x1010 ≤ off && off < 0x1050 && off % 4 == 0 then
      { d with fab := { d.fab with brands := vsetN d.fab.brands ((off - 0x1010) / 4) (BitVec.ofNat 32 (v.toNat % 2 ^ 17)) } }
    else d
  | .window => d.windowWrite off (leBytes 4 v.toNat)
  | .yardmaster => d
  | _ => d.writeUnit b off (match by_ with | .core _ => true | _ => false) v

/-- REGISTER_WRITE (R8). -/
def execRegisterWrite (b : RegBlock) (off : Nat) (by_ : Accessor) (value : BitVec 64) (st : State) :
    Host.Outcome State Fault Refusal :=
  onEvent st (mayAccess b by_) fun _ d => d.regWrite b off by_ value

end Sys2Proof.Machine
end

