-- ==== Sys2Proof/Machine/Worvis.lean ====
section
/-!
DEFINITION. How Worvis takes, checks and answers a command (R405 to R409, R421 to R426, R462, R467, R468, R533): the
carriers, the check order, sessions' tags, and the choice of operation slots, handles and sessions.
-/
namespace Sys2Proof.Machine

/-! ### Status codes (R405, R424) -/

def stAccepted : Nat := 0x0003
def stMalformed : Nat := 0x0100
def stLength : Nat := 0x0101
def stWrong : Nat := 0x0200
def stPort : Nat := 0x0300
def stAuth : Nat := 0x0301
def stNoRes : Nat := 0x0400
def stDevice : Nat := 0x0500

/-- An answer: status, handle and body; the headers are the carrier's. -/
structure Rsp where
  status : Nat := 0
  handle : Nat := 0
  body : Bytes := []
  deriving DecidableEq, Repr

/-! ### Carriers (R421 to R423) -/

def Dev.carrier (d : Dev) : Port → Mailbox
  | .mailbox n => d.mbs[n]
  | .owner => d.owner
  | .fabric k => d.fabMbs[k]

/-- A yardmaster core works. -/
def Dev.coreUp (d : Dev) : Bool := d.ym.cores.toList.any fun c => c == .active || c == .standby

/-- The port is served: by Worvis where it runs and no handover is under way; the owner port by the boot ROM in recovery
mode (R533), and through a thermal trip (R526). A device that has failed serves its owner port only (R502). -/
def Dev.serves (d : Dev) (port : Port) : Bool :=
  d.ym.handover.isEmpty && d.coreUp && (!d.ym.failed || port == .owner) && (d.worvis ||
    (port == .owner && (d.stage == .recovery || (d.stage == .tripped && d.ym.started))))

/-- A response leaves: READY at a mailbox, with its vector (R410), or at the owner port; a packet on the fabric (R422). -/
def Dev.respond (d : Dev) (port : Port) (bs : Bytes) : Dev :=
  match port with
  | .mailbox n =>
    let d := d.modMb n fun b => { b with state := .ready, rsp := bs }
    if (d.mb n).cfg.getLsbD 0 then d.sayWindow (.doorbell d.windowMod n.val) else d
  | .owner => { d with owner := { d.owner with state := .ready, rsp := bs } }
  | .fabric k =>
    let src := (d.fabMbs[k]).src
    let d := { d with fabMbs := vmod d.fabMbs k fun _ => {} }
    match src with
    | some p => d.inject (some prYard) { reqPkt p.src.toNat 5 0 0x20 bs.length 0#16 p.tag p.seq true (leBytes 2 0xC) bs with cls := 2#2 }
    | none => d

/-! ### A command under check -/

/-- What a command is checked against: fuses, device, port, and its 4,096 bytes. -/
structure Env where
  fz : Fuse
  d : Dev
  port : Port
  cmd : Bytes
  deriving DecidableEq, Repr

def Env.opcode (e : Env) : Nat := fieldAt e.cmd 0 2
def Env.sess (e : Env) : Nat := fieldAt e.cmd 4 2
def Env.length (e : Env) : Nat := fieldAt e.cmd 8 2

/-- Bytes that the header and a session's tag take (R467). -/
def Env.frame (e : Env) : Nat := if e.sess == 0 then 16 else 32

def Env.bodyLen (e : Env) : Nat := e.length - e.frame
def Env.body (e : Env) : Bytes := sliceAt e.cmd 16 e.bodyLen

/-- Field of the body. -/
def Env.f (e : Env) (a n : Nat) : Nat := fieldAt e.body a n

/-- A check of body bytes that are Reserved (0) (R5). -/
def Env.zero (e : Env) (a n : Nat) : Bool × Nat := (e.f a n == 0, stMalformed)

/-- Mailbox of the command's resources: its own, or 0 for the owner port (R423). -/
def Env.mailbox (e : Env) : Nat := match e.port with
  | .mailbox n => n.val
  | _ => 0

/-- The command came on a client mailbox. -/
def Env.client (e : Env) : Bool := e.mailbox != 0

/-- The session it names, where that is open on its mailbox. -/
def Env.session (e : Env) : Option Session :=
  match e.port with
  | .mailbox n => if e.sess == 0 then none else e.d.sessions.find? fun s => s.id == e.sess && s.mailbox == n.val
  | _ => none

/-- Body bytes that a response can carry beside `n` others: the limit of its table, less a tag. -/
def Env.dataMax (e : Env) (n : Nat) : Nat := if e.sess == 0 then n else n - 16

/-! ### Paddocks a command names in byte 0 -/

def Env.padNo (e : Env) : Option PadId := finOf 16 (e.f 0 1)
def Env.pad? (e : Env) : Option Paddock := e.padNo.bind e.d.pad
def Env.k (e : Env) : PadId := e.padNo.getD 0
def Env.p (e : Env) : Paddock := e.pad?.getD {}
def Env.padRange (e : Env) : Bool × Nat := (e.padNo.isSome, stMalformed)

/-- A client owns the paddock (R425). -/
def Env.ownsPad (e : Env) (k : PadId) : Bool := !e.client || ((e.d.pad k).map fun p => p.owner == e.mailbox).getD false

/-- Steps 6 and 7 for the paddock. -/
def Env.padChecks (e : Env) : List (Bool × Nat) := [(e.pad?.isSome, stNoRes), (e.ownsPad e.k, stPort)]

/-- A run of the paddock is in progress: its operation is not final. -/
def Dev.runBusy (d : Dev) (k : PadId) : Bool :=
  d.ops.toList.any fun o => o.live && o.typ == .run && o.paddock == some k

/-- A load of the paddock is in progress. -/
def Dev.loadBusy (d : Dev) (k : PadId) : Bool :=
  (d.ops.toList.any fun o => o.live && o.typ == .imageLoad && o.paddock == some k) ||
    (d.hitch.map fun h => h.pad == some k).getD false

/-! ### The check order (R424) -/

/-- A command: its row of R427, the paddock it names, whether R468 asks for a session, its checks of steps 5 to 9 in
order, the device once the tiles that it needs have been woken (R528), and its execution. Body lengths are those without header
and tag; `size` is that of a body whose own fields fix it. -/
structure Cmd where
  opcode : Nat
  owner : Bool
  admin : Bool
  client : Bool
  fabric : Bool
  states : List Lifecycle
  lo : Nat
  hi : Nat
  size : Env → Option Nat := fun _ => none
  pad : Env → Option PadId := fun _ => none
  sealing : Bool := false
  checks : Env → List (Bool × Nat) := fun _ => []
  wakes : Env → Dev := fun e => e.d
  run : Env → Fuse × Dev × Rsp

/-- The codes of R427. -/
def opcodes : List Nat :=
  [0x0001, 0x0002, 0x0003, 0x0100, 0x0101, 0x0102, 0x0103, 0x0104, 0x0200, 0x0210, 0x0211, 0x0300, 0x0301, 0x0302, 0x0303,
   0x0400, 0x0401, 0x0402, 0x0403, 0x0500, 0x0501, 0x0600, 0x0601, 0x0602, 0x0610, 0x0611, 0x0700, 0x0701, 0x0800, 0x0801,
   0x0802, 0x0803, 0x0804, 0x0900, 0x0901, 0x0902, 0x0903, 0x0910, 0x0911, 0x0912, 0x0920, 0x0930, 0x0931]

/-- What the boot ROM accepts in recovery mode (R533). -/
def recoveryOpcodes : List Nat := [0x0001, 0x0802, 0x0900, 0x0901, 0x0902]

/-- A check: what must hold, and the status where it does not. -/
def need (b : Bool) (st : Nat) : Bool × Nat := (b, st)

/-- First check that fails. -/
def firstBad (l : List (Bool × Nat)) : Option Nat := (l.find? fun x => !x.1).map (·.2)

/-- Step 1. -/
def Cmd.headerChecks (c : Cmd) (e : Env) : List (Bool × Nat) :=
  [(opcodes.contains e.opcode, stMalformed), (fieldAt e.cmd 6 2 == 0, stMalformed),
   (c.lo + e.frame ≤ e.length && e.length ≤ min 4096 (c.hi + e.frame) && (c.size e).all (· == e.bodyLen), stLength),
   (fieldAt e.cmd 10 6 == 0, stMalformed)]

/-- Step 2. -/
def Cmd.permits (c : Cmd) : Port → Bool
  | .mailbox n => if n.val == 0 then c.admin else c.client
  | .owner => c.owner
  | .fabric _ => c.fabric

/-- IV of a command's or a response's tag (R467). -/
def Session.iv (s : Session) (first : Nat) : Bytes := leBytes 4 first ++ leBytes 8 s.cmdCount

/-- The command's tag passes (R467). -/
def Env.tagOk (e : Env) (s : Session) : Bool :=
  (Config.gcmOpen (s.key.take 32) (s.iv 1) (e.cmd.take (e.length - 16)) [] (sliceAt e.cmd (e.length - 16) 16)).isSome

/-- Step 4: the session is 0, where R468 does not ask for one, or it is open on this mailbox, is of the paddock that the
command names, and its tag passes. -/
def Cmd.sessionOk (c : Cmd) (e : Env) : Bool :=
  let k := c.pad e
  if e.sess == 0 then !(c.sealing && (k.map e.d.sealed).getD false)
  else match e.session with
    | some s => (k.isNone || k == some s.pad) && e.tagOk s
    | none => false

/-- Steps 1 to 4. -/
def Cmd.entry (c : Cmd) (e : Env) : List (Bool × Nat) :=
  c.headerChecks e ++
    [(c.permits e.port, stPort),
     (c.states.contains e.fz.lifecycle && (e.d.stage != .recovery || recoveryOpcodes.contains e.opcode), stWrong),
     (c.sessionOk e, stAuth)]

/-- What the command is checked against and performed on once the tiles that it needs are awake. -/
def Cmd.woken (c : Cmd) (e : Env) : Env := { e with d := c.wakes e }

/-- The answer: the first failure, or the execution. A hardware error stops it before any effect. A tile that its wake retires is
not there for the command (R529). -/
def Cmd.answer (c : Cmd) (e : Env) (hwErr : Bool) : Fuse × Dev × Rsp :=
  match firstBad (c.entry e ++ c.checks e ++ [(!hwErr, stDevice)]) with
  | some s => (e.fz, e.d, { status := s })
  | none =>
    let e := c.woken e
    match firstBad (c.checks e) with
    | some s => (e.fz, e.d, { status := s })
    | none => c.run e

/-- CMD_COUNT of the session counts the commands accepted (R467). -/
def Dev.countCmd (d : Dev) (sess : Nat) (status : Nat) : Dev :=
  if sess == 0 || !(status == 0 || status == stAccepted) then d
  else { d with sessions := d.sessions.map fun s => if s.id == sess then { s with cmdCount := s.cmdCount + 1 } else s }

/-- The bytes of a response; `tag` says that it ends in a tag under the session (R467). -/
def Env.reply (e : Env) (r : Rsp) (tag : Bool) : Bytes :=
  let bs (n : Nat) : Bytes := rspHeader (BitVec.ofNat 16 e.opcode) (BitVec.ofNat 16 (fieldAt e.cmd 2 2)) r.status
    (16 + r.body.length + n) r.handle ++ r.body
  match e.session, tag with
  | some s, true => bs 16 ++ padTo 16 (Config.gcmSeal (s.key.take 32) (s.iv 2) (bs 16) []).2
  | _, _ => bs 0

/-- Answer the command that waits in a carrier. -/
def Cmd.perform (c : Cmd) (port : Port) (hwErr : Bool) (fz : Fuse) (d : Dev) : Fuse × Dev :=
  let e : Env := { fz := fz, d := d, port := port, cmd := (d.carrier port).cmd }
  let r := c.answer e hwErr
  let auth := firstBad (c.entry e) == some stAuth
  (r.1, (r.2.1.countCmd e.sess r.2.2.status).respond port (e.reply r.2.2 !auth))

/-- The command waits in the carrier; a code that R427 does not list is answered by whichever row looks at it. -/
def Cmd.waits (c : Cmd) (port : Port) (d : Dev) : Bool :=
  let b := d.carrier port
  d.serves port && b.state == .pending && (b.op.toNat == c.opcode || !opcodes.contains b.op.toNat)

/-- A row of R427. -/
def Cmd.exec (c : Cmd) (port : Port) (hwErr : Bool) (st : State) : Host.Outcome State Fault Refusal :=
  onBoth st (c.waits port) (c.perform port hwErr)

/-! ### Choices that the manual leaves to the device -/

/-- One element of a list, by a free value. -/
def pickFrom {α : Type} (l : List α) (r : Nat) : Option α := l[r % l.length]?

/-- A value of 1 to 0xFFFF that none of a list holds, by a free value. -/
def pickId (used : List Nat) (r : Nat) : Nat :=
  (((List.range (used.length + 1)).map fun i => (r + i) % 65535 + 1).find? fun v => !used.contains v).getD 1

/-! ### Slots of the operation table (R416, R448) -/

def Dev.freeSlots (d : Dev) : List (Fin 64) :=
  (fins 64).filter fun i => !(d.op i).held && !(d.ops.toList.any fun o => o.live && o.reserve == some i)

/-- Slots that count against a mailbox. -/
def Dev.opsOf (d : Dev) (m : Nat) : Nat :=
  (d.ops.toList.filter fun o => o.held && o.mailbox == m).length +
    (d.ops.toList.filter fun o => o.live && o.mailbox == m && o.reserve.isSome).length

/-- `n` more operations fit. -/
def Dev.opRoom (d : Dev) (m n : Nat) : Bool := n ≤ d.freeSlots.length && d.opsOf m + n ≤ 8

/-- Take a free slot for an operation: GEN advances. -/
def Dev.newOp (d : Dev) (o : Op) : Fin 64 × Dev :=
  let (r, d) := d.draw
  let i := (pickFrom d.freeSlots r).getD 0
  (i, d.modOp i fun q => { o with gen := nextGen q.gen, held := true })

/-- The answer of a long operation: ACCEPTED, with its handle. -/
def Dev.opAccepted (d : Dev) (i : Fin 64) (body : Bytes) : Rsp :=
  { status := stAccepted, handle := opHandle i.val (d.op i), body := body }

/-! ### Copy handles (R432) -/

def Dev.openCopies (d : Dev) : List Copy := d.copies.toList.filter (·.open_)

/-- One more handle fits: 16, and 4 for a mailbox. -/
def Dev.copyRoom (d : Dev) (m : Nat) : Bool :=
  d.openCopies.length < 16 && (d.openCopies.filter fun c => c.mailbox == m).length < 4

/-- Open a copy: its place among the copies, and its handle. -/
def Dev.openCopy (d : Dev) (c : Copy) : Nat × Nat × Dev :=
  let (r, d) := d.draw
  let id := pickId (d.openCopies.map (·.id)) r
  let i := ((fins 16).find? fun i => !(d.copies[i]).open_).getD 0
  (i.val, id, d.modCopy i fun _ => { c with id := id, open_ := true })

end Sys2Proof.Machine
end

