-- ==== Sys2Proof/Machine/Paddocks.lean ====
section
/-!
DEFINITION. Commands on the device, paddocks and sequence slots: GET_IDENTITY to BARRIER_SPAN and SEQ_OPEN to SEQ_CLOSE
(R427 to R430, R435 to R438, R442).
-/
namespace Sys2Proof.Machine

/-! ### GET_IDENTITY, SET_EVENT_RING, GET_FAULT_RECORD -/

def getIdentityCmd : Cmd where
  opcode := 0x0001
  owner := true
  admin := true
  client := true
  fabric := true
  states := [.manufacture, .unprovisioned, .provisioned, .retired]
  lo := 0
  hi := 0
  run e := (e.fz, e.d, { body := e.d.identity e.fz })

/-- GET_IDENTITY (R427). -/
def execGetIdentity (p : Port) (hwErr : Bool) (s : State) : Host.Outcome State Fault Refusal := getIdentityCmd.exec p hwErr s

/-- The ring of the issuing mailbox is enabled or disabled (R428). Enabling ring 0 reports the modules that are down
(R395). -/
def setRing (e : Env) : Dev :=
  let on : Bool := e.f 17 1 % 2 == 1
  let set (r : Ring) : Ring :=
    if on then r.enable (e.f 16 1) (BitVec.ofNat 64 (e.f 0 8)) (BitVec.ofNat 64 (e.f 8 8)) e.d.stamp
    else if r.enabled then r.disable e.d.now
    else r
  let d := { e.d with rings := vmodN e.d.rings e.mailbox set }
  if e.mailbox == 0 && on then
    (fins 2).foldl (fun d m =>
      if (d.module m).stayDown then d.post 0 6 m.val 0x7004 [] else d) d
  else d

def setEventRingCmd : Cmd where
  opcode := 0x0002
  owner := false
  admin := true
  client := true
  fabric := false
  states := [.unprovisioned, .provisioned]
  lo := 24
  hi := 24
  checks e :=
    let off := e.f 17 1 % 2 == 0
    [(off || e.f 0 8 % 4096 == 0, stMalformed), (off || e.f 8 8 % 8 == 0, stMalformed),
     (off || (6 ≤ e.f 16 1 && e.f 16 1 ≤ 16), stMalformed), (e.f 17 1 < 2, stMalformed), e.zero 18 6,
     (off || !(vgetN e.d.rings e.mailbox {}).enabled, stWrong)]
  run e := (e.fz, setRing e, {})

/-- SET_EVENT_RING (R428). -/
def execSetEventRing (p : Port) (hwErr : Bool) (s : State) : Host.Outcome State Fault Refusal := setEventRingCmd.exec p hwErr s

def FaultRec.none_ : FaultRec := { kind := 0, code := 0#16, time := 0#64, data := [] }

/-- The fault record of the named paddock. -/
def Env.faultRec (e : Env) : FaultRec := e.p.faultRec.getD FaultRec.none_

/-- Its answer: TOTAL, CODE, KIND, TIME and bytes from OFFSET. -/
def faultBody (e : Env) (r : FaultRec) : Bytes :=
  leBytes 4 r.data.length ++ leBytes 2 r.code.toNat ++ leBytes 2 r.kind ++ leBytes 8 r.time.toNat
    ++ sliceAt r.data (e.f 4 4) (e.dataMax 4064)

def getFaultRecordCmd : Cmd where
  opcode := 0x0003
  owner := false
  admin := true
  client := true
  fabric := false
  states := [.provisioned]
  lo := 8
  hi := 8
  pad e := e.padNo
  checks e := [e.padRange, e.zero 1 3, (e.f 4 4 % 16 == 0, stMalformed)] ++ e.padChecks ++
    [need (e.f 4 4 ≤ e.faultRec.data.length) stMalformed]
  run e := (e.fz, e.d, { body := faultBody e e.faultRec })

/-- GET_FAULT_RECORD (R429). -/
def execGetFaultRecord (p : Port) (hwErr : Bool) (s : State) : Host.Outcome State Fault Refusal :=
  getFaultRecordCmd.exec p hwErr s

/-! ### PADDOCK_CREATE (R435 to R437) -/

/-- Lowest base below `limit` of a free block of `n` beside blocks in use; 0 for none. -/
def lowestFree (used : List (Nat × Nat)) (n limit : Nat) : Option Nat :=
  if n == 0 then some 0
  else
    let ok (b : Nat) : Bool := b + n ≤ limit && used.all fun u => u.2 == 0 || b + n ≤ u.1 || u.1 + u.2 ≤ b
    ((0 :: used.map fun u => u.1 + u.2).filter ok).min?

/-- A tile in service, or a remount in use, that is bound to no paddock. -/
def Dev.freeTile (d : Dev) (s : SiteId) : Bool := d.hasTile s && (d.padOf s).isNone

/-- Neither a tile of a paddock nor held for pass-through (R435). -/
def Dev.freeSite (d : Dev) (s : SiteId) : Bool := (d.holder s).isNone

/-- Sites of a rectangle with its top-left site, where it lies on the die, in ascending order. -/
def rectSites (w h : Nat) (s : SiteId) : Option (List SiteId) :=
  if 6 < siteX s + w || 8 < siteY s + h then none
  else some ((fins 48).filter fun t =>
    siteX s ≤ siteX t && siteX t < siteX s + w && siteY s ≤ siteY t && siteY t < siteY s + h)

/-- The sites that the device chooses for `n` tiles (R435). -/
def Dev.chooseSites (d : Dev) (n : Nat) : Option (List SiteId) :=
  let w := min n 6
  (fins 48).findSome? fun s =>
    (rectSites w (ceilDiv n w) s).bind fun r =>
      let t := r.filter d.hasTile
      if r.all d.freeSite && n ≤ t.length then some (t.take n) else none

/-- The sites of a new paddock, in tile order. -/
def Dev.newSites (d : Dev) (mask n : Nat) : Option (List SiteId) :=
  if mask == 0 then d.chooseSites n
  else if (maskSites mask).all d.freeTile then some (maskSites mask) else none

/-- All paddocks that exist. -/
def Dev.allPads (d : Dev) : List Paddock := d.pads.toList.filterMap id

/-- Blocks that paddocks hold: barriers, and work counters. -/
def Dev.barBlocks (d : Dev) : List (Nat × Nat) := d.allPads.map fun p => (p.block.barBase, p.block.barCount)
def Dev.workBlocks (d : Dev) : List (Nat × Nat) := d.allPads.map fun p => (p.block.workBase, p.block.workCount)

/-- Pieces of a loft that are no paddock's to grant: windows, and windows whose zeroing is not complete (R442). -/
def Dev.takenIn (d : Dev) (l : SiteId) : List (Nat × Nat) :=
  (d.allPads.flatMap fun p => (p.windows.filter fun w => w.loft == l).map fun w => (w.base4k, w.size4k)) ++ (d.loft l).zeroing

/-- Lofts and size of the striped space that is asked for: none where either is zero (R437). -/
def Env.stripe (e : Env) : List SiteId × Nat :=
  if e.f 16 8 == 0 || e.f 24 4 == 0 then ([], 0) else (maskSites (e.f 16 8), e.f 24 4)

/-- What a creation takes: sites, barrier base, work base and stripe base; none where something does not fit. -/
def Env.fits (e : Env) : Option (List SiteId × Nat × Nat × Nat) := do
  let sites ← e.d.newSites (e.f 0 8) (e.f 8 1)
  let bar ← lowestFree e.d.barBlocks (e.f 9 1) 240
  let work ← lowestFree e.d.workBlocks (e.f 10 2) 256
  let base ← lowestFree (e.stripe.1.flatMap e.d.takenIn) e.stripe.2 2097152
  if e.f 12 2 != 0 && e.d.allPads.any fun p => p.brand.toNat == e.f 12 2 then none
  else pure (sites, bar, work, base)

/-- The registers of a tile of a new paddock; panels invalid, bells and queues clear, banks EMPTY. -/
def Tile.join (t : Tile) (k : PadId) (n : Nat) (carMap stripeCfg : BitVec 64) (stripeList : BitVec 384) (fabCfg : Word) : Tile :=
  { t with
    ctl := { t.ctl with
      bound := some (k, n), carMap := carMap, stripeCfg := stripeCfg, stripeList := stripeList, fabCfg := fabCfg,
      cfgBank := 0#8, imageTag := 0#64, hold := 0#8 }
    spad := t.spad.invalidate
    bells := Vector.replicate 48 0#32
    bellNow := []
    bellNext := []
    queues := t.queues.map fun q => { q with entries := [] }
    pmc := { sel := t.pmc.sel, meas := t.pmc.meas }
    banks := Vector.replicate 2 {} }

/-- Work counters of a block: the paddock's, at zero. -/
def Carillon.openWorks (c : Carillon) (k : PadId) (base n : Nat) : Carillon :=
  { c with works := (List.range n).foldl (fun v i => vsetN v (base + i) { paddock := k, enabled := true }) c.works }

/-- Barriers of a block: the paddock's, at zero, not enabled before an image commits; and its commit barrier (R254). -/
def Carillon.openBars (c : Carillon) (k : PadId) (base n tiles : Nat) : Carillon :=
  let v := (List.range n).foldl (fun v i => vsetN v (base + i) { cfg := barCfg 0 false 0#16 k false }) c.bars
  { c with bars := vsetN v (240 + k.val) { cfg := barCfg tiles false 0#16 k true } }

/-- PADDOCK_CREATE: the paddock's number, and the device with it. -/
def createPad (e : Env) (k : PadId) (sites : List SiteId) (bar work base : Nat) : Dev :=
  let n := sites.length
  let brand := BitVec.ofNat 16 (e.f 12 2)
  let lofts := e.stripe.1
  let carMap := BitVec.ofNat 64 (bar + e.f 9 1 * 2 ^ 8 + work * 2 ^ 16 + e.f 10 2 * 2 ^ 24)
  let stripeCfg := BitVec.ofNat 64 (lofts.length + (if lofts.isEmpty then 0 else base * 2 ^ 8 + e.stripe.2 * 2 ^ 32))
  let stripeList := BitVec.ofNat 384 (packFields 8 (lofts.map (·.val)))
  let brandReg := BitVec.ofNat 32 (e.f 12 2 + if e.f 12 2 == 0 then 0 else 2 ^ 16)
  let p : Paddock := {
    owner := e.mailbox, tiles := sites.map some, pass := e.d.passFor k sites, brand := brand, carMap := carMap,
    windows := lofts.map fun l => { loft := l, base4k := base, size4k := e.stripe.2 }, quietSince := e.d.now }
  let d := (sites.foldl (fun d s => d.wake s) e.d).tellTiles sites k 64
  let d := sites.zipIdx.foldl (fun d x => d.modTile x.1 fun t => t.join k x.2 carMap stripeCfg stripeList brandReg) d
  let d := d.forSites sites fun t => { t with ctl :=
    ((List.range (e.f 9 1)).map (bar + ·) ++ [240 + k.val]).foldl (fun c b => c.setEpisode b 0#2) t.ctl }
  { d with
    car := (d.car.openWorks k work (e.f 10 2)).openBars k bar (e.f 9 1) n
    fab := { d.fab with brands := vsetN d.fab.brands k.val brandReg }
    pads := vmod d.pads k fun _ => some p
    seals := vmod d.seals k fun _ => {} }.deadWindows

/-- Lowest free paddock index. -/
def Dev.freePad (d : Dev) : Option PadId := (fins 16).find? fun k => (d.pad k).isNone

/-- The row of PADDOCK_CREATE (R435). DESIGN CHOICE, log entry 79: that SITE_MASK has TILES bits set is checked after TILES' own range,
as a check of byte 8 (R14). -/
def paddockCreateCmd : Cmd where
  opcode := 0x0100
  owner := false
  admin := true
  client := true
  fabric := false
  states := [.provisioned]
  lo := 32
  hi := 32
  checks e :=
    [(e.f 0 8 < 2 ^ 48, stMalformed), (e.f 8 1 != 0, stMalformed), (e.f 8 1 ≤ 48, stLength),
     (e.f 0 8 == 0 || bitCount 48 (e.f 0 8) == e.f 8 1, stMalformed), (e.f 9 1 ≤ 240, stLength), (e.f 10 2 ≤ 256, stLength),
     e.zero 14 2, (e.f 16 8 < 2 ^ 48, stMalformed), (e.f 24 4 ≤ 2097152, stLength), e.zero 28 4,
     (e.d.freePad.isSome, stNoRes), (e.fits.isSome, stNoRes)]
  wakes e := match e.fits with
    | some x => x.1.foldl (fun d s => d.wake s) e.d
    | none => e.d
  run e := match e.d.freePad, e.fits with
    | some k, some (sites, bar, work, base) =>
      let d := createPad e k sites bar work base
      let pass := ((d.pad k).map (·.pass)).getD []
      let mask (l : List SiteId) : Nat := sumNat (l.map fun s => 2 ^ s.val)
      (e.fz, d, { body := leBytes 8 k.val ++ leBytes 8 (mask sites) ++ leBytes 16 (mask pass) })
    | _, _ => (e.fz, e.d, { status := stNoRes })

/-- PADDOCK_CREATE (R435). -/
def execPaddockCreate (p : Port) (hwErr : Bool) (s : State) : Host.Outcome State Fault Refusal := paddockCreateCmd.exec p hwErr s

/-! ### PADDOCK_RELEASE (R442) -/

/-- A tile leaves its paddock: registers clear, panels invalid and queued for zeroing, banks EMPTY. -/
def Tile.leave (t : Tile) : Tile :=
  { t with
    ctl := { t.ctl with
      bound := none, carMap := 0#64, stripeCfg := 0#64, stripeList := 0#384, fabCfg := 0#32, hold := 0#8, cfgBank := 0#8,
      imageTag := 0#64 }
    spad := t.spad.invalidate
    banks := Vector.replicate 2 {} }

/-- ENABLED of barriers and work counters of a paddock is cleared. -/
def Carillon.close (c : Carillon) (k : PadId) : Carillon :=
  { c with
    bars := c.bars.map fun b =>
      if bvFld b.cfg 64 4 == k.val then { b with cfg := BitVec.ofNat 128 (setFld b.cfg.toNat 68 1 0) } else b
    works := c.works.map fun w => if w.paddock == k then { w with enabled := false } else w }

/-- The paddock's windows return to their lofts for zeroing. -/
def Dev.returnWindows (d : Dev) (ws : List Window) : Dev :=
  ws.foldl (fun d w => d.modLoft w.loft fun lo => { lo with zeroing := lo.zeroing ++ [(w.base4k, w.size4k)] }) d

/-- Release a paddock: its sequence slots and sessions close with it (R429, R430, R442). -/
def Dev.releasePad (d : Dev) (k : PadId) : Dev :=
  match d.pad k with
  | none => d
  | some p =>
    let d := (((d.freeSpans k).idleBeats k).tellTiles p.sites k 64).forSites p.sites Tile.leave
    let d := d.returnWindows p.windows
    { d with
      car := d.car.close k
      fab := { d.fab with brands := vmodN d.fab.brands k.val fun b => b &&& 0xFFFEFFFF#32 }
      seqs := d.seqs.map fun q => if q.bound == some k then {} else q
      sessions := d.sessions.filter fun s => s.pad != k
      seals := vmod d.seals k fun _ => {}
      pads := vmod d.pads k fun _ => none }

def paddockReleaseCmd : Cmd where
  opcode := 0x0101
  owner := false
  admin := true
  client := true
  fabric := false
  states := [.provisioned]
  lo := 8
  hi := 8
  pad e := e.padNo
  checks e := [e.padRange, e.zero 1 7] ++ e.padChecks ++ [(e.d.padIdle e.k, stWrong)]
  run e := (e.fz, e.d.releasePad e.k, {})

/-- PADDOCK_RELEASE (R442). -/
def execPaddockRelease (p : Port) (hwErr : Bool) (s : State) : Host.Outcome State Fault Refusal := paddockReleaseCmd.exec p hwErr s

/-! ### PADDOCK_GRANT (R429, R438, R469) -/

/-- Pieces of a loft that another paddock holds, or that are being zeroed. -/
def Dev.takenByOthers (d : Dev) (k : PadId) (l : SiteId) : List (Nat × Nat) :=
  ((fins 16).flatMap fun j => if j == k then [] else match d.pad j with
    | some p => (p.windows.filter fun w => w.loft == l).map fun w => (w.base4k, w.size4k)
    | none => []) ++ (d.loft l).zeroing

def Env.grantLoft (e : Env) : Option SiteId := finOf 48 (e.f 1 1)

/-- The window is the paddock's, and the session's that granted it (R438, R469); in a loft with a failed channel path it fails the
device (R503). -/
def padGrantEffect (e : Env) : Dev :=
  match e.grantLoft with
  | none => e.d
  | some l =>
    let w : Window := { loft := l, base4k := e.f 4 4, size4k := e.f 8 4 }
    let d := e.d.modPad e.k fun p => { p with windows := p.windows ++ [w] }
    let d := if e.sess == 0 then d
      else { d with seals := vmod d.seals e.k fun x => { x with owned := x.owned ++ [(e.p.windows.length, e.sess)] } }
    d.deadWindows

def paddockGrantCmd : Cmd where
  opcode := 0x0102
  owner := false
  admin := true
  client := true
  fabric := false
  states := [.provisioned]
  lo := 16
  hi := 16
  pad e := e.padNo
  sealing := true
  checks e := [e.padRange, (e.grantLoft.isSome, stMalformed), e.zero 2 2, (e.f 8 4 != 0, stMalformed),
      (e.f 8 4 ≤ 2097152 && e.f 4 4 + e.f 8 4 ≤ 2097152, stLength), e.zero 12 4] ++ e.padChecks ++
    [(!e.d.runBusy e.k, stWrong),
     ((e.d.takenByOthers e.k (e.grantLoft.getD 0)).all fun u => e.f 4 4 + e.f 8 4 ≤ u.1 || u.1 + u.2 ≤ e.f 4 4, stNoRes),
     (e.p.windows.length < 64, stNoRes)]
  run e := (e.fz, padGrantEffect e, {})

/-- PADDOCK_GRANT (R438). -/
def execPaddockGrant (p : Port) (hwErr : Bool) (s : State) : Host.Outcome State Fault Refusal := paddockGrantCmd.exec p hwErr s

/-! ### PADDOCK_QUERY -/

def PadState.code : PadState → Nat
  | .empty => 0
  | .loading => 1
  | .ready => 2
  | .running => 3
  | .suspended => 4
  | .stopped => 5

def siteMask (l : List SiteId) : Nat := sumNat (l.map fun s => 2 ^ s.val)

/-- The answer to PADDOCK_QUERY (R427). -/
def Dev.padReport (d : Dev) (k : PadId) (p : Paddock) : Bytes :=
  let tag := if d.imageUsable k then (p.image.map (·.tag.toNat)).getD 0 else 0
  let handle := (p.run.map fun i => opHandle i.val (d.op i)).getD 0
  padTo 48 (leBytes 1 (d.padState p).code ++ leBytes 1 p.tiles.length ++ leBytes 6 p.brand.toNat ++ leBytes 8 (siteMask p.sites)
      ++ leBytes 8 (siteMask p.pass) ++ leBytes 8 tag ++ leBytes 4 handle ++ leBytes 1 p.owner)
    ++ (List.range 48).map fun n => BitVec.ofNat 8 (((p.tiles[n]?).join.map (·.val)).getD 0xFF)

def paddockQueryCmd : Cmd where
  opcode := 0x0103
  owner := false
  admin := true
  client := true
  fabric := false
  states := [.provisioned]
  lo := 8
  hi := 8
  pad e := e.padNo
  checks e := [e.padRange, e.zero 1 7] ++ e.padChecks
  run e := (e.fz, e.d, { body := e.d.padReport e.k e.p })

/-- PADDOCK_QUERY (R427). -/
def execPaddockQuery (p : Port) (hwErr : Bool) (s : State) : Host.Outcome State Fault Refusal := paddockQueryCmd.exec p hwErr s

/-! ### BARRIER_SPAN (R430) -/

/-- Child devices of the command. -/
def Env.children (e : Env) : List Nat := (List.range (e.f 6 1)).map fun i => e.f (8 + 2 * i) 2

def Env.parent (e : Env) : Option Nat := if e.f 2 1 % 2 == 1 then some (e.f 4 2) else none

/-- Entry of the barrier in the committed image. -/
def Env.imBarrier (e : Env) : Option (Nat × Bool) := e.p.image.bind fun im => im.barriers[e.f 1 1]?

/-- Spanning slot: the barrier's own, or the lowest that no barrier of any paddock holds. -/
def Env.spanSlot (e : Env) : Option Nat :=
  match lookupNat (e.f 1 1) e.p.spanned with
  | some j => some j
  | none => (List.range 16).find? fun j => !(e.d.allPads.any fun p => p.spanned.any fun x => x.2 == j)

def spanEffect (e : Env) : Dev :=
  match e.spanSlot with
  | none => e.d
  | some j =>
    let b := e.p.block.barBase + e.f 1 1
    let put (q : CarBarrier) : CarBarrier :=
      let x := setFld (setFld q.cfg.toNat 16 8 (e.f 6 1)) 24 1 (e.f 2 1 % 2)
      let y := setFld (setFld x 25 4 j) 32 14 (e.parent.getD 0)
      q.put (setFld y 68 1 1)
    let d := { e.d with car := { e.d.car with
      spans := vsetN e.d.car.spans j (e.children.map (BitVec.ofNat 14)),
      bars := vmodN e.d.car.bars b put } }
    d.modPad e.k fun p => { p with spanned := setKey (e.f 1 1) j p.spanned }

def barrierSpanCmd : Cmd where
  opcode := 0x0104
  owner := false
  admin := true
  client := true
  fabric := false
  states := [.provisioned]
  lo := 8
  hi := 8 + 2 * 255
  size e := some (8 + 2 * e.f 6 1)
  pad e := e.padNo
  sealing := true
  checks e :=
    let own (x : Nat) : Bool := e.d.numbered && x == e.d.number.toNat
    let names := e.parent.toList ++ e.children
    [e.padRange, (e.f 2 1 < 2, stMalformed), e.zero 3 1, (e.f 4 2 < 2 ^ 14, stMalformed),
     (!(e.parent.map own).getD false, stMalformed),
     (e.parent.isSome || e.f 6 1 != 0, stMalformed), e.zero 7 1, (e.children.all fun x => x < 2 ^ 14, stMalformed),
     (!(e.children.any own) && names.dedup.length == names.length, stMalformed)] ++ e.padChecks ++
    [((e.imBarrier.map (·.2)).getD false, stWrong), (e.p.brand != 0#16, stWrong), (e.d.numbered, stWrong),
     (!e.d.runBusy e.k, stWrong), (e.spanSlot.isSome, stNoRes)]
  run e := (e.fz, spanEffect e, {})

/-- BARRIER_SPAN (R430). -/
def execBarrierSpan (p : Port) (hwErr : Bool) (s : State) : Host.Outcome State Fault Refusal := barrierSpanCmd.exec p hwErr s

/-! ### Sequence slots (R240, R429) -/

/-- The slot that byte 0 names, its number, and the paddock it is bound to. -/
def Env.seqNo (e : Env) : Option (Fin 16) := finOf 16 (e.f 0 1)
def Env.seq (e : Env) : SeqSlot := (e.seqNo.map fun i => e.d.seqs[i]).getD {}

def Env.seqRange (e : Env) : Bool × Nat := (e.seqNo.isSome, stMalformed)

/-- The slot is OPEN, and a client owns its paddock. -/
def Env.seqChecks (e : Env) : List (Bool × Nat) :=
  [(e.seq.bound.isSome, stNoRes), ((e.seq.bound.map e.ownsPad).getD false, stPort)]

/-- No run of the slot's paddock is in progress. -/
def Env.seqIdle (e : Env) : Bool × Nat := (!(e.seq.bound.map e.d.runBusy).getD false, stWrong)

def Dev.freeSeqs (d : Dev) : List (Fin 16) := (fins 16).filter fun i => (d.seqs[i]).bound.isNone

def seqOpenEffect (e : Env) : Dev × Nat :=
  let (r, d) := e.d.draw
  let i := (pickFrom d.freeSeqs r).getD 0
  ({ d with seqs := vmod d.seqs i fun _ => { bound := some e.k, length := 0 } }, i.val)

def seqOpenCmd : Cmd where
  opcode := 0x0300
  owner := false
  admin := true
  client := true
  fabric := false
  states := [.provisioned]
  lo := 8
  hi := 8
  pad e := e.padNo
  checks e := [e.padRange, e.zero 1 7] ++ e.padChecks ++ [(!e.d.runBusy e.k, stWrong), (!e.d.freeSeqs.isEmpty, stNoRes)]
  run e := (e.fz, (seqOpenEffect e).1, { body := leBytes 8 (seqOpenEffect e).2 })

/-- SEQ_OPEN (R429). -/
def execSeqOpen (p : Port) (hwErr : Bool) (s : State) : Host.Outcome State Fault Refusal := seqOpenCmd.exec p hwErr s

def seqSetCmd : Cmd where
  opcode := 0x0301
  owner := false
  admin := true
  client := true
  fabric := false
  states := [.provisioned]
  lo := 8
  hi := 8
  pad e := e.seq.bound
  sealing := true
  checks e := [e.seqRange, e.zero 1 3, (e.f 4 4 ≤ 16777216, stLength)] ++ e.seqChecks ++ [e.seqIdle]
  run e := (e.fz, { e.d with seqs := vmodN e.d.seqs (e.f 0 1) fun q => { q with length := e.f 4 4 } }, {})

/-- SEQ_SET (R240). -/
def execSeqSet (p : Port) (hwErr : Bool) (s : State) : Host.Outcome State Fault Refusal := seqSetCmd.exec p hwErr s

def seqReadCmd : Cmd where
  opcode := 0x0302
  owner := false
  admin := true
  client := true
  fabric := false
  states := [.provisioned]
  lo := 8
  hi := 8
  pad e := e.seq.bound
  checks e := [e.seqRange, e.zero 1 7] ++ e.seqChecks
  run e := (e.fz, e.d, { body := leBytes 4 ((e.seq.bound.map (·.val)).getD 0) ++ leBytes 4 e.seq.length })

/-- SEQ_READ (R429). -/
def execSeqRead (p : Port) (hwErr : Bool) (s : State) : Host.Outcome State Fault Refusal := seqReadCmd.exec p hwErr s

def seqCloseCmd : Cmd where
  opcode := 0x0303
  owner := false
  admin := true
  client := true
  fabric := false
  states := [.provisioned]
  lo := 8
  hi := 8
  pad e := e.seq.bound
  sealing := true
  checks e := [e.seqRange, e.zero 1 7] ++ e.seqChecks ++ [e.seqIdle]
  run e := (e.fz, { e.d with seqs := vmodN e.d.seqs (e.f 0 1) fun _ => {} }, {})

/-- SEQ_CLOSE (R240). -/
def execSeqClose (p : Port) (hwErr : Bool) (s : State) : Host.Outcome State Fault Refusal := seqCloseCmd.exec p hwErr s

end Sys2Proof.Machine
end

