-- ==== Sys2Proof/Machine/Jobs.lean ====
section
/-!
DEFINITION. Commands on images, runs, checkpoints, operations, copies and accounts: IMAGE_LOAD to CHECKPOINT, OP_QUERY to
COPY_CLOSE and ACCOUNT_QUERY (R416 to R419, R427 to R432, R447 to R449, R513).
-/
namespace Sys2Proof.Machine

/-- The device with every tile of the named paddock awake (R528). -/
def Env.woken (e : Env) : Dev := e.d.wakePad e.k

/-! ### IMAGE_LOAD (R297, R431) -/

/-- The load is accepted: fault record cleared (R429), paddock LOADING, a STREAM handle, the operation QUEUED. -/
def imageLoadEffect (e : Env) : Dev × Rsp :=
  let n := e.f 8 8
  let d := e.d.modPad e.k fun p => { p with faultRec := none, state := .loading }
  let (i, d) := d.newOp { mailbox := e.mailbox, typ := .imageLoad, paddock := some e.k }
  let (c, id, d) := d.openCopy { mailbox := e.mailbox, paddock := e.k, kind := .stream, bytes := n, op := some i }
  let d := { d.modPad e.k fun p => { p with load := some i } with
    loads := d.loads ++ [{ op := i, copy := c, pad := e.k, bytes := n, hitch := e.d.role == 2, count := e.d.hitchSize }] }
  (d, d.opAccepted i (leBytes 8 id))

/-- Most bytes that a load may announce: an image, or on a lead the container of its hitch (R303). -/
def Env.loadMax (e : Env) : Nat := if e.d.role == 2 then 64 + e.d.hitchSize * 268435456 else 268435456

def imageLoadCmd : Cmd where
  opcode := 0x0200
  owner := false
  admin := true
  client := true
  fabric := false
  states := [.provisioned]
  lo := 16
  hi := 16
  pad e := e.padNo
  sealing := true
  checks e := [e.padRange, e.zero 1 7, need (64 ≤ e.f 8 8) stMalformed, need (e.f 8 8 ≤ e.loadMax) stLength] ++ e.padChecks ++
    [need (!e.d.runBusy e.k && !e.d.loadBusy e.k) stWrong, need (e.p.tiles.all Option.isSome) stNoRes,
     need (e.d.copyRoom e.mailbox) stNoRes, need (e.d.opRoom e.mailbox 1) stNoRes, need (!e.d.trustBad) stDevice]
  wakes := Env.woken
  run e := (e.fz, imageLoadEffect e)

/-- IMAGE_LOAD (R431). -/
def execImageLoad (p : Port) (hwErr : Bool) (s : State) : Host.Outcome State Fault Refusal := imageLoadCmd.exec p hwErr s

/-! ### RUN_START (R223, R431, R513) -/

/-- The measurement word is one that R513 admits. -/
def measOk (m : Nat) : Bool :=
  fld m 0 5 < 25 && fld m 10 3 < 5 && fld m 13 3 == 0 && m < 2 ^ 40 &&
    (!bitOf m 5 || (fld m 16 24 != 0 && fld m 16 24 != 0xFFFFFF))

/-- Every spanning barrier of the committed image has its place (R430). -/
def Paddock.spansSet (p : Paddock) : Bool :=
  ((p.image.map (·.barriers)).getD []).zipIdx.all fun x => !x.1.2 || (lookupNat x.2 p.spanned).isSome

/-- The hitch, where this device leads one, can run (R305, R358). -/
def Dev.leadReady (d : Dev) : Bool := d.role != 2 || (d.hitchFormed && !d.hitchFailed)

def runStartEffect (e : Env) : Dev × Rsp :=
  let params := (List.range 64).map fun i => BitVec.ofNat 64 (e.f (8 + 8 * i) 8)
  let (i, d) := e.d.newOp { mailbox := e.mailbox, typ := .run, paddock := some e.k }
  let d := d.startRun e.k i params
  let d := { d with seals := vmod d.seals e.k fun x => { x with paramDigest := Config.shake256 64 (sliceAt e.body 8 512) } }
  (d, d.opAccepted i [])

def runStartCmd : Cmd where
  opcode := 0x0210
  owner := false
  admin := true
  client := true
  fabric := false
  states := [.provisioned]
  lo := 520
  hi := 520
  pad e := e.padNo
  sealing := true
  checks e := [e.padRange, e.zero 1 7, need (measOk (e.f 512 8)) stMalformed] ++ e.padChecks ++
    [need (e.d.imageUsable e.k) stWrong, need (!e.d.runBusy e.k && !e.d.loadBusy e.k) stWrong, need e.d.leadReady stWrong,
     need e.p.spansSet stWrong, need (e.d.opRoom e.mailbox 1) stNoRes]
  wakes := Env.woken
  run e := (e.fz, runStartEffect e)

/-- RUN_START (R431). -/
def execRunStart (p : Port) (hwErr : Bool) (s : State) : Host.Outcome State Fault Refusal := runStartCmd.exec p hwErr s

/-! ### CHECKPOINT (R431, R447, R448, R474) -/

/-- The paddock's run, where one is in progress, is SUSPENDED. -/
def Dev.runStill (d : Dev) (k : PadId) : Bool :=
  d.ops.toList.all fun o => !(o.live && o.typ == .run && o.paddock == some k) || o.state == .suspended

/-- The range of the command lies in the paddock's windows. -/
def Env.ckptRange (e : Env) : Bool := inWindows e.p.windows (e.f 8 8) (e.f 16 8)

/-- The checkpoint at ADDR is of the committed image. IMAGE_TAG of a sealed one shows in its tags only, which the RESTORE
verifies (R474). -/
def Env.tagMatches (e : Env) : Bool :=
  match e.p.image with
  | some im => e.d.sealed e.k || !e.ckptRange || leNat (e.d.loadLinear (e.f 8 8) 8) == im.tag.toNat
  | none => false

def Env.ckptState (e : Env) : Bool :=
  if e.f 1 1 == 0 then e.d.runStill e.k else !e.d.runBusy e.k && e.tagMatches

def Env.ckptSize (e : Env) : Nat := Machine.ckptSize (e.d.sealed e.k) e.p.tiles.length (e.d.validPanels e.p)

/-- Bytes that a RESTORE reads: those of the checkpoint that stands there. -/
def Env.restoreSize (e : Env) : Nat :=
  match e.d.readCkpt e.k e.p (e.f 8 8) with
  | some r => Machine.ckptSize (e.d.sealed e.k) e.p.tiles.length (sumNat (r.2.map fun x => x.2.length))
  | none => 0

def checkpointEffect (e : Env) : Dev × Rsp :=
  let d := e.d
  let (nonce, d) := if e.d.sealed e.k then d.draw else (0, d)
  let n := if e.f 1 1 == 0 then e.ckptSize else e.restoreSize
  let (i, d) := d.newOp {
    mailbox := e.mailbox, typ := .checkpoint, paddock := some e.k, args := [e.f 1 1, e.f 8 8, e.f 16 8, nonce % 2 ^ 64, n] }
  let d := if e.f 1 1 == 0 then d
    else d.modOp i fun o => { o with reserve := (d.freeSlots.find? fun j => j != i) }
  (d, d.opAccepted i [])

def checkpointCmd : Cmd where
  opcode := 0x0211
  owner := false
  admin := true
  client := true
  fabric := false
  states := [.provisioned]
  lo := 24
  hi := 24
  pad e := e.padNo
  sealing := true
  checks e := [e.padRange, need (e.f 1 1 < 2) stMalformed, e.zero 2 6, need (e.f 8 8 % 4096 == 0) stMalformed,
      need (e.f 16 8 != 2 ^ 64 - 1) stLength] ++ e.padChecks ++
    [need e.ckptState stWrong, need e.ckptRange stNoRes,
     need ((if e.f 1 1 == 0 then e.ckptSize else e.restoreSize) ≤ e.f 16 8) stNoRes, need (e.d.opRoom e.mailbox (1 + e.f 1 1)) stNoRes]
  wakes := Env.woken
  run e := (e.fz, checkpointEffect e)

/-- CHECKPOINT (R431). -/
def execCheckpoint (p : Port) (hwErr : Bool) (s : State) : Host.Outcome State Fault Refusal := checkpointCmd.exec p hwErr s

/-! ### Operations (R416 to R418) -/

/-- The slot that a handle names, and its operation. -/
def Env.slot (e : Env) : Fin 64 := ⟨e.f 0 4 % 64, Nat.mod_lt _ (by decide)⟩
def Env.op (e : Env) : Op := e.d.op e.slot

/-- SLOT and GEN of the handle name a held operation. -/
def Env.opHeld (e : Env) : Bool := e.op.held && e.op.gen.toNat == e.f 2 2

def Env.opPad (e : Env) : Option PadId := if e.opHeld then e.op.paddock else none

/-- Bits [15:11] of a handle are Reserved (0). -/
def Env.handleForm (e : Env) : Bool × Nat := need (fld (e.f 0 4) 11 5 == 0) stMalformed

/-- A client's handle carries its own mailbox (R416). -/
def Env.opChecks (e : Env) : List (Bool × Nat) :=
  [need e.opHeld stNoRes, need (!e.client || (e.op.mailbox == e.mailbox && fld (e.f 0 4) 6 5 == e.mailbox)) stPort]

def OpType.code : OpType → Nat
  | .imageLoad => 0
  | .run => 1
  | .checkpoint => 2
  | .scrub => 3
  | .dramTest => 4
  | .fwStage => 5
  | .routeRebuild => 6

/-- The answer to OP_QUERY. -/
def Op.report (o : Op) : Bytes :=
  leBytes 1 o.state.code ++ leBytes 1 o.typ.code ++ leBytes 6 o.code.toNat ++ leBytes 8 o.progress ++ leBytes 8 o.result

/-- A final operation's slot is free; its paddock no longer names it. -/
def Dev.releaseOp (d : Dev) (i : Fin 64) : Dev :=
  let d := match (d.op i).paddock with
    | some k => d.modPad k fun p => { p with
        run := if p.run == some i then none else p.run
        load := if p.load == some i then none else p.load }
    | none => d
  d.modOp i fun o => { o with held := false }

def opQueryCmd : Cmd where
  opcode := 0x0400
  owner := true
  admin := true
  client := true
  fabric := false
  states := [.unprovisioned, .provisioned]
  lo := 8
  hi := 8
  pad e := e.opPad
  checks e := [e.handleForm, need (e.f 4 1 < 2) stMalformed, e.zero 5 3] ++ e.opChecks ++
    [need (e.f 4 1 == 0 || e.op.state.final) stWrong]
  run e := (e.fz, if e.f 4 1 == 1 then e.d.releaseOp e.slot else e.d, { body := e.op.report })

/-- OP_QUERY (R416). -/
def execOpQuery (p : Port) (hwErr : Bool) (s : State) : Host.Outcome State Fault Refusal := opQueryCmd.exec p hwErr s

/-- Types with suspend points (R419). -/
def OpType.suspends : OpType → Bool
  | .fwStage | .routeRebuild => false
  | _ => true

/-- SUSPEND_OP: the device after it, or none where the table of R417 has no such change. The paddock of a run that waits QUEUED keeps
the state it is in (R441). -/
def Dev.suspendOp (d : Dev) (i : Fin 64) : Option Dev :=
  let o := d.op i
  if !o.typ.suspends then none
  else match o.state with
    | .suspending | .suspended => some d
    | .queued => some (d.setOp i .suspended 0)
    | .running =>
      let d := d.setOp i .suspending 0
      some (match o.typ, o.paddock with
        | .run, some k => d.modPad k fun p => { p with suspendDue := true }
        | .imageLoad, _ => d.modOp i fun o => { o with point := ((d.loadOf i).map fun l => l.bodies.length).getD 0 }
        | _, _ => d)
    | _ => none

/-- An operation goes on from SUSPENDED: a run waits QUEUED while the beat table holds its paddock (R417, R445). -/
def Dev.resumeWork (d : Dev) (i : Fin 64) : Dev :=
  let o := d.op i
  match o.typ, o.paddock with
  | .run, some k =>
    if ((d.pad k).map (·.held)).getD false then (d.wakePad k).setOp i .queued 0 else (d.setOp i .running 0).goOn k
  | .imageLoad, some k =>
    if !d.loadUnbegun k then d.setOp i .running 0
    else if ((d.loadOf i).map (·.hitch)).getD false && d.leadLoad.isSome then d.setOp i .queued 0
    else (d.setOp i .running 0).startLoad k
  | .checkpoint, _ => if o.data.isEmpty then d.setOp i .queued 0 else d.setOp i .running 0
  | _, _ => d.setOp i .running 0

/-- RESUME_OP. -/
def Dev.resumeOp (d : Dev) (i : Fin 64) : Option Dev :=
  let o := d.op i
  match o.state with
  | .running | .queued => some d
  | .suspending =>
    let d := d.setOp i .running 0
    some (match o.typ, o.paddock with
      | .run, some k => d.modPad k fun p => { p with suspendDue := false }
      | _, _ => d)
  | .suspended => some (d.resumeWork i)
  | _ => none

/-- CANCEL_OP: an operation that waits is CANCELLED at once; one that runs is CANCELLING until its next cancel point, a
run's paddock stopping at once (R417, R419). Staging that is cancelled leaves its slot erased. -/
def cancelOp (i : Fin 64) (fz : Fuse) (d : Dev) : Option (Fuse × Dev) :=
  let o := d.op i
  match o.state with
  | .cancelling => some (fz, d)
  | .queued | .suspended => some (match o.typ, o.paddock with
    | .run, some k => (fz, (d.cancelRun k).setOp i .cancelled 0)
    | .imageLoad, _ => (fz, d.endLoad i .cancelled 0)
    | .checkpoint, _ => (fz, (d.setOp i .cancelled 0).dropSave i)
    | .fwStage, _ => ({ fz with slots := vsetN fz.slots (o.args.getD 0 0) (some []) }, { d with staging := none }.setOp i .cancelled 0)
    | _, _ => (fz, d.setOp i .cancelled 0))
  | .running | .suspending => some (match o.typ, o.paddock with
    | .run, some k => (fz, (d.cancelRun k).setOp i .cancelling 0)
    | _, _ => (fz, d.setOp i .cancelling 0))
  | _ => none

/-- The answer carries the state after the command, OK or WRONG_STATE (R418). -/
def opAnswer (e : Env) (r : Option (Fuse × Dev)) : Fuse × Dev × Rsp :=
  match r with
  | some (fz, d) => (fz, d, { body := leBytes 8 (d.op e.slot).state.code })
  | none => (e.fz, e.d, { status := stWrong, body := leBytes 8 e.op.state.code })

def suspendOpCmd : Cmd where
  opcode := 0x0401
  owner := true
  admin := true
  client := true
  fabric := false
  states := [.unprovisioned, .provisioned]
  lo := 8
  hi := 8
  pad e := e.opPad
  checks e := [e.handleForm, e.zero 4 4] ++ e.opChecks
  run e := opAnswer e ((e.d.suspendOp e.slot).map fun d => (e.fz, d))

/-- SUSPEND_OP (R418). -/
def execSuspendOp (p : Port) (hwErr : Bool) (s : State) : Host.Outcome State Fault Refusal := suspendOpCmd.exec p hwErr s

def resumeOpCmd : Cmd where
  opcode := 0x0402
  owner := true
  admin := true
  client := true
  fabric := false
  states := [.unprovisioned, .provisioned]
  lo := 8
  hi := 8
  pad e := e.opPad
  checks e := [e.handleForm, e.zero 4 4] ++ e.opChecks
  run e := opAnswer e ((e.d.resumeOp e.slot).map fun d => (e.fz, d))

/-- RESUME_OP (R418). -/
def execResumeOp (p : Port) (hwErr : Bool) (s : State) : Host.Outcome State Fault Refusal := resumeOpCmd.exec p hwErr s

def cancelOpCmd : Cmd where
  opcode := 0x0403
  owner := true
  admin := true
  client := true
  fabric := false
  states := [.unprovisioned, .provisioned]
  lo := 8
  hi := 8
  pad e := e.opPad
  checks e := [e.handleForm, e.zero 4 4] ++ e.opChecks
  run e := opAnswer e (cancelOp e.slot e.fz e.d)

/-- CANCEL_OP (R418). -/
def execCancelOp (p : Port) (hwErr : Bool) (s : State) : Host.Outcome State Fault Refusal := cancelOpCmd.exec p hwErr s

/-! ### COPY_OPEN and COPY_CLOSE (R432, R469, R471) -/

/-- Host ranges of an OUT copy. -/
def Env.ranges (e : Env) : List (BitVec 64 × Nat) :=
  (List.range (e.f 2 1)).map fun i => (BitVec.ofNat 64 (e.f (32 + 16 * i) 8), e.f (40 + 16 * i) 8)

/-- The copy that the command asks for. -/
def Env.newCopy (e : Env) : Copy :=
  let c : Copy := {
    mailbox := e.mailbox, paddock := e.k, kind := if e.f 1 1 == 1 then .copyOut else .copyIn, addr := e.f 8 8,
    bytes := e.f 16 8, ranges := e.ranges }
  match e.session with
  | some s => { c with
      session := some s.id, key := if e.f 1 1 == 1 then sliceAt s.key 64 32 else sliceAt s.key 32 32, copyNo := s.copyNo }
  | none => c

/-- Windows that the session owns (R469). -/
def Env.ownWindows (e : Env) : List Window :=
  (e.p.windows.zipIdx.filter fun x => (e.d.seals[e.k]).owned.contains (x.2, e.sess)).map (·.1)

/-- Checks of one host range. -/
def rangeChecks (r : BitVec 64 × Nat) : List (Bool × Nat) :=
  [need (r.1.toNat % 8 == 0) stMalformed, need (r.2 != 2 ^ 64 - 1) stLength, need (r.2 % 8 == 0) stMalformed]

def copyOpenEffect (e : Env) : Dev × Rsp :=
  let (_, id, d) := e.d.openCopy e.newCopy
  let d := { d with sessions := d.sessions.map fun s => if e.sess != 0 && s.id == e.sess then { s with copyNo := s.copyNo + 1 } else s }
  (d, { body := leBytes 8 id })

def copyOpenCmd : Cmd where
  opcode := 0x0500
  owner := false
  admin := true
  client := true
  fabric := false
  states := [.provisioned]
  lo := 32
  hi := 32 + 16 * 16
  size e := some (32 + 16 * e.f 2 1)
  pad e := e.padNo
  sealing := true
  checks e :=
    let out : Bool := e.f 1 1 == 1
    [e.padRange, need (e.f 1 1 < 2) stMalformed, need (e.f 2 1 ≤ 16) stLength, need (out == (e.f 2 1 != 0)) stMalformed,
      e.zero 3 5, need (e.f 8 8 % 16 == 0) stMalformed,
      need (e.f 16 8 ≤ 2 ^ 39) stLength, need (e.f 16 8 != 0 && e.f 16 8 % 16 == 0) stMalformed, e.zero 24 8] ++
    e.ranges.flatMap rangeChecks ++
    [need (!out || sumNat (e.ranges.map (·.2)) == e.newCopy.total) stMalformed] ++ e.padChecks ++
    [need (e.sess == 0 || inWindows e.ownWindows (e.f 8 8) (e.f 16 8)) stPort,
     need (inWindows e.p.windows (e.f 8 8) (e.f 16 8)) stNoRes, need (e.d.copyRoom e.mailbox) stNoRes]
  run e := (e.fz, copyOpenEffect e)

/-- COPY_OPEN (R432). -/
def execCopyOpen (p : Port) (hwErr : Bool) (s : State) : Host.Outcome State Fault Refusal := copyOpenCmd.exec p hwErr s

/-- The copy that a handle names. -/
def Env.copyIdx (e : Env) : Option (Fin 16) := e.d.copyOf (e.f 0 2)
def Env.copy (e : Env) : Copy := (e.copyIdx.map fun i => e.d.copies[i]).getD {}

/-- A copy ends without COPY_DONE; the delivery of a STREAM ends, and its handle closes when its load has ended too. -/
def copyCloseEffect (e : Env) : Dev :=
  match e.copyIdx with
  | none => e.d
  | some i =>
    let c := e.copy
    match c.kind, c.op with
    | .stream, some slot => (e.d.modCopy i fun c => { c with ended := true }).modLoad slot fun l => { l with ended := true }
    | _, _ => (e.d.modCopy i fun c => { c with open_ := false, ended := true }).modPad c.paddock fun p => { p with quietSince := e.d.now }

def copyCloseCmd : Cmd where
  opcode := 0x0501
  owner := false
  admin := true
  client := true
  fabric := false
  states := [.provisioned]
  lo := 8
  hi := 8
  pad e := e.copyIdx.map fun _ => e.copy.paddock
  sealing := true
  checks e := [e.zero 2 6, need e.copyIdx.isSome stNoRes,
    need (!e.client || e.copy.mailbox == e.mailbox || e.ownsPad e.copy.paddock) stPort]
  run e := (e.fz, copyCloseEffect e, { body := leBytes 8 e.copy.moved })

/-- COPY_CLOSE (R432). -/
def execCopyClose (p : Port) (hwErr : Bool) (s : State) : Host.Outcome State Fault Refusal := copyCloseCmd.exec p hwErr s

/-! ### ACCOUNT_QUERY (R449) -/

def Env.account (e : Env) : Account := vgetN e.d.accounts (e.f 0 1) {}

def accountBody (e : Env) (a : Account) : Bytes :=
  leBytes 8 a.wait.toNat ++ leBytes 4 a.preempt.toNat ++ leBytes 4 a.beats.toNat ++ leBytes 8 a.tileNclk.toNat
    ++ leBytes 8 e.d.now ++ leBytes 8 0

def accountQueryCmd : Cmd where
  opcode := 0x0600
  owner := false
  admin := true
  client := true
  fabric := false
  states := [.provisioned]
  lo := 8
  hi := 8
  checks e := [need (1 ≤ e.f 0 1 && e.f 0 1 ≤ 16) stMalformed, need (e.f 1 1 < 2) stMalformed, e.zero 2 6,
    need (!e.client || (e.f 0 1 == e.mailbox && e.f 1 1 == 0)) stPort]
  run e := (e.fz, if e.f 1 1 == 1 then { e.d with accounts := vsetN e.d.accounts (e.f 0 1) {} } else e.d,
    { body := accountBody e e.account })

/-- ACCOUNT_QUERY (R449). -/
def execAccountQuery (p : Port) (hwErr : Bool) (s : State) : Host.Outcome State Fault Refusal := accountQueryCmd.exec p hwErr s

end Sys2Proof.Machine
end

