-- ==== Sys2Proof/Machine/Trust.lean ====
section
/-!
DEFINITION. Attestation, certificate chains and sealed sessions (R433, R454, R457, R463 to R466), and the settings as they
are in force (R434, R461, R534).
-/
namespace Sys2Proof.Machine

/-! ### Settings in force (R534) -/

/-- Settings that R427 and R461 list. -/
def settingListed (id : Nat) : Bool :=
  (1 ≤ id && id ≤ 7) || (0x10 ≤ id && id < 0x28) || (0x100 ≤ id && id < 0x108) || id == 0x110 || id == 0x111

/-- Factory values: those of the factory-safe set (R534). -/
def factoryValue (id : Nat) : Nat :=
  match id with
  | 2 => 2
  | 3 => 1
  | 7 => 2 ^ 63
  | 0x110 => 1
  | _ => 0

/-- The value in force since the last boot; 0 for an ID that is not listed. -/
def Dev.inForce (d : Dev) (id : Nat) : Nat := if settingListed id then (d.setting id).getD (factoryValue id) else 0

/-! ### The trust store (R459, R460) -/

/-- The trust store as the bytes that are digested. -/
def TrustStore.bytes (s : TrustStore) : Bytes :=
  padTo 1800 (s.owner.getD []) ++ s.signers.toList.flatMap fun k => padTo 1800 (k.getD [])

/-! ### GET_ATTESTATION (R463) -/

/-- Bytes 0 to 255 of a report. -/
def reportHead (e : Env) (kind len : Nat) : Bytes :=
  let d := e.d
  padTo 256 ([0x46#8, 0x4C#8, 0x41#8, 0x54#8] ++ leBytes 2 1 ++ leBytes 2 kind ++ leBytes 8 len ++ leBytes 8 e.fz.serial.toNat
    ++ sliceAt e.body 8 32 ++ leBytes 8 d.now ++ leBytes 1 e.fz.lifecycle.code ++ leBytes 1 d.role
    ++ leBytes 2 (d.number.toNat + bit d.numbered 15) ++ leBytes 4 d.idBoot ++ leBytes 4 e.fz.ownerEpoch.toNat
    ++ leBytes 4 d.ym.fwSvn.toNat ++ padTo 32 e.fz.ownerField ++ padTo 64 d.ym.fwDigest
    ++ padTo 64 (Config.shake256 64 ((List.range 512).flatMap fun i => leBytes 8 (d.inForce i))) ++ leBytes 12 d.idSites)

/-- Sessions of a paddock, in the order in which they were opened. -/
def Dev.padSessions (d : Dev) (k : PadId) : List Session := d.sessions.filter fun s => s.pad == k

/-- The index of the session that owns the paddock's window of a place, 0xFF for none. -/
def Dev.windowOwner (d : Dev) (k : PadId) (i : Nat) : Nat :=
  match (d.seals[k]).owned.find? fun o => o.1 == i with
  | some o => ((d.padSessions k).findIdx? fun s => s.id == o.2).getD 0xFF
  | none => 0xFF

/-- Bytes 256 to 1,631 of a paddock report. -/
def reportPad (d : Dev) (k : PadId) (p : Paddock) : Bytes :=
  let im := p.image.getD {}
  let ss := d.padSessions k
  padTo 224 (leBytes 1 k.val ++ leBytes 1 (d.padState p).code ++ leBytes 1 p.tiles.length
      ++ leBytes 1 (bit (d.sealed k) 0 + bit (d.imageUsable k) 1 + bit im.sealed_ 2) ++ leBytes 2 p.brand.toNat
      ++ leBytes 1 ss.length ++ leBytes 1 p.windows.length ++ leBytes 8 (siteMask p.sites) ++ leBytes 8 (siteMask p.pass)
      ++ leBytes 8 im.svn ++ padTo 64 im.digest ++ padTo 32 im.signer ++ padTo 32 im.jobId
      ++ padTo 64 (d.seals[k]).paramDigest)
    ++ padTo 128 (ss.flatMap fun s => leBytes 8 s.id ++ padTo 24 s.fp)
    ++ padTo 1024 (p.windows.zipIdx.flatMap fun x =>
      leBytes 1 x.1.loft.val ++ leBytes 3 (d.windowOwner k x.2) ++ leBytes 4 x.1.base4k ++ leBytes 8 x.1.size4k)

/-- A report with the signature of FWID. -/
def report (e : Env) : Bytes :=
  let bs := if e.f 0 1 == 0xFF then reportHead e 0 1536 else reportHead e 1 2912 ++ reportPad e.d e.k e.p
  bs ++ padTo 1280 (Config.falconSign (e.d.fwid e.fz) bs)

/-- The device as a whole, or a paddock, is named. -/
def Env.wholeDevice (e : Env) : Bool := e.f 0 1 == 0xFF

def getAttestationCmd : Cmd where
  opcode := 0x0601
  owner := true
  admin := true
  client := true
  fabric := true
  states := [.provisioned]
  lo := 40
  hi := 40
  pad e := e.padNo
  checks e := [need (e.wholeDevice || e.padNo.isSome) stMalformed, e.zero 1 7] ++ (if e.wholeDevice then [] else e.padChecks)
  run e := (e.fz, e.d, { body := report e })

/-- GET_ATTESTATION (R463). -/
def execGetAttestation (p : Port) (hwErr : Bool) (s : State) : Host.Outcome State Fault Refusal := getAttestationCmd.exec p hwErr s

/-! ### GET_CERT_CHAIN (R457) -/

def chainBody (e : Env) (chain : Bytes) : Bytes := leBytes 8 chain.length ++ sliceAt chain (e.f 0 4) (e.dataMax 4072)

def getCertChainCmd : Cmd where
  opcode := 0x0602
  owner := true
  admin := true
  client := true
  fabric := true
  states := [.unprovisioned, .provisioned]
  lo := 8
  hi := 8
  checks e := [need (e.f 0 4 % 8 == 0) stMalformed, e.zero 4 4, need (e.f 0 4 ≤ (e.d.fullChain e.fz).length) stMalformed]
  run e := (e.fz, e.d, { body := chainBody e (e.d.fullChain e.fz) })

/-- GET_CERT_CHAIN (R457). -/
def execGetCertChain (p : Port) (hwErr : Bool) (s : State) : Host.Outcome State Fault Refusal := getCertChainCmd.exec p hwErr s

/-! ### SESSION_OPEN and SESSION_CLOSE (R433, R464 to R468) -/

/-- K of a session (R465). -/
def sessionKey (fz : Fuse) (ss : Bytes) (k : PadId) (id : Nat) : Bytes :=
  Config.shake256 96 (ascii "FLEVER-SESSION-1" ++ ss ++ leBytes 8 fz.serial.toNat ++ leBytes 1 k.val ++ leBytes 2 id)

/-- Digest of the ciphertext, and the shared secret where the key is the device's, the digest is new and the decapsulation
passes. -/
def Env.ctDigest (e : Env) : Bytes := Config.shake256 64 (sliceAt e.body 40 1568)
def Env.secret (e : Env) : Option Bytes :=
  if e.fz.kemId != some (sliceAt e.body 8 32) || e.d.digests.contains e.ctDigest then none
  else Config.kemDecaps (kemSeed e.fz.ownerEpoch) (sliceAt e.body 40 1568)

/-- Open copies that would send bytes of the paddock in the clear end, each with its COPY_DONE (R473). DESIGN CHOICE, log
entry 83: R473 does not say what becomes of them. -/
def Dev.endClear (d : Dev) (k : PadId) : Dev :=
  Dev.settleCopies { d with copies := d.copies.map fun c =>
    if c.open_ && c.kind == .copyOut && c.session.isNone && c.paddock == k then { c with ended := true } else c }

/-- A session opens, and the paddock is sealed from now on (R464, R465). -/
def sessionOpenEffect (e : Env) (ss : Bytes) : Dev × Rsp :=
  let (r, d) := e.d.draw
  let id := pickId (d.sessions.map (·.id)) r
  let key := sessionKey e.fz ss e.k id
  let s : Session := {
    id := id, mailbox := e.mailbox, pad := e.k, key := key, fp := Config.shake256 16 (key ++ ascii "FLEVER-FP-1") }
  ({ d with
      sessions := d.sessions ++ [s]
      digests := (e.ctDigest :: d.digests).take 4096
      seals := vmod d.seals e.k fun x => { x with sealed_ := true } }.endClear e.k, { body := leBytes 8 id })

def sessionOpenRun (e : Env) : Fuse × Dev × Rsp :=
  match e.secret with
  | none => (e.fz, e.d, { status := stAuth })
  | some ss => (e.fz, sessionOpenEffect e ss)

def sessionOpenCmd : Cmd where
  opcode := 0x0610
  owner := false
  admin := true
  client := true
  fabric := false
  states := [.provisioned]
  lo := 1608
  hi := 1608
  pad e := e.padNo
  checks e := [e.padRange, e.zero 1 7] ++ e.padChecks ++
    [need (e.p.state == .empty || (e.d.sealed e.k && (e.p.state == .ready || e.p.state == .stopped))) stWrong,
     need ((e.d.padSessions e.k).length < 4) stNoRes, need (!e.d.trustBad && e.d.entropyOk) stDevice]
  run e := sessionOpenRun e

/-- SESSION_OPEN (R464, R465). -/
def execSessionOpen (p : Port) (hwErr : Bool) (s : State) : Host.Outcome State Fault Refusal := sessionOpenCmd.exec p hwErr s

/-- The session that the body names. -/
def Env.named (e : Env) : Option Session := e.d.sessions.find? fun s => s.id == e.f 0 2

/-- A session ends; no session owns its windows any more. The paddock stays sealed (R468). -/
def sessionCloseEffect (e : Env) : Dev :=
  let id := e.f 0 2
  { e.d with
    sessions := e.d.sessions.filter fun s => s.id != id
    seals := e.d.seals.map fun x => { x with owned := x.owned.filter fun o => o.2 != id } }

def sessionCloseCmd : Cmd where
  opcode := 0x0611
  owner := false
  admin := true
  client := true
  fabric := false
  states := [.provisioned]
  lo := 8
  hi := 8
  pad e := e.named.map (·.pad)
  checks e := [e.zero 2 6, need e.named.isSome stNoRes,
    need (!e.client || ((e.named.map fun s => s.mailbox == e.mailbox || e.ownsPad s.pad).getD false)) stPort]
  run e := (e.fz, sessionCloseEffect e, {})

/-- SESSION_CLOSE (R468). -/
def execSessionClose (p : Port) (hwErr : Bool) (s : State) : Host.Outcome State Fault Refusal := sessionCloseCmd.exec p hwErr s

/-! ### Test access port (R477) -/

/-- What the test access port gives: scan and memory access, or its identification code alone. -/
inductive TestPort where
  | access
  | idCode (code : Word)
  deriving DecidableEq, Repr

/-- The fuse that leaves MANUFACTURE disables the port (R477). No command reaches it: it is the part's, not the interface's. -/
def Fuse.testPort (fz : Fuse) : TestPort := if fz.lifecycle == .manufacture then .access else .idCode Config.testIdCode

end Sys2Proof.Machine
end

