-- ==== Sys2Proof/Machine/Maintenance.lean ====
section
/-!
DEFINITION. The beat table, maintenance, telemetry and the fabric's state: BEAT_TABLE_SET to FABRIC_STATUS (R433, R443,
R516, R537).
-/
namespace Sys2Proof.Machine

/-! ### The beat table (R443) -/

/-- Entries of the body. -/
def Env.beatEntries (e : Env) : List (Nat × Nat) :=
  (List.range (e.f 0 1)).map fun j => (e.f (8 + 8 * j) 1, e.f (12 + 8 * j) 4)

def beatEntryChecks (e : Env) (j : Nat) : List (Bool × Nat) :=
  [need (e.f (8 + 8 * j) 1 < 16 || e.f (8 + 8 * j) 1 == 0xFF) stMalformed, e.zero (9 + 8 * j) 3,
   need (250 ≤ e.f (12 + 8 * j) 4 && e.f (12 + 8 * j) 4 ≤ 16000) stMalformed]

def beatTableSetCmd : Cmd where
  opcode := 0x0700
  owner := false
  admin := true
  client := false
  fabric := false
  states := [.provisioned]
  lo := 8
  hi := 8 + 8 * 64
  size e := some (8 + 8 * e.f 0 1)
  checks e := [need (e.f 0 1 != 0) stMalformed, need (e.f 0 1 ≤ 64) stLength,
      e.zero 1 7] ++ (List.range (e.f 0 1)).flatMap (beatEntryChecks e) ++
    [need (e.beatEntries.all fun x => x.1 == 0xFF || ((finOf 16 x.1).bind e.d.pad).isSome) stNoRes]
  run e := (e.fz, e.d.setBeats (e.beatEntries.map fun x => (finOf 16 x.1, x.2)), {})

/-- BEAT_TABLE_SET (R443). -/
def execBeatTableSet (p : Port) (hwErr : Bool) (s : State) : Host.Outcome State Fault Refusal := beatTableSetCmd.exec p hwErr s

/-- The current table; COUNT 0 where none has been set. -/
def Dev.beatBody (d : Dev) : Bytes :=
  let es := (d.beats.map (·.entries)).getD []
  leBytes 8 es.length ++ es.flatMap fun x => leBytes 4 ((x.1.map (·.val)).getD 0xFF) ++ leBytes 4 x.2

def beatTableGetCmd : Cmd where
  opcode := 0x0701
  owner := false
  admin := true
  client := true
  fabric := false
  states := [.provisioned]
  lo := 0
  hi := 0
  run e := (e.fz, e.d, { body := e.d.beatBody })

/-- BEAT_TABLE_GET (R443). -/
def execBeatTableGet (p : Port) (hwErr : Bool) (s : State) : Host.Outcome State Fault Refusal := beatTableGetCmd.exec p hwErr s

/-! ### SCRUB and DRAM_TEST (R419, R433) -/

/-- LOFT_MASK names lofts, and at least one. -/
def Env.maskChecks (e : Env) : List (Bool × Nat) := [need (e.f 0 8 != 0 && e.f 0 8 < 2 ^ 48) stMalformed]

/-- A paddock holds a window in a loft of the mask. -/
def Env.maskHeld (e : Env) : Bool := e.d.allPads.any fun p => p.windows.any fun w => bitOf (e.f 0 8) w.loft.val

/-- A long operation on the device. -/
def longOp (e : Env) (t : OpType) (args : List Nat) : Dev × Rsp :=
  let (i, d) := e.d.newOp { mailbox := e.mailbox, typ := t, args := args }
  (d, d.opAccepted i [])

def scrubCmd : Cmd where
  opcode := 0x0800
  owner := true
  admin := true
  client := false
  fabric := false
  states := [.provisioned]
  lo := 8
  hi := 8
  checks e := e.maskChecks ++ [need (e.d.opRoom e.mailbox 1) stNoRes]
  run e := (e.fz, longOp e .scrub [e.f 0 8])

/-- SCRUB (R433). -/
def execScrub (p : Port) (hwErr : Bool) (s : State) : Host.Outcome State Fault Refusal := scrubCmd.exec p hwErr s

def dramTestCmd : Cmd where
  opcode := 0x0801
  owner := true
  admin := true
  client := false
  fabric := false
  states := [.unprovisioned, .provisioned]
  lo := 8
  hi := 8
  checks e := e.maskChecks ++ [need (!e.maskHeld) stWrong, need (e.d.opRoom e.mailbox 1) stNoRes]
  run e := (e.fz, longOp e .dramTest [e.f 0 8])

/-- DRAM_TEST (R433). -/
def execDramTest (p : Port) (hwErr : Bool) (s : State) : Host.Outcome State Fault Refusal := dramTestCmd.exec p hwErr s

/-! ### TELEMETRY_READ (R433, R516, R537) -/

/-- Registers at their offsets, zeros between them. -/
def placeRegs (rs : List Reg) (n : Nat) : Bytes := padTo n (rs.foldl (fun bs r => padTo r.off bs ++ leBytes r.bytes r.val) [])

/-- Sum of a count over a paddock's tiles. -/
def Dev.sumTiles (d : Dev) (p : Paddock) (f : Pmc → Nat) : Nat := sumNat (p.sites.map fun s => f (d.tile s).pmc)

/-- Tally of a slot class over all units of a tile. -/
def Pmc.slotSum (p : Pmc) (c : Nat) : Nat := sumNat ((p.slots.filter fun x => x.1 % 4 == c).map fun x => x.2.toNat)

/-- The performance block of a paddock (R516). -/
def Dev.perfBlock (d : Dev) (k : PadId) (p : Paddock) : Bytes :=
  let run0 := ((d.tileSite k 0).map fun s => ((d.tile s).pmc.fixed[1]).toNat).getD 0
  leBytes 1 k.val ++ leBytes 7 1 ++ leBytes 8 run0 ++ ((List.range 4).flatMap fun c => leBytes 8 (d.sumTiles p fun x => x.slotSum c))
    ++ (List.range 6).flatMap fun n => leBytes 8 (d.sumTiles p fun x => (vgetN x.fixed (n + 2) 0#64).toNat)

/-- The block as a port sees it: a paddock that does not exist is not VALID; a client sees its own. -/
def Env.perfSeen (e : Env) (k : PadId) : Bytes :=
  match e.d.pad k with
  | some p => if e.ownsPad k then e.d.perfBlock k p else leBytes 96 0
  | none => if e.client then leBytes 96 0 else leBytes 96 k.val

/-- Page 0: the yardmaster's registers, the summary, the paddocks. -/
def Env.page0 (e : Env) : Bytes :=
  placeRegs (e.d.ymRegs e.fz) 0x120 ++ padTo (0x400 - 0x120) (Config.telemetrySummary e.d.freeCtr) ++ (fins 16).flatMap e.perfSeen

/-- A page: registers in ascending offset, per link, loft or site. -/
def Env.page (e : Env) : Bytes :=
  match e.f 0 2 with
  | 0 => e.page0
  | 1 => regBytes e.d.allLinkRegs
  | 2 => (fins 48).flatMap fun l => regBytes (e.d.loftRegs l)
  | 3 => (fins 48).flatMap fun s =>
    regBytes (e.d.tileLow s ++ e.d.tileMid s ++ e.d.tileParams s ++ e.d.tileHigh s ++ e.d.tileData s ++ e.d.tilePmc s)
  | _ => Config.telemetrySensors e.d.freeCtr

/-- Pages that a port may read. -/
def pagePermitted (port : Port) (page : Nat) : Bool :=
  match port with
  | .owner => page ≤ 4
  | .mailbox n => if n.val == 0 then page ≤ 3 else page == 0
  | .fabric _ => page ≤ 1

def pageBody (e : Env) (page : Bytes) : Bytes := leBytes 8 page.length ++ sliceAt page (e.f 4 4) (e.dataMax 4072)

def telemetryReadCmd : Cmd where
  opcode := 0x0802
  owner := true
  admin := true
  client := true
  fabric := true
  states := [.manufacture, .unprovisioned, .provisioned, .retired]
  lo := 8
  hi := 8
  checks e := [need (e.f 0 2 ≤ 4) stMalformed, e.zero 2 2, need (e.f 4 4 % 8 == 0) stMalformed,
    need (pagePermitted e.port (e.f 0 2)) stPort,
    need (e.d.stage != .recovery || e.f 0 2 == 0 || e.f 0 2 == 4) stWrong,
    need (e.f 4 4 ≤ e.page.length) stMalformed]
  run e := (e.fz, e.d, { body := pageBody e e.page })

/-- TELEMETRY_READ (R433). -/
def execTelemetryRead (p : Port) (hwErr : Bool) (s : State) : Host.Outcome State Fault Refusal := telemetryReadCmd.exec p hwErr s

/-! ### ROUTE_REBUILD and FABRIC_STATUS -/

def routeRebuildCmd : Cmd where
  opcode := 0x0803
  owner := true
  admin := true
  client := false
  fabric := false
  states := [.provisioned]
  lo := 8
  hi := 8
  checks e := [need (e.f 0 1 < 2) stMalformed, e.zero 1 7, need e.d.isMaster stWrong, need (e.d.opRoom e.mailbox 1) stNoRes]
  run e := (e.fz, longOp e .routeRebuild [e.f 0 1])

/-- ROUTE_REBUILD (R376, R433). -/
def execRouteRebuild (p : Port) (hwErr : Bool) (s : State) : Host.Outcome State Fault Refusal := routeRebuildCmd.exec p hwErr s

def Dev.fabricBody (d : Dev) : Bytes :=
  leBytes 8 d.devCfg ++ leBytes 8 d.fab.master.toNat ++ (fins 16).flatMap fun n => leBytes 4 (d.link n).stateWord

def fabricStatusCmd : Cmd where
  opcode := 0x0804
  owner := true
  admin := true
  client := true
  fabric := true
  states := [.unprovisioned, .provisioned]
  lo := 0
  hi := 0
  run e := (e.fz, e.d, { body := e.d.fabricBody })

/-- FABRIC_STATUS (R392). -/
def execFabricStatus (p : Port) (hwErr : Bool) (s : State) : Host.Outcome State Fault Refusal := fabricStatusCmd.exec p hwErr s

end Sys2Proof.Machine
end

