-- ==== Sys2Proof/Machine/Boot.lean ====
section
/-!
DEFINITION. Reset, clocks, governors and bring-up (R480, R502, R522 to R526, R530 to R537): pins, PLL, slot choice, owner
settings, the bring-up tests, MAILBOX_READY, and power off.
-/
namespace Sys2Proof.Machine

/-! ### Reset and power (R531, R546) -/

/-- Kinds of the sites: remounts, then the repairs in the order in which they were made (R21, R493). -/
def bootKinds (fz : Fuse) (repairs : List Repair) : Vector SiteKind 48 :=
  repairs.foldl (fun v r => match r with
      | .tile s rem =>
        let v := vmod v s fun _ => SiteKind.retired
        match rem with
        | some q => vmod v q fun _ => .usedRemount
        | none => v
      | _ => v)
    (fusedKinds fz.remounts)

/-- The device after every block has stopped: repairs and repair tables stay, and the site map that the fuses give; REPLACE_N
is kept. The numbers of free values and of the last read are the model's own. -/
def Dev.cleared (d : Dev) (fz : Fuse) (stage : BootStage) : Dev :=
  { stage := stage, kinds := bootKinds fz d.repairs, repairs := d.repairs, rowSpares := d.rowSpares, replaceN := d.replaceN, freeCtr := d.freeCtr, readout := d.readout }

/-- PORST_ASSERT (R531): at any time. -/
def execPorstAssert (st : State) : Host.Outcome State Fault Refusal := onDev st fun fz d => d.cleared fz .inReset

/-- POWER_OFF (R504): REPLACE_N is released too. -/
def execPowerOff (st : State) : Host.Outcome State Fault Refusal :=
  onDev st fun fz d => { d.cleared fz .inReset with replaceN := false }

/-- PORST_RELEASE (R532): STRAP_ROLE is sampled and the PLL starts. -/
def execPorstRelease (strap : BitVec 2) (st : State) : Host.Outcome State Fault Refusal :=
  onEvent st (fun d => d.stage == .inReset) fun _ d => { d with stage := .pll, strap := strap }

/-- PLL_LOCK (R522, R523): the derived clocks start, the timestamp at zero. -/
def execPllLock (st : State) : Host.Outcome State Fault Refusal :=
  onEvent st (fun d => d.stage == .pll || d.stage == .lost) fun _ d => { d with stage := .rom, clk := {} }

/-- PLL_LOSS_OF_LOCK (R523, R535): all work is lost. Strap, alerts and the owner port's address do not hang on the PLL. -/
def execPllLossOfLock (st : State) : Host.Outcome State Fault Refusal :=
  onEvent st Dev.running fun fz d => { d.cleared fz .lost with strap := d.strap, alerts := d.alerts, i3cAddr := d.i3cAddr }

/-- Every paddock's work is lost (R526). R526 does not say how that shows; DEDUCED, log entry 31: the paddocks
are STOPPED, with no image and no run. -/
def Paddock.lost (p : Paddock) : Paddock := { p with state := .stopped, image := none, run := none, due := [] }

/-- THERMAL_TRIP (R526): clocks to sites and lofts, fabric ports and the host port stop. The trip logic depends on no firmware and
no clock: it acts while the PLL has yet to lock, or has lost lock, too. -/
def execThermalTrip (_src : TripSource) (st : State) : Host.Outcome State Fault Refusal :=
  onEvent st (fun d => d.running || d.stage == .pll || d.stage == .lost) fun _ d => { d with stage := .tripped, pads := d.pads.map fun p => p.map Paddock.lost }

/-! ### Governors (R525) -/

/-- Hottest reading and its site; the lower site of equal ones. -/
def hottest (l : List (BitVec 16)) : BitVec 16 × Nat :=
  l.zipIdx.foldl (fun best x => if best.1.toInt < x.1.toInt then x else best) (l.headD 0#16, 0)

/-- A governor's required step, and since when its input was low, after a check that finds it high or low. -/
def governorStep (cap step : Nat) (cool : Option Nat) (high low : Bool) (now : Nat) : Nat × Option Nat :=
  if high then (min 3 (max step cap + 1), none)
  else if !low then (step, none)
  else match cool with
    | none => (step, some now)
    | some t =>
      if cap < step && t + msN 10 ≤ now then (step - 1, some now) else (step, some t)

/-- Limit of the core current in amperes. -/
def ampLimit (variantL : Bool) : Nat := if variantL then 800 else 1100

def governorEffect (r : GovReading) (fz : Fuse) (d : Dev) : Dev :=
  let h := hottest r.junction
  let y := d.ym
  let t := governorStep y.cap y.thermal y.thermalCool (decide (800 ≤ h.1.toInt)) (decide (h.1.toInt < 760)) d.now
  let lim := ampLimit fz.variantL
  let p := governorStep y.cap y.power y.powerCool (decide (lim < r.amps)) (decide (10 * r.amps < 9 * lim)) d.now
  let step := max y.cap (max t.1 p.1)
  let d := { d with tiles := Vector.ofFn fun s : Fin 48 => { d.tiles[s] with jctTemp := r.junction.getD s.val 0#16 } }
  let d := d.modYm fun y => { y with
    thermal := t.1, thermalCool := t.2, govAt := some d.now, power := p.1, powerCool := p.2, hotJct := h.1, hotSite := h.2, step := step,
    clkSteps := if y.step == step then y.clkSteps else y.clkSteps.inc d.now }
  if decide (840 < h.1.toInt) then d.alert alertJctHot else d

/-- The governors are checked every 1 ms (R525). -/
def governorDue (d : Dev) : Bool :=
  d.worvis && match d.ym.govAt with
    | some t => t + msN 1 ≤ d.now
    | none => true

/-- GOVERNOR_CHECK (R525). -/
def execGovernorCheck (r : GovReading) (st : State) : Host.Outcome State Fault Refusal :=
  onEvent st governorDue (governorEffect r)

/-! ### Owner settings from three banks (R534) -/

/-- The value of an ID from the banks that read cleanly, each with its last row where it has one: none where no value is
decided, else the value, none inside for an ID that no bank has written. -/
def decideSetting (vals : List (Option (BitVec 64))) : Option (Option (BitVec 64)) :=
  if vals.length < 2 then none
  else if vals.all Option.isNone then some none
  else vals.find? fun v => v.isSome && decide (2 ≤ (vals.filter (· == v)).length)

/-- Last row of an ID in a bank. -/
def lastRow (bank : List (Nat × BitVec 64)) (id : Nat) : Option (BitVec 64) := lookupNat id bank.reverse

/-- The clean banks' rows of an ID. -/
def cleanRows (fz : Fuse) (unclean : List (Fin 3 × Nat)) (id : Nat) : List (Option (BitVec 64)) :=
  ((fins 3).filter fun b => !unclean.contains (b, id)).map fun b => lastRow fz.banks[b] id

def listedIds : List Nat := (List.range 512).filter settingListed

/-- The settings in force, and whether they are the factory-safe set. -/
def bootSettings (fz : Fuse) (unclean : List (Fin 3 × Nat)) : List (Nat × BitVec 64) × Bool :=
  let all := listedIds.map fun id => (id, decideSetting (cleanRows fz unclean id))
  if all.any fun x => x.2.isNone then ([], true)
  else (all.filterMap fun x => x.2.join.map fun v => (x.1, v), false)

/-! ### What the boot ROM reads (R493, R496, R532) -/

/-- Cores of the yardmaster: three ACTIVE and one STANDBY, or all that are not retired ACTIVE. Their duties are the
firmware's to give: free values. -/
def Dev.bootCores (d : Dev) : Dev :=
  let gone (c : CoreId) : Bool := d.repairs.contains (.core c)
  let full : Bool := !(fins 4).any gone
  let state (c : CoreId) : CoreState := if gone c then .retired else if full && c == 3 then .standby else .active
  let d := d.modYm fun y => { y with cores := Vector.ofFn state }
  (fins 4).foldl (fun d c =>
    if state c == .active then
      let (r, d) := d.draw
      d.modYm fun y => { y with duties := vmod y.duties c fun _ => BitVec.ofNat 4 r }
    else d) d

/-- A slot's signature is valid (R478). -/
def slotSigned (data : Bytes) : Bool := data != [] && Config.fwSignatureValid data

/-- A slot is valid (R478, R533). -/
def slotValid (fz : Fuse) (data : Bytes) : Bool :=
  slotSigned data && fz.svnFloor ≤ Config.fwSecurityVersion data && Config.fwSecurityVersion data ≤ 255

/-- The slot that boots, false A and true B, and whether the slots diverge. -/
def chooseSlot (fz : Fuse) (a b : Bytes) : Option (Bool × Bool) :=
  let va := Config.fwSecurityVersion a
  let vb := Config.fwSecurityVersion b
  match slotValid fz a, slotValid fz b with
  | true, true =>
    if va < vb then some (true, false)
    else some (false, va == vb && Config.shake256 64 a != Config.shake256 64 b)
  | true, false => some (false, false)
  | false, true => some (true, false)
  | false, false => none

/-- The floor rises to the lower of two versions that exceed it (R478). -/
def risenFloor (fz : Fuse) (a b : Bytes) : Nat :=
  let va := Config.fwSecurityVersion a
  let vb := Config.fwSecurityVersion b
  if slotSigned a && slotSigned b && fz.svnFloor < va && fz.svnFloor < vb then min 255 (min va vb) else fz.svnFloor

/-- Firmware of a slot starts: versions and digest of the booted slot. -/
def Dev.bootSlot (d : Dev) (b : Bool) (data : Bytes) : Dev :=
  let svn := BitVec.ofNat 32 (Config.fwSecurityVersion data)
  d.modYm fun y => { y with
    slotB := b, fwVersion := BitVec.ofNat 32 (Config.fwVersion data), runSvn := svn, fwSvn := svn,
    fwDigest := Config.shake256 64 data }

/-- Worvis starts on the yardmaster cores: the blocks are brought up, enabled links begin training (R532). -/
def Dev.startWorvis (d : Dev) : Dev :=
  let d := (({ d with stage := .blocks }.modYm fun y => { y with started := true }).bootCores)
  let d := ((fins 16).foldl (fun d n => d.bringUpLink n) d).health
  if d.coresLeft == 0 then d.fail else d

/-- What the ROM reads and decides before it chooses a slot: settings, sites, the trust store, the entropy test (R460, R503,
R534). -/
def Dev.readFuses (d : Dev) (fz : Fuse) (unclean : List (Fin 3 × Nat)) (store : Bytes) (entropyOk : Bool) : Dev :=
  let s := bootSettings fz unclean
  let d := { d with settings := s.1, entropyOk := entropyOk }
  let d := if s.2 then (d.modYm fun y => { y with safeSettings := true }).alert alertSafe else d
  let bad := fz.lifecycle == .provisioned && Config.shake256 64 store != fz.trustDigest
  let d := if bad then ({ d with trustBad := true }.postDevice 0x8005 (Config.eventPayload 0x8005 [])).alert alertTrust else d
  if entropyOk then d else d.fail

/-- The choice of R533. -/
def slotChoiceEffect (a b : Bytes) (unclean : List (Fin 3 × Nat)) (store : Bytes) (entropyOk : Bool) (fz : Fuse) (d : Dev) :
    Fuse × Dev :=
  let d := d.readFuses fz unclean store entropyOk
  let d := d.modYm fun y => { y with validA := slotValid fz a, validB := slotValid fz b }
  let fz' := { fz with svnFloor := risenFloor fz a b }
  match chooseSlot fz a b with
  | none => (fz', { d with stage := .recovery }.alert alertBoot)
  | some (slot, diverge) =>
    let d := if diverge then (d.modYm fun y => { y with diverge := true }).alert alertDiverge else d
    (fz', (d.bootSlot slot (if slot then b else a)).startWorvis)

/-- Contents of a slot: what this device staged there, else what stood there before. -/
def slotBytes (fz : Fuse) (i : Nat) (given : Bytes) : Bytes := (vgetN fz.slots i none).getD given

/-- FIRMWARE_SLOT_CHOICE (R533). `storeRead` is the trust store as the boot flash gives it back; none where it is as this device
wrote it. -/
def execFirmwareSlotChoice (slotA slotB : SlotImage) (unclean : List (Fin 3 × Nat)) (storeRead : Option Bytes) (entropyOk : Bool)
    (st : State) : Host.Outcome State Fault Refusal :=
  onBoth st (fun d => d.stage == .rom) fun fz d =>
    slotChoiceEffect (slotBytes fz 0 slotA) (slotBytes fz 1 slotB) unclean (storeRead.getD fz.store.bytes) entropyOk fz d

/-! ### Bring-up of lofts and sites (R496, R532) -/

/-- Repairs of a loft: channels and rows that are spared before it is used. -/
def Dev.applySpares (d : Dev) (l : SiteId) : Dev :=
  let chans := d.repairs.filterMap fun r => match r with
    | .channel s c => if s == l then some c else none
    | _ => none
  let rows := d.rowSpares.filterMap fun r => if r.1 == l.val then some (r.2.1 * 65536 + r.2.2.1 * 4096 + r.2.2.2) else none
  d.modLoft l fun lo => { lo with
    sparedChans := chans.foldl (fun acc c => insertNat c acc) lo.sparedChans
    sparedRows := rows }

/-- Training ends: spares applied, the loft zeroed, channels that failed spared or lost. -/
def loftTrainingEffect (l : SiteId) (failed : List (Fin 64)) (_ : Fuse) (d : Dev) : Dev :=
  let d := (d.applySpares l).modLoft l fun lo => { lo with mem := [], badWords := [], trained := true }
  (failed.foldl (fun d c => d.spareChan l c) d).health

/-- The boot ROM has chosen a slot or found none: lofts and sites are brought up beside Worvis (R532, R533). -/
def blocksUp (d : Dev) : Bool := d.stage == .blocks || d.stage == .recovery

/-- LOFT_TRAINING_COMPLETE (R532). -/
def execLoftTrainingComplete (l : SiteId) (failedChannels : List (Fin 64)) (st : State) : Host.Outcome State Fault Refusal :=
  onEvent st (fun d => blocksUp d && !(d.loft l).trained) (loftTrainingEffect l failedChannels)

/-- SITE_SELF_TEST (R488, R532). -/
def execSiteSelfTest (s : SiteId) (pass : Bool) (st : State) : Host.Outcome State Fault Refusal :=
  onEvent st (fun d => blocksUp d && !d.tested.contains s && d.kinds[s] != .retired) fun _ d =>
    let d := { d with tested := s :: d.tested }.noteTest s
    if pass then d else d.retireTile s none

/-- Lofts are trained, sites tested, and nothing has failed. -/
def readyEnabled (d : Dev) : Bool :=
  d.stage == .blocks && !d.ym.failed && d.lofts.toList.all (·.trained) &&
    (fins 48).all fun s => d.tested.contains s || d.kinds[s] == .retired

/-- MAILBOX_READY is set and ACLK goes to its cap, subject to the governors (R524, R537). -/
def readyEffect (fz : Fuse) (d : Dev) : Dev :=
  let cap := if fz.variantL then 1 else 0
  let step := max cap (max d.ym.thermal d.ym.power)
  ({ d with stage := .ready }.modYm fun y => { y with
    cap := cap, step := step, readyTime := d.stamp, clkSteps := if y.step == step then y.clkSteps else y.clkSteps.inc d.now }).health

/-- MAILBOX_READY (R532). -/
def execMailboxReady (st : State) : Host.Outcome State Fault Refusal := onEvent st readyEnabled readyEffect

/-! ### Entropy (R480) -/

/-- A link in HANDSHAKE, or that rekeys, goes to DOWN. -/
def entropyFailedEffect (fz : Fuse) (d : Dev) : Dev :=
  let d := ({ d with entropyOk := false }.postDevice 0x8004 (Config.eventPayload 0x8004 [])).alert alertEntropy
  (fins 16).foldl (fun d n => if (d.link n).state == .handshake || (d.link n).rekeying then d.linkDown fz n else d) d

/-- ENTROPY_FAILED (R480). -/
def execEntropyFailed (st : State) : Host.Outcome State Fault Refusal :=
  onEvent st (fun d => d.running && d.entropyOk) entropyFailedEffect

/-- Seed requests that were held are served. -/
def Tile.seedUnits (t : Tile) : Tile :=
  { t with mxu := { t.mxu with seeded := true }, vxus := t.vxus.map fun v => { v with seeded := true } }

/-- ENTROPY_TESTS_PASS (R480). -/
def execEntropyTestsPass (st : State) : Host.Outcome State Fault Refusal :=
  onEvent st (fun d => d.running && !d.entropyOk) fun _ d => { d with entropyOk := true, tiles := d.tiles.map Tile.seedUnits }

end Sys2Proof.Machine
end

