-- ==== Sys2Proof/Machine/Owner.lean ====
section
/-!
DEFINITION. The owner's commands: firmware, settings, alerts, links, PROVISION and RETIRE (R434, R452, R459 to R461).
-/
namespace Sys2Proof.Machine

/-! ### FW_STAGE and FW_DATA (R434) -/

/-- Slot A or B of the body, and whether it is the booted one; in recovery mode none is. -/
def Env.bootedSlot (e : Env) : Bool := e.d.stage != .recovery && e.d.ym.slotB == (e.f 0 1 == 1)

/-- Staging begins: the slot's old contents are no longer a firmware. -/
def fwStageRun (e : Env) : Fuse × Dev × Rsp :=
  let (i, d) := e.d.newOp { mailbox := e.mailbox, typ := .fwStage, args := [e.f 0 1, e.f 8 8] }
  let d := { d with
    staging := some { slot := e.f 0 1, bytes := e.f 8 8, op := i }
    staged := if d.staged == some (e.f 0 1) then none else d.staged }
  ({ e.fz with slots := vsetN e.fz.slots (e.f 0 1) (some []) }, d, d.opAccepted i [])

def fwStageCmd : Cmd where
  opcode := 0x0900
  owner := true
  admin := false
  client := false
  fabric := false
  states := [.unprovisioned, .provisioned]
  lo := 16
  hi := 16
  checks e := [need (e.f 0 1 ≤ 1) stMalformed, e.zero 1 7, need (64 ≤ e.f 8 8) stMalformed, need (e.f 8 8 ≤ 16777216) stLength,
    need (!e.bootedSlot) stWrong, need (!e.d.ym.diverge) stWrong,
    need (!e.d.ops.toList.any fun o => o.live && o.typ == .fwStage) stWrong, need (e.d.opRoom e.mailbox 1) stNoRes]
  run e := fwStageRun e

/-- FW_STAGE (R434). -/
def execFwStage (p : Port) (hwErr : Bool) (s : State) : Host.Outcome State Fault Refusal := fwStageCmd.exec p hwErr s

/-- The staging record, where its operation is RUNNING. -/
def Env.stage (e : Env) : Option Staging := e.d.staging.filter fun g => (e.d.op g.op).live && (e.d.op g.op).state == .running

/-- Bytes staged so far, and announced. -/
def Env.stagedBytes (e : Env) : Nat := (e.stage.map fun g => g.data.length).getD 0
def Env.stageLimit (e : Env) : Nat := (e.stage.map fun g => g.bytes).getD 0

/-- Data bytes of the command. -/
def Env.fwBytes (e : Env) : Nat := e.bodyLen - 8

def fwDataEffect (e : Env) : Dev :=
  match e.stage with
  | none => e.d
  | some g =>
    let data := g.data ++ sliceAt e.body 8 e.fwBytes
    { e.d.modOp g.op fun o => { o with progress := data.length } with staging := some { g with data := data } }

def fwDataCmd : Cmd where
  opcode := 0x0901
  owner := true
  admin := false
  client := false
  fabric := false
  states := [.unprovisioned, .provisioned]
  lo := 8 + 16
  hi := 8 + 4064
  checks e := [e.zero 4 4, need (e.fwBytes % 16 == 0) stLength, need e.stage.isSome stWrong,
    need (e.f 0 4 == e.stagedBytes) stMalformed, need (e.f 0 4 + e.fwBytes ≤ e.stageLimit) stLength]
  run e := (e.fz, fwDataEffect e, {})

/-- FW_DATA (R434). -/
def execFwData (p : Port) (hwErr : Bool) (s : State) : Host.Outcome State Fault Refusal := fwDataCmd.exec p hwErr s

/-! ### FW_ACTIVATE and CLEAR_BOOT_DIVERGE (R434, R501, R533) -/

/-- New firmware takes the duties core by core: it starts on the standby, which takes those of the first active core; that core
takes those of the next, and the last is left as the standby. Without a standby each core keeps its own (R501). -/
def Yard.takeOver (y : Yard) : Yard :=
  let act := (fins 4).filter fun c => y.cores[c] == .active
  match (fins 4).find? (fun c => y.cores[c] == .standby), act.getLast? with
  | some s, some z =>
    let moved := ((s :: act).zip act).foldl (fun v x => vmod v x.1 fun _ => y.duties[x.2]) y.duties
    { y with duties := vmod moved z fun _ => 0#4, cores := vmod (vmod y.cores s fun _ => .active) z fun _ => .standby }
  | _, _ => y

/-- The core on which new firmware starts. -/
def Yard.firstCore (y : Yard) : Nat := ((fins 4).find? fun c => y.cores[c] == .standby).elim 0 (·.val)

/-- The handover to the firmware of a slot: at most 50 ms, in YCLK cycles. In recovery mode Worvis starts with it. -/
def activate (slot : Nat) (fz : Fuse) (d : Dev) : Dev :=
  let data := slotBytes fz slot []
  let core := d.ym.firstCore
  let (r, d) := d.draw
  let d :=
    if d.stage == .recovery then
      let d := (d.bootSlot (slot == 1) data).modYm fun y => { y with
        validA := y.validA || slot == 0, validB := y.validB || slot == 1 }
      d.startWorvis
    else d.modYm fun y => { y.takeOver with
      fwVersion := BitVec.ofNat 32 (Config.fwVersion data), runSvn := BitVec.ofNat 32 (Config.fwSecurityVersion data) }
  let d := d.modYm fun y => { y with handovers := satInc y.handovers, lastHandover := BitVec.ofNat 32 (r % 41250001) }
  d.postDevice 0xE00A (payloadE 0 0xFF 0xFF 5 0xFF core 0)

def fwActivateCmd : Cmd where
  opcode := 0x0902
  owner := true
  admin := false
  client := false
  fabric := false
  states := [.unprovisioned, .provisioned]
  lo := 0
  hi := 0
  checks e := [need e.d.staged.isSome stWrong]
  run e := (e.fz, activate (e.d.staged.getD 0) e.fz e.d, {})

/-- FW_ACTIVATE (R434). -/
def execFwActivate (p : Port) (hwErr : Bool) (s : State) : Host.Outcome State Fault Refusal := fwActivateCmd.exec p hwErr s

def clearBootDivergeCmd : Cmd where
  opcode := 0x0903
  owner := true
  admin := false
  client := false
  fabric := false
  states := [.unprovisioned, .provisioned]
  lo := 0
  hi := 0
  checks e := [need e.d.ym.diverge stWrong]
  run e := (e.fz, (e.d.modYm fun y => { y with diverge := false }).unalert alertDiverge, {})

/-- CLEAR_BOOT_DIVERGE (R434). -/
def execClearBootDiverge (p : Port) (hwErr : Bool) (s : State) : Host.Outcome State Fault Refusal :=
  clearBootDivergeCmd.exec p hwErr s

/-! ### Settings (R434, R461) -/

/-- The value that was written last, or the factory value. -/
def Fuse.written (fz : Fuse) (id : Nat) : Nat := ((lastRow fz.banks[0] id).map (·.toNat)).getD (factoryValue id)

/-- A value that the setting can take. -/
def settingOk (fz : Fuse) (id v : Nat) : Bool :=
  if id == 1 then v ≤ 4
  else if id == 2 then v == 2 || v == 4
  else if id == 3 then 1 ≤ v && v < fz.written 2
  else if id == 4 then v < 2
  else if id == 5 then v < 256
  else if id == 6 then true
  else if id == 7 then fld v 14 49 == 0
  else if id < 0x20 then v < 16 && fld v 1 2 != 3
  else if id < 0x28 then v < 2
  else if id < 0x108 then fld v 2 30 == 0 && fz.written id / 2 ^ 32 ≤ v / 2 ^ 32
  else if id == 0x110 then v < 2
  else v < 2 ^ 32

def settingWriteEffect (e : Env) : Fuse :=
  { e.fz with banks := e.fz.banks.map fun b => b ++ [(e.f 0 2, BitVec.ofNat 64 (e.f 8 8))] }

def settingWriteCmd : Cmd where
  opcode := 0x0910
  owner := true
  admin := false
  client := false
  fabric := false
  states := [.unprovisioned, .provisioned]
  lo := 16
  hi := 16
  checks e := [need (settingListed (e.f 0 2)) stMalformed, e.zero 2 6, need (settingOk e.fz (e.f 0 2) (e.f 8 8)) stMalformed,
    need (e.fz.banks.toList.all fun b => b.length < 1024) stNoRes]
  run e := (settingWriteEffect e, e.d, {})

/-- SETTING_WRITE (R434, R461). -/
def execSettingWrite (p : Port) (hwErr : Bool) (s : State) : Host.Outcome State Fault Refusal := settingWriteCmd.exec p hwErr s

def settingReadCmd : Cmd where
  opcode := 0x0911
  owner := true
  admin := true
  client := false
  fabric := false
  states := [.unprovisioned, .provisioned, .retired]
  lo := 8
  hi := 8
  checks e := [need (settingListed (e.f 0 2)) stMalformed, e.zero 2 6]
  run e := (e.fz, e.d, { body := leBytes 8 (e.d.inForce (e.f 0 2)) })

/-- SETTING_READ (R434). -/
def execSettingRead (p : Port) (hwErr : Bool) (s : State) : Host.Outcome State Fault Refusal := settingReadCmd.exec p hwErr s

/-! ### CLEAR_OWNER_ALERT and LINK_SET (R434) -/

/-- Alerts by the bits of the command. -/
def clearAlerts (d : Dev) (mask : Nat) : Dev :=
  [alertBoot, alertSafe, alertLink, alertFabric].foldl (fun d b => if bitOf mask b then d.unalert b else d) d

def clearOwnerAlertCmd : Cmd where
  opcode := 0x0912
  owner := true
  admin := false
  client := false
  fabric := false
  states := [.unprovisioned, .provisioned, .retired]
  lo := 8
  hi := 8
  checks e := [need (e.f 0 4 < 16) stMalformed, e.zero 4 4]
  run e := (e.fz, clearAlerts e.d (e.f 0 4), {})

/-- CLEAR_OWNER_ALERT (R434). -/
def execClearOwnerAlert (p : Port) (hwErr : Bool) (s : State) : Host.Outcome State Fault Refusal := clearOwnerAlertCmd.exec p hwErr s

def linkSetRun (e : Env) : Dev :=
  match finOf 16 (e.f 0 1) with
  | some n => e.d.linkSet e.fz n (e.f 1 1)
  | none => e.d

def linkSetCmd : Cmd where
  opcode := 0x0920
  owner := true
  admin := false
  client := false
  fabric := false
  states := [.provisioned]
  lo := 8
  hi := 8
  checks e := [need (e.f 0 1 < 16) stMalformed, need (e.f 1 1 < 16 && fld (e.f 1 1) 1 2 != 3) stMalformed, e.zero 2 6]
  run e := (e.fz, linkSetRun e, {})

/-- LINK_SET (R434). -/
def execLinkSet (p : Port) (hwErr : Bool) (s : State) : Host.Outcome State Fault Refusal := linkSetCmd.exec p hwErr s

/-! ### PROVISION (R459) -/

/-- A key entry: role, slot, KEY_LEN and key. -/
structure KeyEntry where
  role : Nat
  slot : Nat
  len : Nat
  key : Bytes
  deriving DecidableEq, Repr

def Env.keyEntry (e : Env) (i : Nat) : KeyEntry :=
  let o := 16 + 1808 * i
  { role := e.f o 1, slot := e.f (o + 1) 1, len := e.f (o + 2) 2, key := sliceAt e.body (o + 8) 1793 }

def Env.keyEntries (e : Env) : List KeyEntry := (List.range (e.f 9 1)).map e.keyEntry

def keyEntryChecks (e : Env) (i : Nat) : List (Bool × Nat) :=
  let o := 16 + 1808 * i
  let k := e.keyEntry i
  [need (k.role == 1 || k.role == 2) stMalformed, need (k.slot < 8 && (k.role == 2 || k.slot == 0)) stMalformed,
   need (k.len ≤ 1793) stLength, need (k.len == 1793) stMalformed, e.zero (o + 4) 4, e.zero (o + 8 + 1793) 7]

/-- The trust store with the keys added; none where one would be held twice. -/
def addKey (s : TrustStore) (k : KeyEntry) : Option TrustStore :=
  if k.role == 1 then (if s.owner.isSome then none else some { s with owner := some k.key })
  else if (vgetN s.signers k.slot none).isSome then none
  else some { s with signers := vsetN s.signers k.slot (some k.key) }

def Env.newStore (e : Env) : Option TrustStore := e.keyEntries.foldlM addKey e.fz.store

def provisionEffect (e : Env) (s : TrustStore) : Fuse :=
  let fz := { e.fz with store := s }
  if e.f 8 1 == 0 then fz
  else
    let owner := keyId (s.owner.getD [])
    let epoch := fz.ownerEpoch + 1
    { fz with
      store := { s with kemCert := kemCertOf fz epoch owner }
      ownerId := some owner, trustDigest := Config.shake256 64 s.bytes, ownerEpoch := epoch, lifecycle := .provisioned }

def provisionCmd : Cmd where
  opcode := 0x0930
  owner := true
  admin := false
  client := false
  fabric := false
  states := [.unprovisioned]
  lo := 16
  hi := 4080
  size e := some (16 + 1808 * e.f 9 1)
  checks e := [need (e.f 0 8 == e.fz.serial.toNat) stMalformed, need (e.f 8 1 < 2) stMalformed, need (e.f 9 1 ≤ 2) stLength,
      e.zero 10 6] ++ (List.range (e.f 9 1)).flatMap (keyEntryChecks e) ++
    [need e.newStore.isSome stMalformed,
     need (e.f 8 1 == 0 || ((e.newStore.map fun s => s.owner.isSome).getD false)) stMalformed]
  run e := (provisionEffect e (e.newStore.getD e.fz.store), e.d, {})

/-- PROVISION (R459). -/
def execProvision (p : Port) (hwErr : Bool) (s : State) : Host.Outcome State Fault Refusal := provisionCmd.exec p hwErr s

/-! ### RETIRE (R452) -/

/-- Every operation that is not final ends CANCELLED, every copy closes. -/
def Dev.endAll (d : Dev) : Dev :=
  let d := (fins 64).foldl (fun d i => d.endOp (some i) .cancelled 0) d
  { d with
    copies := d.copies.map fun c => { c with open_ := false }
    loads := []
    hitch := none
    staging := none
    rebuild := none }

/-- Every paddock is released, every loft zeroed, every link disabled. -/
def Dev.retireAll (d : Dev) (fz : Fuse) : Dev :=
  let d := (fins 16).foldl (fun d k => d.releasePad k) d.endAll
  let d := { d with lofts := d.lofts.map fun l => { l with mem := [], badWords := [], zeroing := [] } }
  (fins 16).foldl (fun d n => d.linkSet fz n ((d.link n).cfg.toNat % 16 / 2 * 2)) d

/-- The fuses after it. -/
def Fuse.retired (fz : Fuse) : Fuse :=
  { fz with ownerId := none, trustDigest := [], signersBlown := true, ownerEpoch := fz.ownerEpoch + 1, lifecycle := .retired }

def retireCmd : Cmd where
  opcode := 0x0931
  owner := true
  admin := false
  client := false
  fabric := false
  states := [.unprovisioned, .provisioned]
  lo := 8
  hi := 8
  checks e := [need (e.f 0 8 == e.fz.serial.toNat) stMalformed]
  run e := (e.fz.retired, e.d.retireAll e.fz, {})

/-- RETIRE (R452). -/
def execRetire (p : Port) (hwErr : Bool) (s : State) : Host.Outcome State Fault Refusal := retireCmd.exec p hwErr s

end Sys2Proof.Machine
end

