-- ==== Sys2Proof/Machine/Carriers.lean ====
section
/-!
DEFINITION. How commands reach the device beside the mailboxes: fabric packets (R371, R389, R422) and the owner port's I3C
target (R423, R544).
-/
namespace Sys2Proof.Machine

/-! ### PACKET_SWITCH: transit packets, and the management codes without a row of their own -/

/-- The link is trusted, or the packet is the device's own. -/
def Dev.trusts (d : Dev) (n : LinkId) (p : FabPkt) : Bool := d.fab.loop.contains p || d.trusted n

/-- COMMAND_RESPONSE to a packet (R422). -/
def commandResponse (p : FabPkt) (bs : Bytes) : FabPkt :=
  { reqPkt p.src.toNat 5 0 0x20 bs.length 0#16 p.tag p.seq true (leBytes 2 0xC) bs with cls := 2#2 }

/-- A COMMAND takes one of the four slots, or is answered NO_RESOURCE (R422). -/
def Dev.takeCommand (d : Dev) (p : FabPkt) : Dev :=
  let cmd := p.payload.take p.size.toNat
  match (fins 4).find? fun k => (d.fabMbs[k]).state == .empty with
  | some k =>
    let b := Mailbox.submit {} (padTo 4096 cmd)
    { d with fabMbs := vmod d.fabMbs k fun _ => { b with src := some p } }
  | none =>
    let op := BitVec.ofNat 16 (fieldAt cmd 0 2)
    let seq := BitVec.ofNat 16 (fieldAt cmd 2 2)
    d.inject (some prYard) (commandResponse p (rspHeader op seq stNoRes 16 0))

/-- The packet is a COMMAND as R422 gives it. -/
def commandFormed (p : FabPkt) : Bool :=
  pktWellFormed p && p.brand == 0#16 && mgTree p == 0 && 16 ≤ p.size.toNat && fieldAt p.payload 8 2 == p.size.toNat

/-- A management packet of this device whose code has no row of its own. -/
def mgmtHere (n : LinkId) (p : FabPkt) (d : Dev) : Dev :=
  let c := mgCode p
  if c == 0 || 0xC < c then d.dropMalformed p
  else if !d.trusts n p then d.mgmtRefuse [p.src.toNat, c]
  else if c == 0xB then (if commandFormed p then d.takeCommand p else d.dropMalformed p)
  else if pktWellFormed p && mgTree p == 0 then d
  else d.dropMalformed p

/-- Another row performs the message: its code has one, and its fields are well formed. -/
def codeElsewhere (p : FabPkt) : Bool := 1 ≤ mgCode p && mgCode p ≤ 0xA && pktWellFormed p

/-- A management message that ends here: by another row, or as R389 has it. A code with a row whose fields are not well formed is
dropped as malformed; DISCOVER alone needs no trusted link (R359, R370, R389). -/
def mgmtArrives (n : LinkId) (p : FabPkt) (d : Dev) : Dev :=
  if codeElsewhere p then d
  else if mgCode p == 1 then (d.takePkt n p).dropMalformed p
  else mgmtHere n p (d.takePkt n p)

/-- A TYPE of the table of R368 that a row of its own performs. -/
def typeElsewhere (p : FabPkt) : Bool :=
  let t := p.typ.toNat
  (1 ≤ t && t ≤ 5) || (0x11 ≤ t && t ≤ 0x13)

/-- A packet at the switch: a management message of the tree or for this device, one on a link that may not carry it, one for
another device, and one for this device whose TYPE no table gives, which is malformed (R359, R363, R368, R370, R371). -/
def packetSwitchEffect (n : LinkId) (p : FabPkt) (_ : Fuse) (d : Dev) : Dev :=
  let mgmt : Bool := p.cls == 2#2
  if mgmt && mgTree p != 0 then mgmtArrives n p d
  else if mgmt && !d.isMine p && !d.trusts n p then (d.takePkt n p).mgmtRefuse [p.src.toNat, mgCode p]
  else if !d.isMine p then switchEffect n p d
  else if mgmt then mgmtArrives n p d
  else if typeElsewhere p then d
  else (d.takePkt n p).dropMalformed p

/-- PACKET_SWITCH (R371). -/
def execPacketSwitch (n : LinkId) (p : FabPkt) (st : State) : Host.Outcome State Fault Refusal :=
  onEvent st (fun d => d.hasPkt n p) (packetSwitchEffect n p)

/-! ### The owner port (R423, R544) -/

/-- The I3C target answers: PORST_N is not asserted. -/
def i3cUp (d : Dev) : Bool := d.stage != .inReset

/-- It has a dynamic address. -/
def i3cAddressed (d : Dev) : Bool := i3cUp d && d.i3cAddr.isSome

/-- ENTDAA (R544). -/
def execEntdaa (addr : BitVec 7) (st : State) : Host.Outcome State Fault Refusal :=
  onEvent st (fun d => i3cUp d && d.i3cAddr.isNone) fun _ d => { d with i3cAddr := some addr }

/-- SETDASA (R544): the static address is 0x3A. -/
def execSetdasa (static addr : BitVec 7) (st : State) : Host.Outcome State Fault Refusal :=
  onEvent st (fun d => i3cUp d && d.i3cAddr.isNone && static == 0x3A#7) fun _ d => { d with i3cAddr := some addr }

/-- RSTDAA (R544). -/
def execRstdaa (st : State) : Host.Outcome State Fault Refusal := onEvent st i3cUp fun _ d => { d with i3cAddr := none }

/-- GETPID (R544). -/
def execGetpid (st : State) : Host.Outcome State Fault Refusal := onEvent st i3cAddressed fun _ d => d.show Config.i3cPid.toNat

/-- GETBCR (R544). -/
def execGetbcr (st : State) : Host.Outcome State Fault Refusal := onEvent st i3cAddressed fun _ d => d.show Config.i3cBcr.toNat

/-- GETDCR (R544). -/
def execGetdcr (st : State) : Host.Outcome State Fault Refusal := onEvent st i3cAddressed fun _ d => d.show Config.i3cDcr.toNat

/-- GETSTATUS (R544): a fresh free value at every read. -/
def execGetstatus (st : State) : Host.Outcome State Fault Refusal :=
  onEvent st i3cAddressed fun _ d => { d.show (Config.i3cStatus d.freeCtr).toNat with freeCtr := d.freeCtr + 1 }

/-- What the private reads of the owner port return: the content of R406 for its state, and zeros after (R423). -/
def Dev.ownerRead (d : Dev) : Bytes := padTo 4096 d.owner.response

/-- A private write: the release of a READY response, or a command. -/
def Dev.ownerWrite (d : Dev) (data : Bytes) : Dev :=
  let b := d.owner
  if data.length == 4 && data.take 2 == [0x01#8, 0xFF#8] then
    if b.state == .ready && fieldAt data 2 2 == b.seq.toNat then { d with owner := b.release } else d
  else if b.state == .empty then { d with owner := b.submit (padTo 4096 data) }
  else d

/-- OWNER_COMMAND_WRITE (R423). -/
def execOwnerCommandWrite (data : Bytes) (st : State) : Host.Outcome State Fault Refusal :=
  onEvent st i3cAddressed fun _ d => d.ownerWrite data

/-- OWNER_RESPONSE_RELEASE (R423). -/
def execOwnerResponseRelease (data : Bytes) (st : State) : Host.Outcome State Fault Refusal :=
  onEvent st i3cAddressed fun _ d => d.ownerWrite data

end Sys2Proof.Machine
end

