-- ==== Sys2Proof/Machine/Yardmaster.lean ====
section
/-!
DEFINITION. Failure of yardmaster cores, handover and self-test (R499 to R503).
-/
namespace Sys2Proof.Machine

/-- A core works. -/
def CoreState.works (c : CoreState) : Bool := c == .active || c == .standby

/-- A core fails: it is reset, and the duties of an active one wait for a handover. -/
def coreFailed (c : CoreId) (_ : Fuse) (d : Dev) : Dev :=
  let wasActive : Bool := d.ym.cores[c] == .active
  let d := d.modYm fun y => { y with
    cores := vmod y.cores c fun _ => .resetting
    handover := if wasActive then y.handover ++ [(c, d.now)] else y.handover }
  d.health

/-- WATCHDOG_EXPIRY (R499), and the uncorrectable SRAM word in a core's own state: either fails the core. -/
def execWatchdogExpiry (c : CoreId) (_cause : CoreCause) (st : State) : Host.Outcome State Fault Refusal :=
  onEvent st (fun d => d.worvis && (d.ym.cores[c]).works) (coreFailed c)

/-- The next check of an active core's journal is due: another active core makes it, every 1 ms (R499). -/
def journalDue (c : CoreId) (d : Dev) : Bool :=
  d.worvis && d.ym.cores[c] == .active && (fins 4).any (fun a => a != c && d.ym.cores[a] == .active) &&
    d.ym.checkedAt[c] + msN 1 ≤ d.now

/-- An invariant that does not hold fails the core. -/
def journalEffect (c : CoreId) (ok : Bool) (fz : Fuse) (d : Dev) : Dev :=
  let d := d.modYm fun y => { y with checkedAt := vmod y.checkedAt c fun _ => d.now }
  if ok then d else coreFailed c fz d

/-- JOURNAL_CHECK (R499): of an active core's journal. -/
def execJournalCheck (c : CoreId) (ok : Bool) (st : State) : Host.Outcome State Fault Refusal :=
  onEvent st (journalDue c) (journalEffect c ok)

/-- The core that takes the duties: the standby, else an active one that the device chooses (R500, R501). DESIGN CHOICE, log entry
85: which of them is a free choice. -/
def Dev.taker (d : Dev) : Option CoreId × Dev :=
  match (fins 4).find? fun c => d.ym.cores[c] == .standby with
  | some c => (some c, d)
  | none =>
    let (r, d) := d.draw
    (pickFrom ((fins 4).filter fun c => d.ym.cores[c] == .active) r, d)

/-- The duties move, the handover is counted, its duration kept in YCLK cycles and CORE_HANDOVER posted (R500, R501). -/
def handoverEffect (_ : Fuse) (d : Dev) : Dev :=
  match d.ym.handover with
  | [] => d
  | (c, t) :: rest =>
    match d.taker with
    | (none, d) => d
    | (some w, d) =>
      let moved := d.ym.duties[c] ||| d.ym.duties[w]
      let d := d.modYm fun y => { y with
        cores := vmod y.cores w fun _ => .active
        duties := if w == c then y.duties else (y.duties.set w moved).set c 0#4
        handovers := satInc y.handovers
        lastHandover := BitVec.ofNat 32 ((d.now - t) / 2)
        handover := rest }
      (d.postDevice 0xE00A (payloadE 0 0xFF 0xFF 5 0xFF c.val 0)).health

/-- CORE_HANDOVER (R500). -/
def execCoreHandover (st : State) : Host.Outcome State Fault Refusal :=
  onEvent st (fun d => d.worvis && !d.ym.handover.isEmpty && d.coreUp) handoverEffect

/-- A core that passes becomes the standby; one that fails is retired (R500). Four retired cores are a failure (R503). -/
def selfTestEffect (c : CoreId) (pass : Bool) (_ : Fuse) (d : Dev) : Dev :=
  if pass then (d.modYm fun y => { y with cores := vmod y.cores c fun _ => .standby }).health
  else
    let d := (d.modYm fun y => { y with cores := vmod y.cores c fun _ => .retired }).recordRepair (.core c)
    let d := (d.postDevice 0xE00B (payloadE 0 0xFF 0xFF 5 0xFF c.val 0)).health
    if d.coresLeft == 0 then d.fail else d

/-- CORE_SELF_TEST (R500). -/
def execCoreSelfTest (c : CoreId) (pass : Bool) (st : State) : Host.Outcome State Fault Refusal :=
  onEvent st (fun d => d.worvis && d.ym.cores[c] == .resetting) (selfTestEffect c pass)

end Sys2Proof.Machine
end

