-- ==== Sys2Proof/Machine/Dispatch.lean ====
section
/-!
DEFINITION. The meaning of each command: one arm per constructor, one direct call each.
-/
namespace Sys2Proof.Machine

/-- The effect of a command on everything but the queue. -/
def exec (i : Instr) (s : State) : Host.Outcome State Fault Refusal :=
  match i with
  | .getIdentity p hwErr => Sys2Proof.Machine.execGetIdentity p hwErr s
  | .setEventRing p hwErr => Sys2Proof.Machine.execSetEventRing p hwErr s
  | .getFaultRecord p hwErr => Sys2Proof.Machine.execGetFaultRecord p hwErr s
  | .paddockCreate p hwErr => Sys2Proof.Machine.execPaddockCreate p hwErr s
  | .paddockRelease p hwErr => Sys2Proof.Machine.execPaddockRelease p hwErr s
  | .paddockGrant p hwErr => Sys2Proof.Machine.execPaddockGrant p hwErr s
  | .paddockQuery p hwErr => Sys2Proof.Machine.execPaddockQuery p hwErr s
  | .barrierSpan p hwErr => Sys2Proof.Machine.execBarrierSpan p hwErr s
  | .imageLoad p hwErr => Sys2Proof.Machine.execImageLoad p hwErr s
  | .runStart p hwErr => Sys2Proof.Machine.execRunStart p hwErr s
  | .checkpoint p hwErr => Sys2Proof.Machine.execCheckpoint p hwErr s
  | .seqOpen p hwErr => Sys2Proof.Machine.execSeqOpen p hwErr s
  | .seqSet p hwErr => Sys2Proof.Machine.execSeqSet p hwErr s
  | .seqRead p hwErr => Sys2Proof.Machine.execSeqRead p hwErr s
  | .seqClose p hwErr => Sys2Proof.Machine.execSeqClose p hwErr s
  | .opQuery p hwErr => Sys2Proof.Machine.execOpQuery p hwErr s
  | .suspendOp p hwErr => Sys2Proof.Machine.execSuspendOp p hwErr s
  | .resumeOp p hwErr => Sys2Proof.Machine.execResumeOp p hwErr s
  | .cancelOp p hwErr => Sys2Proof.Machine.execCancelOp p hwErr s
  | .copyOpen p hwErr => Sys2Proof.Machine.execCopyOpen p hwErr s
  | .copyClose p hwErr => Sys2Proof.Machine.execCopyClose p hwErr s
  | .accountQuery p hwErr => Sys2Proof.Machine.execAccountQuery p hwErr s
  | .getAttestation p hwErr => Sys2Proof.Machine.execGetAttestation p hwErr s
  | .getCertChain p hwErr => Sys2Proof.Machine.execGetCertChain p hwErr s
  | .sessionOpen p hwErr => Sys2Proof.Machine.execSessionOpen p hwErr s
  | .sessionClose p hwErr => Sys2Proof.Machine.execSessionClose p hwErr s
  | .beatTableSet p hwErr => Sys2Proof.Machine.execBeatTableSet p hwErr s
  | .beatTableGet p hwErr => Sys2Proof.Machine.execBeatTableGet p hwErr s
  | .scrub p hwErr => Sys2Proof.Machine.execScrub p hwErr s
  | .dramTest p hwErr => Sys2Proof.Machine.execDramTest p hwErr s
  | .telemetryRead p hwErr => Sys2Proof.Machine.execTelemetryRead p hwErr s
  | .routeRebuild p hwErr => Sys2Proof.Machine.execRouteRebuild p hwErr s
  | .fabricStatus p hwErr => Sys2Proof.Machine.execFabricStatus p hwErr s
  | .fwStage p hwErr => Sys2Proof.Machine.execFwStage p hwErr s
  | .fwData p hwErr => Sys2Proof.Machine.execFwData p hwErr s
  | .fwActivate p hwErr => Sys2Proof.Machine.execFwActivate p hwErr s
  | .clearBootDiverge p hwErr => Sys2Proof.Machine.execClearBootDiverge p hwErr s
  | .settingWrite p hwErr => Sys2Proof.Machine.execSettingWrite p hwErr s
  | .settingRead p hwErr => Sys2Proof.Machine.execSettingRead p hwErr s
  | .clearOwnerAlert p hwErr => Sys2Proof.Machine.execClearOwnerAlert p hwErr s
  | .linkSet p hwErr => Sys2Proof.Machine.execLinkSet p hwErr s
  | .provision p hwErr => Sys2Proof.Machine.execProvision p hwErr s
  | .retire p hwErr => Sys2Proof.Machine.execRetire p hwErr s
  | .entdaa addr => Sys2Proof.Machine.execEntdaa addr s
  | .setdasa static addr => Sys2Proof.Machine.execSetdasa static addr s
  | .rstdaa => Sys2Proof.Machine.execRstdaa s
  | .getpid => Sys2Proof.Machine.execGetpid s
  | .getbcr => Sys2Proof.Machine.execGetbcr s
  | .getdcr => Sys2Proof.Machine.execGetdcr s
  | .getstatus => Sys2Proof.Machine.execGetstatus s
  | .ownerCommandWrite data => Sys2Proof.Machine.execOwnerCommandWrite data s
  | .ownerResponseRelease data => Sys2Proof.Machine.execOwnerResponseRelease data s
  | .stepNop st c => Sys2Proof.Machine.execStepNop st c s
  | .stepIssue st c => Sys2Proof.Machine.execStepIssue st c s
  | .stepPlan st c => Sys2Proof.Machine.execStepPlan st c s
  | .stepPatch st c => Sys2Proof.Machine.execStepPatch st c s
  | .stepWaitBell st c => Sys2Proof.Machine.execStepWaitBell st c s
  | .stepBellAdd st c => Sys2Proof.Machine.execStepBellAdd st c s
  | .stepSend st c => Sys2Proof.Machine.execStepSend st c s
  | .stepRecv st c => Sys2Proof.Machine.execStepRecv st c s
  | .stepBarrier st c => Sys2Proof.Machine.execStepBarrier st c s
  | .stepClaim st c => Sys2Proof.Machine.execStepClaim st c s
  | .stepCommit st c => Sys2Proof.Machine.execStepCommit st c s
  | .stepSet st c => Sys2Proof.Machine.execStepSet st c s
  | .stepAdd st c => Sys2Proof.Machine.execStepAdd st c s
  | .stepJumpLt st c => Sys2Proof.Machine.execStepJumpLt st c s
  | .stepJump st c => Sys2Proof.Machine.execStepJump st c s
  | .stepPartial st c => Sys2Proof.Machine.execStepPartial st c s
  | .stepSeqAdvance st c => Sys2Proof.Machine.execStepSeqAdvance st c s
  | .stepEnd st c => Sys2Proof.Machine.execStepEnd st c s
  | .contextWake st c => Sys2Proof.Machine.execContextWake st c s
  | .configPortServe st => Sys2Proof.Machine.execConfigPortServe st s
  | .mxuDoneRead st => Sys2Proof.Machine.execMxuDoneRead st s
  | .msuDoneRead st m => Sys2Proof.Machine.execMsuDoneRead st m s
  | .msuMvDoneRead st m => Sys2Proof.Machine.execMsuMvDoneRead st m s
  | .tileRmDoneRead st => Sys2Proof.Machine.execTileRmDoneRead st s
  | .tileQueuePop st n => Sys2Proof.Machine.execTileQueuePop st n s
  | .tileScrubKatCmd st by_ seed => Sys2Proof.Machine.execTileScrubKatCmd st by_ seed s
  | .registerWrite b off by_ value => Sys2Proof.Machine.execRegisterWrite b off by_ value s
  | .unitFire st u port => Sys2Proof.Machine.execUnitFire st u port s
  | .tokenEmit st p out parityBad => Sys2Proof.Machine.execTokenEmit st p out parityBad s
  | .passThroughForward st p side mv parityBad => Sys2Proof.Machine.execPassThroughForward st p side mv parityBad s
  | .linkQueueTransfer st p side => Sys2Proof.Machine.execLinkQueueTransfer st p side s
  | .gridDeadlock k => Sys2Proof.Machine.execGridDeadlock k s
  | .phaseEnd k => Sys2Proof.Machine.execPhaseEnd k s
  | .fullCommit st => Sys2Proof.Machine.execFullCommit st s
  | .reloadComplete k => Sys2Proof.Machine.execReloadComplete k s
  | .rowSlotStart st => Sys2Proof.Machine.execRowSlotStart st s
  | .weightSwap st => Sys2Proof.Machine.execWeightSwap st s
  | .mxuStepComplete st => Sys2Proof.Machine.execMxuStepComplete st s
  | .scratchpadGrant st sec ecc => Sys2Proof.Machine.execScratchpadGrant st sec ecc s
  | .readDelivery st m => Sys2Proof.Machine.execReadDelivery st m s
  | .panelZero st sec => Sys2Proof.Machine.execPanelZero st sec s
  | .msuPatternComplete st m write => Sys2Proof.Machine.execMsuPatternComplete st m write s
  | .moverRequestIssue st m => Sys2Proof.Machine.execMoverRequestIssue st m s
  | .loftRequestAccept l router => Sys2Proof.Machine.execLoftRequestAccept l router s
  | .mergeWindowClose l block => Sys2Proof.Machine.execMergeWindowClose l block s
  | .loftReadReturn l found => Sys2Proof.Machine.execLoftReadReturn l found s
  | .dramWriteBurst l => Sys2Proof.Machine.execDramWriteBurst l s
  | .moverTransferComplete st m => Sys2Proof.Machine.execMoverTransferComplete st m s
  | .updateComplete st m => Sys2Proof.Machine.execUpdateComplete st m s
  | .patrolScrub l off ecc => Sys2Proof.Machine.execPatrolScrub l off ecc s
  | .refreshRateChange l layers => Sys2Proof.Machine.execRefreshRateChange l layers s
  | .claimWordUpdate l ecc => Sys2Proof.Machine.execClaimWordUpdate l ecc s
  | .barrierArrival b => Sys2Proof.Machine.execBarrierArrival b s
  | .releaseArrival st => Sys2Proof.Machine.execReleaseArrival st s
  | .workCounterOp c => Sys2Proof.Machine.execWorkCounterOp c s
  | .bellAddArrival st => Sys2Proof.Machine.execBellAddArrival st s
  | .messageDelivery st => Sys2Proof.Machine.execMessageDelivery st s
  | .messageResponse st => Sys2Proof.Machine.execMessageResponse st s
  | .backoffResend st ch => Sys2Proof.Machine.execBackoffResend st ch s
  | .channelStuck st ch => Sys2Proof.Machine.execChannelStuck st ch s
  | .beatBoundary => Sys2Proof.Machine.execBeatBoundary s
  | .sampleRecordWrite st => Sys2Proof.Machine.execSampleRecordWrite st s
  | .winRead m h => Sys2Proof.Machine.execWinRead m h s
  | .winWrite m h data => Sys2Proof.Machine.execWinWrite m h data s
  | .copyWrite m h data => Sys2Proof.Machine.execCopyWrite m h data s
  | .credit m h => Sys2Proof.Machine.execCredit m h s
  | .copyOutTransfer copy m ecc => Sys2Proof.Machine.execCopyOutTransfer copy m ecc s
  | .mailboxDoorbell n => Sys2Proof.Machine.execMailboxDoorbell n s
  | .mailboxAck n seq => Sys2Proof.Machine.execMailboxAck n seq s
  | .eventConsume n value => Sys2Proof.Machine.execEventConsume n value s
  | .eventRingWrite n => Sys2Proof.Machine.execEventRingWrite n s
  | .eventVector n => Sys2Proof.Machine.execEventVector n s
  | .ucieTraining m x32 ok => Sys2Proof.Machine.execUcieTraining m x32 ok s
  | .opStart slot => Sys2Proof.Machine.execOpStart slot s
  | .opPointReached slot => Sys2Proof.Machine.execOpPointReached slot s
  | .opComplete slot code => Sys2Proof.Machine.execOpComplete slot code s
  | .loadHeaderCheck slot => Sys2Proof.Machine.execLoadHeaderCheck slot s
  | .sectionTableCheck slot => Sys2Proof.Machine.execSectionTableCheck slot s
  | .wrappedKeyCheck slot => Sys2Proof.Machine.execWrappedKeyCheck slot s
  | .signatureCheck slot => Sys2Proof.Machine.execSignatureCheck slot s
  | .bodyCheck slot sec => Sys2Proof.Machine.execBodyCheck slot sec s
  | .tileCheck slot tile => Sys2Proof.Machine.execTileCheck slot tile s
  | .imageCheck slot => Sys2Proof.Machine.execImageCheck slot s
  | .imageCommit slot hwErr => Sys2Proof.Machine.execImageCommit slot hwErr s
  | .imageDeliveryEnd slot => Sys2Proof.Machine.execImageDeliveryEnd slot s
  | .hitchLoadBegin slotLen jobId => Sys2Proof.Machine.execHitchLoadBegin slotLen jobId s
  | .hitchLoadData data => Sys2Proof.Machine.execHitchLoadData data s
  | .hitchLoadEnd => Sys2Proof.Machine.execHitchLoadEnd s
  | .hitchVerified pos jobId code => Sys2Proof.Machine.execHitchVerified pos jobId code s
  | .hitchVerifiedTimeout => Sys2Proof.Machine.execHitchVerifiedTimeout s
  | .hitchCommit hwErr => Sys2Proof.Machine.execHitchCommit hwErr s
  | .hitchCommitted pos => Sys2Proof.Machine.execHitchCommitted pos s
  | .hitchCommittedTimeout => Sys2Proof.Machine.execHitchCommittedTimeout s
  | .hitchAbort => Sys2Proof.Machine.execHitchAbort s
  | .hitchRevert => Sys2Proof.Machine.execHitchRevert s
  | .hitchRelease => Sys2Proof.Machine.execHitchRelease s
  | .scrubberAccess st a word ecc => Sys2Proof.Machine.execScrubberAccess st a word ecc s
  | .scrubberVote st copyA copyB copyC => Sys2Proof.Machine.execScrubberVote st copyA copyB copyC s
  | .scrubberCheck st => Sys2Proof.Machine.execScrubberCheck st s
  | .remountSelfTest st pass => Sys2Proof.Machine.execRemountSelfTest st pass s
  | .routerForward st k ecc => Sys2Proof.Machine.execRouterForward st k ecc s
  | .seamLinkRetired col link => Sys2Proof.Machine.execSeamLinkRetired col link s
  | .alignCodeword n lane fec hdr payload => Sys2Proof.Machine.execAlignCodeword n lane fec hdr payload s
  | .laneLockTimeout n lane => Sys2Proof.Machine.execLaneLockTimeout n lane s
  | .frameTransmit n => Sys2Proof.Machine.execFrameTransmit n s
  | .idleFrame n f => Sys2Proof.Machine.execIdleFrame n f s
  | .dataFrame n f => Sys2Proof.Machine.execDataFrame n f s
  | .nakFrame n f => Sys2Proof.Machine.execNakFrame n f s
  | .controlFrame n f => Sys2Proof.Machine.execControlFrame n f s
  | .replayTimeout n => Sys2Proof.Machine.execReplayTimeout n s
  | .hello n h => Sys2Proof.Machine.execHello n h s
  | .kemKey n key => Sys2Proof.Machine.execKemKey n key s
  | .kemCt n ct => Sys2Proof.Machine.execKemCt n ct s
  | .cert n chain => Sys2Proof.Machine.execCert n chain s
  | .sig n signature => Sys2Proof.Machine.execSig n signature s
  | .finished n confirm => Sys2Proof.Machine.execFinished n confirm s
  | .rekeyKey n key => Sys2Proof.Machine.execRekeyKey n key s
  | .rekeyCt n ct => Sys2Proof.Machine.execRekeyCt n ct s
  | .rekeyReq n => Sys2Proof.Machine.execRekeyReq n s
  | .rekeyTrigger n => Sys2Proof.Machine.execRekeyTrigger n s
  | .handshakeTimeout n => Sys2Proof.Machine.execHandshakeTimeout n s
  | .laneRetire n lane cause => Sys2Proof.Machine.execLaneRetire n lane cause s
  | .downRetry n => Sys2Proof.Machine.execDownRetry n s
  | .packetSwitch n p => Sys2Proof.Machine.execPacketSwitch n p s
  | .fabLoad n p ecc => Sys2Proof.Machine.execFabLoad n p ecc s
  | .fabStore n p => Sys2Proof.Machine.execFabStore n p s
  | .fabAtomic n p ecc => Sys2Proof.Machine.execFabAtomic n p ecc s
  | .fabTreduce n p ecc => Sys2Proof.Machine.execFabTreduce n p ecc s
  | .fabMessage n p => Sys2Proof.Machine.execFabMessage n p s
  | .fabLoadRsp n p => Sys2Proof.Machine.execFabLoadRsp n p s
  | .fabAck n p => Sys2Proof.Machine.execFabAck n p s
  | .fabAtomicRsp n p => Sys2Proof.Machine.execFabAtomicRsp n p s
  | .remoteDescriptorComplete st => Sys2Proof.Machine.execRemoteDescriptorComplete st s
  | .remoteTimeout st tag => Sys2Proof.Machine.execRemoteTimeout st tag s
  | .discover n d => Sys2Proof.Machine.execDiscover n d s
  | .candidate n serial priority => Sys2Proof.Machine.execCandidate n serial priority s
  | .masterElectionTimeout => Sys2Proof.Machine.execMasterElectionTimeout s
  | .topologyReport n hops t => Sys2Proof.Machine.execTopologyReport n hops t s
  | .assign n hops sender target number => Sys2Proof.Machine.execAssign n hops sender target number s
  | .routeWrite n sender p => Sys2Proof.Machine.execRouteWrite n sender p s
  | .routeAck n sender p => Sys2Proof.Machine.execRouteAck n sender p s
  | .epochFlip n sender p => Sys2Proof.Machine.execEpochFlip n sender p s
  | .fabBarrierArrive n p => Sys2Proof.Machine.execFabBarrierArrive n p s
  | .fabBarrierRelease n p => Sys2Proof.Machine.execFabBarrierRelease n p s
  | .governorCheck r => Sys2Proof.Machine.execGovernorCheck r s
  | .thermalTrip src => Sys2Proof.Machine.execThermalTrip src s
  | .pllLossOfLock => Sys2Proof.Machine.execPllLossOfLock s
  | .porstAssert => Sys2Proof.Machine.execPorstAssert s
  | .porstRelease strap => Sys2Proof.Machine.execPorstRelease strap s
  | .pllLock => Sys2Proof.Machine.execPllLock s
  | .firmwareSlotChoice slotA slotB unclean storeRead entropyOk => Sys2Proof.Machine.execFirmwareSlotChoice slotA slotB unclean storeRead entropyOk s
  | .loftTrainingComplete l failedChannels => Sys2Proof.Machine.execLoftTrainingComplete l failedChannels s
  | .siteSelfTest st pass => Sys2Proof.Machine.execSiteSelfTest st pass s
  | .mailboxReady => Sys2Proof.Machine.execMailboxReady s
  | .entropyFailed => Sys2Proof.Machine.execEntropyFailed s
  | .tilePowerChange st => Sys2Proof.Machine.execTilePowerChange st s
  | .tileWake st katPass => Sys2Proof.Machine.execTileWake st katPass s
  | .watchdogExpiry c cause => Sys2Proof.Machine.execWatchdogExpiry c cause s
  | .journalCheck c ok => Sys2Proof.Machine.execJournalCheck c ok s
  | .coreHandover => Sys2Proof.Machine.execCoreHandover s
  | .coreSelfTest c pass => Sys2Proof.Machine.execCoreSelfTest c pass s
  | .rowSpared l ch bank row => Sys2Proof.Machine.execRowSpared l ch bank row s
  | .channelSpared l ch path => Sys2Proof.Machine.execChannelSpared l ch path s
  | .windowZeroingComplete l base4k => Sys2Proof.Machine.execWindowZeroingComplete l base4k s
  | .registerRead b off by_ => Sys2Proof.Machine.execRegisterRead b off by_ s
  | .remoteRequestSend st => Sys2Proof.Machine.execRemoteRequestSend st s
  | .bellAddAcknowledgement st => Sys2Proof.Machine.execBellAddAcknowledgement st s
  | .ucieLaneRepair m repaired x32 => Sys2Proof.Machine.execUcieLaneRepair m repaired x32 s
  | .pmdTrainingComplete n => Sys2Proof.Machine.execPmdTrainingComplete n s
  | .entropyTestsPass => Sys2Proof.Machine.execEntropyTestsPass s
  | .powerOff => Sys2Proof.Machine.execPowerOff s

end Sys2Proof.Machine
end

