-- ==== Sys2Proof/Machine/Tick.lean ====
section
/-!
DEFINITION. What time alone does: one period of the root clock, which an empty queue spends (R522, R524). At the end of a cycle
counters, tallies and accounts advance (R72, R330, R446, R449, R508 to R516), what the cycle collected takes effect (R40, R41,
R248, R264), and credits are returned (R400).
-/
namespace Sys2Proof.Machine

/-! ### Counter events (R511, R512) -/

/-- Fields of a selector (R511). -/
def selEvent (x : Word) : Nat := bvFld x 0 8
def selUnit (x : Word) : Nat := bvFld x 8 5
def selAll (x : Word) : Bool := x.getLsbD 13
def selMode (x : Word) : Nat := bvFld x 14 2
def selThresh (x : Word) : Nat := bvFld x 16 6

/-- Events that the ACLK counts; the NCLK counts the others. -/
def aclkEvent (n : Nat) : Bool := 1 ≤ n && n ≤ 7

def b2n (b : Bool) : Nat := if b then 1 else 0

/-- The matrix unit starts a row slot or fires a port in cycle `a`. -/
def Mxu.firing (u : Mxu) (a : Nat) : Bool := u.slotAt == some a || u.portLast.toList.contains (some a)

/-- The unit fires in cycle `a` (R58, R103). -/
def Tile.unitFires (t : Tile) (u : UnitId) (a : Nat) : Bool :=
  if u.val = 0 then t.mxu.firing a
  else if u.val ≤ 16 then (t.grid[unitPos u]).lastFire == some a
  else match finOf 8 (u.val - 17) with
    | some m => (t.msus[m]).portLast.toList.contains (some a)
    | none => false

/-- Value of an event of one unit in ACLK cycle `a` (R512). -/
def Tile.unitEvent (t : Tile) (ev : Nat) (u : UnitId) (a : Nat) : Nat :=
  let q := t.grid[unitPos u]
  let four (f : Nat → Nat) : Nat := sumNat ((List.range 4).map f)
  match ev with
  | 0x01 => b2n (t.unitFires u a)
  | 0x02 => four fun n => (vgetN q.inQ n []).length
  | 0x03 => four fun n => q.outBuffered n a
  | 0x04 => four fun n => q.linkHeld n a
  | _ => 0

/-- A row slot is due and the next chunk's swap has not taken place (R107). -/
def Mxu.weightWait (u : Mxu) (a : Nat) : Bool :=
  u.runs u.seeded && decide (u.slotFree ≤ a) && u.chunkDone && decide (u.active < u.total)

/-- A row slot waits for a drain (R112). -/
def Mxu.drainWait (u : Mxu) (a : Nat) : Bool :=
  u.runs u.seeded && decide (u.slotFree ≤ a) && !u.chunkDone && u.drainWaits (u.active - 1) u.row

/-- Contexts in a state. -/
def Tile.ctxCount (t : Tile) (x : CtxState) : Nat := (t.ctxs.toList.filter fun c => c.state == x).length

/-- Contexts that are READY in NCLK cycle `now`: the one that has issued in it is RUNNING (R38, R43). -/
def Tile.readyCount (t : Tile) (now : Nat) : Nat :=
  ((fins 16).filter fun c => (t.ctxs[c]).state == .ready && !(t.lastIssue == some now && t.lastCtx == c.val)).length

/-- Units that FIRE sums with ALL_UNITS: a selector that names a vector unit sums the vector units (R514). -/
def eventUnits (ev unit : Nat) : List UnitId :=
  (fins 25).filter fun u => !(ev == 1 && 1 ≤ unit && unit ≤ 16) || (1 ≤ u.val && u.val ≤ 16)

/-- Value of an event at a site in the cycles that end (R512). -/
def Dev.eventValue (d : Dev) (s : SiteId) (x : Word) : Nat :=
  let t := d.tile s
  let a := d.anow
  let ev := selEvent x
  match ev with
  | 0x00 => 0
  | 0x05 => b2n (t.mxu.weightWait a)
  | 0x06 => b2n (t.mxu.drainWait a)
  | 0x07 => (t.spad.lastGrant.toList.filter fun g => g == some a).length
  | 0x08 => (d.loft s).tags.length / 32
  | 0x09 => (if selAll x then sumNat ((fins 8).map fun m => (t.msus[m]).mv.inFlight / 8)
             else match finOf 8 (selUnit x - 17) with
               | some m => (t.msus[m]).mv.inFlight / 8
               | none => 0)
  | 0x0A => t.readyCount d.now
  | 0x0B => t.ctxCount .waitBell
  | 0x0C => t.ctxCount .waitTransfer
  | 0x0D => t.ctxCount .waitQueue
  | 0x0E => t.pmc.naks
  | 0x0F => (t.rm.tags.toList.filter fun g => g.held.isSome).length / 4
  | 0x10 => t.bellNow.length
  | _ =>
    if selAll x then sumNat ((eventUnits ev (selUnit x)).map fun u => t.unitEvent ev u a)
    else match finOf 25 (selUnit x) with
      | some u => t.unitEvent ev u a
      | none => 0

/-- What a counter adds for value `v` after `prev` (R511). -/
def counterAdds (x : Word) (v prev : Nat) : Nat :=
  match selMode x with
  | 0 => v
  | 1 => b2n (decide (selThresh x ≤ v))
  | 2 => b2n (decide (selThresh x ≤ v) && decide (prev < selThresh x))
  | _ => 0

/-- Programmable counters of the events that meet `clock` advance. -/
def Dev.countProg (d : Dev) (s : SiteId) (clock : Nat → Bool) : Dev :=
  (fins 16).foldl (fun d n =>
    let x := (d.tile s).pmc.sel[n]
    if clock (selEvent x) then
      let v := d.eventValue s x
      d.modTile s fun t => { t with pmc := { t.pmc with
        prog := vmod t.pmc.prog n fun c => satAdd c (counterAdds x v t.pmc.prev[n])
        prev := vmod t.pmc.prev n fun _ => v } }
    else d) d

/-! ### Slot classes (R515) -/

/-- A generator, mover or update path of the unit has work that it could not do in this cycle. -/
def Msu.working (u : Msu) : Bool :=
  u.rd.running.isSome || u.wr.running.isSome || u.mv.running.isSome || !u.mv.jobs.isEmpty || u.upd.running.isSome || !u.upd.jobs.isEmpty

/-- The unit does its work in cycle `a`. -/
def Tile.unitBusy (t : Tile) (u : UnitId) (a : Nat) : Bool :=
  let q := t.grid[unitPos u]
  t.unitFires u a ||
    (if u.val = 0 then decide (a < t.mxu.slotFree) && t.mxu.swapAt != some a
     else if u.val ≤ 16 then (match q.lastFire with | some f => decide (a < f + vxII q.cfg.toNat) | none => false)
     else match finOf 8 (u.val - 17) with
       | some m => (t.msus[m]).grantAt == some a
       | none => false)

/-- Class of the cycle for a unit: 0 BUSY, 1 BLOCKED, 2 STARVED, 3 IDLE. -/
def Tile.slotClass (t : Tile) (u : UnitId) (a : Nat) : Nat :=
  let p := unitPos u
  let q := t.grid[p]
  let four := List.range 4
  if t.unitBusy u a then 0
  else if q.fireCount == 0 || q.finished || t.fenced p then 3
  else if four.any fun n => q.outRate n != 0 && !q.outRoom u n a then 1
  else if (four.any fun n => decide ((vgetN q.inQ n []).length < q.inRate n)) ||
      (match finOf 8 (u.val - 17) with | some m => decide (17 ≤ u.val) && (t.msus[m]).working | none => false) then 2
  else 3

/-- One more cycle of class `c` for unit `u`. -/
def tally (l : List (Nat × BitVec 64)) (u c : Nat) : List (Nat × BitVec 64) :=
  setKey (4 * u + c) (satInc ((lookupNat (4 * u + c) l).getD 0#64)) l

/-- Every unit's tally advances (R515, R516). -/
def Tile.countSlots (t : Tile) (a : Nat) : Tile :=
  { t with pmc := { t.pmc with slots := (fins 25).foldl (fun l u => tally l u.val (t.slotClass u a)) t.pmc.slots } }

/-! ### The idle counter (R72) -/

/-- A token stands somewhere in the position. -/
def Pos.holdsTokens (q : Pos) : Bool :=
  q.linkQ.toList.any (fun l => !l.isEmpty) || q.inQ.toList.any (fun l => !l.isEmpty) || q.outQ.toList.any (fun l => !l.isEmpty) ||
    q.passReg.toList.any Option.isSome

/-- An access of the unit is outstanding. -/
def Msu.outstanding (u : Msu) : Bool :=
  !u.flight.isEmpty || u.elFlight != 0 || u.upd.asked || (u.mv.jobs ++ u.upd.jobs).any fun j => j.outstanding != 0

/-- An MSU of the tile has a scratchpad, loft or remote access outstanding. -/
def Tile.outstanding (t : Tile) : Bool :=
  t.msus.toList.any Msu.outstanding || !t.rm.inBuf.isEmpty || t.rm.tags.toList.any fun g => g.held.isSome

/-- A paddock's counter in one ACLK cycle. A firing has returned it to zero already. -/
def Dev.idleCycle (d : Dev) (k : PadId) : Dev :=
  match d.pad k with
  | none => d
  | some p =>
    let stuck : Bool := d.padLive k && !p.fired &&
      (p.allSites.any fun s => (d.tile s).grid.toList.any Pos.holdsTokens) && !(p.sites.any fun s => (d.tile s).outstanding)
    d.modPad k fun p => { p with fired := false, idle := if stuck then min 65536 (p.idle + 1) else p.idle }

/-! ### Cycles -/

/-- The end of an ACLK cycle at a site. -/
def Dev.aclkSite (d : Dev) (s : SiteId) : Dev :=
  let d := if d.counted s then ((d.countFixed s 1 1).countProg s aclkEvent).modTile s fun t => t.countSlots d.anow else d
  d.modTile s fun t => { t with pmc := t.pmc.settle true }

/-- The end of an ACLK cycle. -/
def Dev.aclkCycle (d : Dev) : Dev :=
  let d := (fins 48).foldl (fun d s => (fins 8).foldl (fun d m => d.bellTurn s m) (d.aclkSite s)) d
  let d := (fins 16).foldl (fun d k => d.idleCycle k) d
  { d with clk := { d.clk with phase := 0, aclk := d.clk.aclk + 1 } }

/-- The site's paddock is held, and its run has started (R446). -/
def Dev.heldRun (d : Dev) (s : SiteId) : Bool :=
  match (d.padOf s).bind d.pad with
  | some p => p.held && d.runBegun p
  | none => false

/-- The counters of a site at the end of an NCLK cycle. -/
def Dev.nclkSite (d : Dev) (s : SiteId) : Dev :=
  let d := if d.counted s then (d.countFixed s 0 1).countProg s fun e => !aclkEvent e else d
  let held := d.heldRun s
  d.modTile s fun t => { t with
    pmc := { t.pmc.settle false with naks := 0 },
    ctl := { t.ctl with heldNclk := if held then satInc t.ctl.heldNclk else t.ctl.heldNclk } }

/-- The client owns the operation: it issued it, or owns its paddock (R425). -/
def Dev.opOwner (d : Dev) (o : Op) (m : Nat) : Bool :=
  o.mailbox == m || ((o.paddock.bind d.pad).map fun p => p.owner == m).getD false

/-- Operations and runs of a client that wait in this cycle, and tiles on which its runs run (R449). -/
def Dev.clientWaits (d : Dev) (m : Nat) : Nat :=
  (d.ops.toList.filter fun o => o.held && o.state == .queued && d.opOwner o m).length +
    (d.pads.toList.filterMap id |>.filter fun p => p.owner == m && p.held && d.runOn p).length

def Dev.clientTiles (d : Dev) (m : Nat) : Nat :=
  sumNat (d.pads.toList.filterMap id |>.map fun p =>
    if p.owner == m && d.runOn p && !p.held then p.sites.length else 0)

/-- Accounts of the client mailboxes in one NCLK cycle. -/
def Dev.accountCycle (d : Dev) : Dev :=
  { d with accounts := Vector.ofFn fun m : Fin 17 =>
      let a := d.accounts[m]
      if m.val = 0 then a
      else { a with wait := satAdd a.wait (d.clientWaits m.val), tileNclk := satAdd a.tileNclk (d.clientTiles m.val) } }

/-- The rest of an NCLK cycle's end at a site, once its paddock's faults are settled: waits, the start of a phase,
a known-answer scan, the router's outputs (R40, R226, R313, R324). -/
def Dev.closeSite (d : Dev) (s : SiteId) : Dev :=
  (d.modTile s fun t => t.noteWakes.turnBells.startDuePhase.scan).routerCycle s

/-- What an NCLK cycle has collected takes effect at its end: waits that hold, issue slots, counts, refused messages, bells, and then the stop
of a paddock whose faults the cycle has seen; every second one ends a YCLK cycle, whose retired tiles take their remounts (R40,
R41, R248, R264, R491, R522). -/
def Dev.closeCycle (d : Dev) : Dev :=
  let d := (fins 48).foldl (fun d s => (d.retest s).passSlot s) d
  let d := (fins 48).foldl Dev.nclkSite d.accountCycle
  let d := (fins 48).foldl (fun d s => (d.settleMsg s).settleBells s) d
  let d := (fins 16).foldl Dev.settle d
  let d := if d.clk.nclk % 2 == 1 then d.finishRetires else d
  ((fins 48).foldl Dev.closeSite d).purgeMesh.checkHitch

/-- The end of an NCLK cycle; an ACLK step that has been set takes effect (R524), and what is due in the next cycle arrives. -/
def Dev.nclkCycle (d : Dev) : Dev :=
  let d := (fins 2).foldl Dev.returnCredit d.closeCycle
  { d with clk := { d.clk with nclk := d.clk.nclk + 1, div := aclkDiv d.ym.step } }.landAll

/-- One period of the root clock while the derived clocks run. -/
def Dev.tick (d : Dev) : Dev :=
  if !d.running then d
  else
    let d := { d with clk := { d.clk with root := d.clk.root + 1, phase := d.clk.phase + 1 } }
    let d := if d.clk.div ≤ d.clk.phase then d.aclkCycle else d
    if d.clk.root % 8 == 0 then d.nclkCycle else d

end Sys2Proof.Machine
end

