-- ==== Sys2Proof/Safety.lean ====
section
/-!
DEFINITION. What counts as a safe step of the block, and the notions that claims speak in: a command that completes
with an effect on the device alone, and a device that differs from another in one part only.
-/
namespace Sys2Proof.Machine

/-- A step that goes on: it ends in a next state, neither in a fault nor in a refusal. -/
def SafeStep (s : State) : Prop := ∃ t, step s = .next t

/-- The state with another device: fuses, flash and the queue of waiting commands are as before. -/
def State.put (s : State) (d : Dev) : State := { s with dev := d }

/-- Command `i` completes from `s`: it answers a next state whose device meets `P`; fuses, flash and the queue of
waiting commands are as before. -/
def Completes (i : Instr) (s : State) (P : Dev → Prop) : Prop :=
  ∃ d, exec i s = .next (s.put d) ∧ P d

/-- `e` differs from `d` in nothing but what the tile of site `s` holds. -/
def OnlyTile (s : SiteId) (d e : Dev) : Prop := e = d.modTile s fun _ => e.tile s

/-- `e` differs from `d` in nothing but what loft `l` holds. -/
def OnlyLoft (l : SiteId) (d e : Dev) : Prop := e = d.modLoft l fun _ => e.loft l

/-- Two links differ at most in the flits of their receive buffers that count as freed (R346). -/
def Link.SameButFreed (a b : Link) : Prop := b = { a with flitsFreed := b.flitsFreed }

/-! ### Commands that Worvis answers (R424, R427) -/

/-- The row of R427 that a command asks Worvis to perform, with its carrier and the hardware error it meets. -/
def worvisRow (i : Instr) : Option (Cmd × Port × Bool) :=
  match i with
  | .getIdentity p e => some (getIdentityCmd, p, e)
  | .setEventRing p e => some (setEventRingCmd, p, e)
  | .getFaultRecord p e => some (getFaultRecordCmd, p, e)
  | .paddockCreate p e => some (paddockCreateCmd, p, e)
  | .paddockRelease p e => some (paddockReleaseCmd, p, e)
  | .paddockGrant p e => some (paddockGrantCmd, p, e)
  | .paddockQuery p e => some (paddockQueryCmd, p, e)
  | .barrierSpan p e => some (barrierSpanCmd, p, e)
  | .imageLoad p e => some (imageLoadCmd, p, e)
  | .runStart p e => some (runStartCmd, p, e)
  | .checkpoint p e => some (checkpointCmd, p, e)
  | .seqOpen p e => some (seqOpenCmd, p, e)
  | .seqSet p e => some (seqSetCmd, p, e)
  | .seqRead p e => some (seqReadCmd, p, e)
  | .seqClose p e => some (seqCloseCmd, p, e)
  | .opQuery p e => some (opQueryCmd, p, e)
  | .suspendOp p e => some (suspendOpCmd, p, e)
  | .resumeOp p e => some (resumeOpCmd, p, e)
  | .cancelOp p e => some (cancelOpCmd, p, e)
  | .copyOpen p e => some (copyOpenCmd, p, e)
  | .copyClose p e => some (copyCloseCmd, p, e)
  | .accountQuery p e => some (accountQueryCmd, p, e)
  | .getAttestation p e => some (getAttestationCmd, p, e)
  | .getCertChain p e => some (getCertChainCmd, p, e)
  | .sessionOpen p e => some (sessionOpenCmd, p, e)
  | .sessionClose p e => some (sessionCloseCmd, p, e)
  | .beatTableSet p e => some (beatTableSetCmd, p, e)
  | .beatTableGet p e => some (beatTableGetCmd, p, e)
  | .scrub p e => some (scrubCmd, p, e)
  | .dramTest p e => some (dramTestCmd, p, e)
  | .telemetryRead p e => some (telemetryReadCmd, p, e)
  | .routeRebuild p e => some (routeRebuildCmd, p, e)
  | .fabricStatus p e => some (fabricStatusCmd, p, e)
  | .fwStage p e => some (fwStageCmd, p, e)
  | .fwData p e => some (fwDataCmd, p, e)
  | .fwActivate p e => some (fwActivateCmd, p, e)
  | .clearBootDiverge p e => some (clearBootDivergeCmd, p, e)
  | .settingWrite p e => some (settingWriteCmd, p, e)
  | .settingRead p e => some (settingReadCmd, p, e)
  | .clearOwnerAlert p e => some (clearOwnerAlertCmd, p, e)
  | .linkSet p e => some (linkSetCmd, p, e)
  | .provision p e => some (provisionCmd, p, e)
  | .retire p e => some (retireCmd, p, e)
  | _ => none

/-- What the command that stands in a carrier is checked against. -/
def State.env (s : State) (port : Port) : Env :=
  { fz := s.fuse, d := s.dev, port := port, cmd := (s.dev.carrier port).cmd }

/-- The command waits in the carrier and passes every check of R424, also once the tiles that it needs are awake (R528). -/
def Cmd.Accepted (c : Cmd) (port : Port) (s : State) : Prop :=
  c.waits port s.dev = true ∧ (∀ x ∈ c.entry (s.env port) ++ c.checks (s.env port), x.1 = true) ∧
    ∀ x ∈ c.checks (c.woken (s.env port)), x.1 = true

/-- The state once a command has been answered: fuses and device after it, the session's count, the response. -/
def State.answered (s : State) (port : Port) (fz : Fuse) (d : Dev) (r : Rsp) : State :=
  { s with fuse := fz, dev := (d.countCmd (s.env port).sess r.status).respond port ((s.env port).reply r true) }

/-! ### Frames -/

/-- The next frame in order, with nothing behind it that waits: what the link holds once its codeword is counted and the frame has
left those that wait (R339). -/
def Link.turned (l : Link) (lane : Fin 8) : Link :=
  let slot := l.rxSlot.getD l.lanes[lane].cw
  { l with rxHeld := [], rxNo := l.rxNo + 1, rxSlot := some (if (l.rxNo + 1) % max 1 l.width = 0 then slot + 1 else slot) }

/-- A frame that comes next in the order of R339, on a lane in use, while nothing waits behind it. -/
def Link.InTurn (l : Link) (f : Frame) : Prop :=
  l.takes = true ∧ (l.logical f.lane).isSome = true ∧ (f.fec.isNone || cwSync f.hdr) = true ∧
    l.frameIndex f = some l.rxNo ∧ l.rxHeld = []

/-- CRC, codeword header and format are good (R340, R342). -/
def Link.Formed (l : Link) (ft : FrameType) (f : Frame) : Prop :=
  f.fec.isSome = true ∧ frameCrcOk f = true ∧ frameFormed ft f = true ∧ some (cwLane f.hdr) = l.logical f.lane

/-- The command of a received frame of a type. -/
def frameOf (ft : FrameType) (n : LinkId) (f : Frame) : Instr :=
  match ft with
  | .idle => .idleFrame n f
  | .data => .dataFrame n f
  | .nak => .nakFrame n f
  | .control => .controlFrame n f

/-! ### Fuses and flash -/

/-- What fuses hold in every state: the floor fits its register, the three banks hold the same rows, an owner is named
exactly in PROVISIONED, whose key then stands in the trust store, and RETIRED has blown the signer slots. -/
def Fuse.Inv (fz : Fuse) : Prop :=
  fz.svnFloor ≤ 255 ∧ fz.banks[0] = fz.banks[1] ∧ fz.banks[1] = fz.banks[2] ∧ fz.banks[0].length ≤ 1024 ∧
    (fz.ownerId.isSome = true ↔ fz.lifecycle = .provisioned) ∧
    (fz.lifecycle = .provisioned → fz.store.owner.isSome = true) ∧ (fz.lifecycle = .retired → fz.signersBlown = true)

/-- Fuses only move on: identity stays, the life cycle and the version floor never go back, blown signer slots stay
blown, setting rows are only added and keys in the trust store only join those that are there. -/
def Fuse.Onward (a b : Fuse) : Prop :=
  b.serial = a.serial ∧ b.variantL = a.variantL ∧ b.remounts = a.remounts ∧ a.lifecycle.code ≤ b.lifecycle.code ∧
    a.svnFloor ≤ b.svnFloor ∧ (a.signersBlown = true → b.signersBlown = true) ∧
    (∀ i : Fin 3, a.banks[i] <+: b.banks[i]) ∧
    (∀ k, a.store.owner = some k → b.store.owner = some k) ∧
    (∀ (i : Fin 8) k, a.store.signers[i] = some k → b.store.signers[i] = some k)

end Sys2Proof.Machine
end

