-- ==== Sys2Proof/Certificates/Slice0/Obligations.lean ====
section
/-!
DEFINITION. Statements for the provers.
-/
open Sys2Proof Sys2Proof.Machine

/-! ### The queue of commands -/

/-- With a command at the front of the queue, a step is the command's effect, the queue's rest still waiting. -/
def Obligations.StepRunsFrontCommand : Prop :=
  ∀ (c : Instr) (s : State), step { s with pending := c :: s.pending } = exec c s

/-- From every state a step answers a next state, whose queue has lost exactly its front command: no command ends a run,
adds a command, takes out another or reorders the queue. On an empty queue one period of the root clock passes: fuses
and queue stay (log entry 3, the model's choice). -/
def Obligations.EveryStepAnswersNext : Prop :=
  (∀ s : State, ∃ t, step s = .next t ∧ t.pending = s.pending.tail) ∧
  (∀ s : State, s.pending = [] → step s = .next (s.put s.dev.tick))

/-! ### Steps of a tile program (R38 to R40, R219 to R265) -/

/-- NOP, SET, ADD, JUMP_LT and JUMP (R219): the context that issues goes on at the next step or at the target; SET and
ADD write X[XDST], modulo 2⁶⁴ for ADD; JUMP_LT compares unsigned. Beside the issue slot (R39, R220, R510) nothing else of the
device changes. SEQ_ADVANCE (R240): the count is added to LENGTH of a slot bound to the step's paddock while the sum is
at most 16,777,216; otherwise LENGTH is unchanged and the step raises SEQ_POSITION_INVALID (0x300B). -/
def Obligations.RegisterStepsExact : Prop :=
  (∀ (st : SiteId) (c : CtxId) (s : State),
    let d := s.dev
    let w := (d.tile st).curStep c
    let x : Ctx := { (d.tile st).ctxs[c] with slots := 0 }
    let after (y : Ctx) : Dev := (d.issued st c).modCtx st c fun _ => y
    (stepEnabled st c 0x00 d = true →
      exec (.stepNop st c) s = .next (s.put (after { x with pc := x.pc + 1 }))) ∧
    (stepEnabled st c 0x0B d = true →
      exec (.stepSet st c) s = .next (s.put (after { x with pc := x.pc + 1, x := vsetN x.x (stXd w) (BitVec.ofNat 64 (d.sourceOf st c (stA64 w) (stA16 w))) }))) ∧
    (stepEnabled st c 0x0C d = true →
      exec (.stepAdd st c) s = .next (s.put (after { x with pc := x.pc + 1, x := vsetN x.x (stXd w) (x.reg (stXd w) + BitVec.ofNat 64 (stA64 w)) }))) ∧
    (stepEnabled st c 0x0D d = true →
      exec (.stepJumpLt st c) s = .next (s.put (after { x with pc := if (x.reg (fld w 32 3)).toNat < stA64 w then stA16 w else x.pc + 1 }))) ∧
    (stepEnabled st c 0x0E d = true →
      exec (.stepJump st c) s = .next (s.put (after { x with pc := stA16 w })))) ∧
  (∀ (st : SiteId) (c : CtxId) (s : State),
    stepEnabled st c 0x10 s.dev = true →
    let d := s.dev.issued st c
    let w := (s.dev.tile st).curStep c
    let n := (((s.dev.tile st).ctxs[c]).reg (fld w 32 3)).toNat
    let sl := vgetN s.dev.seqs (stA16 w) {}
    (∀ k, sl.bound = some k → s.dev.padOf st = some k → sl.length + n ≤ 16777216 →
      exec (.stepSeqAdvance st c) s = .next (s.put ({ d with seqs := vmodN d.seqs (stA16 w) fun q => { q with length := q.length + n } }.modCtx st c
          fun x => { x with pc := x.pc + 1 }))) ∧
    ((sl.bound = none ∨ sl.bound ≠ s.dev.padOf st ∨ 16777216 < sl.length + n) →
      exec (.stepSeqAdvance st c) s = .next (s.put (d.stepFault st c 0x300B 0 (stA16 w)))))

/-- WAIT_BELL (R248, R250): where the bell, with the increments of the cycle so far, holds the count it is taken in the same
cycle, from what the bell stood at first and then from those increments, and the context goes on; otherwise the context is
descheduled in WAIT_BELL, the bell as before, and stands at the same step. RECV (R162, R264): the first entry that no RECV is
taking is held for the write of its 64 bytes through the tile port, and the context waits for the last of its accesses; a queue
without one deschedules the context in WAIT_QUEUE and nothing is written. SEND (R162, R265): a channel with no free send entry,
resending or stuck deschedules the context at the same step; otherwise the message's words are read through the tile port, for
which the context waits. END (R219, R252): a context that owes no acknowledgement becomes IDLE and the tile is ENDING when every
context is IDLE; a context with a remote bell add or a message not yet acknowledged waits at END. -/
def Obligations.StepsThatWait : Prop :=
  (∀ (st : SiteId) (c : CtxId) (s : State),
    stepEnabled st c 0x04 s.dev = true →
    let d := s.dev.issued st c
    let w := (s.dev.tile st).curStep c
    let b := stA16 w
    let n := stA32 w
    let stood := (vgetN (s.dev.tile st).bells b 0#32).toNat
    let held := stood + bellSum (s.dev.tile st).bellNow b
    (n ≤ held →
      exec (.stepWaitBell st c) s = .next (s.put ((d.modTile st fun t => { t with
        bells := vsetN t.bells b (BitVec.ofNat 32 (stood - n)), bellNow := takeSum b (n - stood) t.bellNow }).modCtx st c
          fun x => { x with pc := x.pc + 1 }))) ∧
    (held < n →
      exec (.stepWaitBell st c) s = .next (s.put (d.modCtx st c fun x =>
        { x with state := .waitBell, wait := .bell b n, met := false })))) ∧
  (∀ (st : SiteId) (c : CtxId) (s : State),
    stepEnabled st c 0x07 s.dev = true →
    let d := s.dev.issued st c
    let w := (s.dev.tile st).curStep c
    let q := vgetN (s.dev.tile st).queues (stA16 w) {}
    (q.entries.length ≤ q.taking →
      exec (.stepRecv st c) s = .next (s.put (d.modCtx st c fun x =>
        { x with state := .waitQueue, wait := .queue (stA16 w), met := false }))) ∧
    (∀ e, q.entries[q.taking]? = some e →
      exec (.stepRecv st c) s = .next (s.put ((d.modTile st fun t => { t with
        queues := vmodN t.queues (stA16 w) fun v => { v with taking := v.taking + 1 }
        core := t.core ++ [{ ctx := c, recv := true, no := stA16 w, addr := stA32 w, len := 64, bytes := padTo 64 e, entry := e }] }).modCtx
          st c fun x => { x with pc := x.pc + 1, state := .waitTransfer, wait := .tilePort, met := false })))) ∧
  (∀ (st : SiteId) (c : CtxId) (s : State) (ch : Fin 64),
    stepEnabled st c 0x06 s.dev = true →
    let d := s.dev.issued st c
    let w := (s.dev.tile st).curStep c
    stA16 w = ch.val →
    ((s.dev.tile st).chanFree ch.val = false →
      exec (.stepSend st c) s = .next (s.put
        (d.modCtx st c fun x => { x with state := .waitTransfer, wait := .channel ch.val, met := false }))) ∧
    ((s.dev.tile st).chanFree ch.val = true →
      exec (.stepSend st c) s = .next (s.put ((d.modTile st fun t => { t with
        core := t.core ++ [{ ctx := c, recv := false, no := ch.val, addr := stA32 w, len := (s.dev.chan st ch).bytes }] }).modCtx
          st c fun x => { x with pc := x.pc + 1, state := .waitTransfer, wait := .tilePort, met := false })))) ∧
  (∀ (st : SiteId) (c : CtxId) (s : State),
    stepEnabled st c 0x1F s.dev = true →
    let d := s.dev.issued st c
    let x := (s.dev.tile st).ctxs[c]
    (x.bellAcks = 0 → x.msgs = 0 →
      exec (.stepEnd st c) s = .next (s.put ((d.modCtx st c fun x => { x with state := .idle, wait := .nothing }).modTile st Tile.checkEnding))) ∧
    ((x.bellAcks ≠ 0 ∨ x.msgs ≠ 0) →
      exec (.stepEnd st c) s = .next (s.put (d.modCtx st c fun x => { x with state := .waitTransfer, wait := .acks, met := false }))))

/-- What leaves a tile by a step: BELL_ADD to another tile (R249), BARRIER (R255), CLAIM (R242), each as one mesh packet
of NIGHTJAR's VC 2 that joins those on their way; BARRIER and CLAIM deschedule their context. BELL_ADD to a bell of the
tile itself takes effect in the next NCLK cycle (R249); at a cycle's end a bell holds its net value of the cycle where that fits
in 32 bits, and otherwise all ones while the tile's paddock stops (BELL_OVERFLOW, 0x4001, in context 0; R248, R251). COMMIT
(R243): a grant of an older generation writes 2 into X[XDST], counts in TILE_CLAIM_STALE and goes on without an access to memory;
a grant of the counter's generation deschedules the context and sends a claim request for the base in TILE_PARAM + 8 × index to
the loft of that address, over the mesh unless it is the tile's own loft. -/
def Obligations.StepsThatSend : Prop :=
  (∀ (st : SiteId) (c : CtxId) (s : State),
    let d := s.dev
    let w := (d.tile st).curStep c
    (stepEnabled st c 0x05 d = true → bitOf w 127 = true → ∀ k dst, d.padOf st = some k →
      d.tileSite k (fld w 64 6) = some dst →
      exec (.stepBellAdd st c) s = .next (s.put ((((d.issued st c).modCtx st c fun x => { x with pc := x.pc + 1, bellAcks := x.bellAcks + 1 }).meshTo st dst 2
          true (.bellAdd (stA16 w) (stA32 w) st c))))) ∧
    (stepEnabled st c 0x05 d = true → bitOf w 127 = false →
      exec (.stepBellAdd st c) s = .next (s.put (((d.issued st c).modCtx st c fun x => { x with pc := x.pc + 1 }).modTile st fun t =>
        { t with bellNext := t.bellNext ++ [(stA16 w, stA32 w)] }))) ∧
    (stepEnabled st c 0x08 d = true →
      let b := (d.tile st).ctl.barBase + stA16 w
      let e := (d.tile st).ctl.episode b
      exec (.stepBarrier st c) s = .next (s.put (((d.issued st c).modCtx st c fun x =>
        { x with pc := x.pc + 1, state := .waitTransfer, wait := .barrier b e, met := false }).meshToPr st 7 2 true (.arrive b e st)))) ∧
    (stepEnabled st c 0x09 d = true →
      exec (.stepClaim st c) s = .next (s.put (((d.issued st c).modCtx st c fun x =>
        { x with state := .waitTransfer, wait := .work (stXd w) (stA32 w) (fld w 64 12), met := false }).meshToPr st 7 2 false
            (.workReq ((d.tile st).ctl.workBase + stA16 w) st c))))) ∧
  (∀ (st : SiteId) (b : Nat) (d : Dev),
    let net := (vgetN (d.tile st).bells b 0#32).toNat + bellSum (d.tile st).bellNow b
    (net < 2 ^ 32 → d.settleBell st b = d.modTile st fun t => { t with bells := vsetN t.bells b (BitVec.ofNat 32 net) }) ∧
    (2 ^ 32 ≤ net → d.settleBell st b = (d.modTile st fun t => { t with bells := vsetN t.bells b 0xFFFFFFFF#32 }).ctxFault st 0
      { code := 0x4001, unit := some 31, extra := [b] })) ∧
  (∀ (st : SiteId) (c : CtxId) (s : State),
    stepEnabled st c 0x0A s.dev = true →
    let d := s.dev.issued st c
    let t := s.dev.tile st
    let w := t.curStep c
    let g := ((t.ctxs[c]).reg (fld w 32 3)).toNat
    let gen := BitVec.ofNat 16 (fld g 32 16)
    let cur := (vgetN s.dev.car.works (t.ctl.workBase + fld w 40 8) {}).gen
    let a := (vgetN t.ctl.param (stA16 w) 0#64).toNat + 8 * fld g 0 32
    (gen ≠ cur → exec (.stepCommit st c) s = .next (s.put
      (((d.modCtx st c fun x => { x with x := vsetN x.x (stXd w) 2#64 }).modCtl st fun q =>
        { q with claimStale := q.claimStale.inc s.dev.now }).modCtx st c fun x => { x with pc := x.pc + 1 }))) ∧
    (gen = cur → linearValid (a : Int) = false →
      exec (.stepCommit st c) s = .next (s.put (d.stepFault st c 0x3005 a 0))) ∧
    (∀ l, gen = cur → linearValid (a : Int) = true → finOf 48 (dramLoft a) = some l →
      let m : MeshMsg := .claimReq a gen (s.dev.tileNum st) st c
      let d' := d.modCtx st c fun x => { x with state := .waitTransfer, wait := .claim (stXd w), met := false }
      (l = st → exec (.stepCommit st c) s = .next (s.put { d' with claims := vmod d'.claims l fun q => q ++ [m] })) ∧
      (l ≠ st → exec (.stepCommit st c) s = .next (s.put (d'.launch
        { at_ := st, dests := [l], loftEp := true, vc := 0, prio := false, src := st.val, paddock := s.dev.padOf st, body := m })))))

/-- ISSUE (R219, R220): the working entry goes to the matrix unit, to a generator of the MSU, to its mover or update
path, or to the remote engine, as target and unit name it, in the last of the step's issue slots. PLAN, PATCH and
PARTIAL (R230, R234, R238): with values in range, the writes they derive are appended to what waits for the
configuration port and the context waits in WAIT_TRANSFER behind the step; a value out of range raises SHAPE_EXCEEDS_PLAN
(0x3004) or PATCH_OUT_OF_RANGE (0x300C) and asks nothing of the port. -/
def Obligations.IssueAndPlanReachTheirTargets : Prop :=
  (∀ (st : SiteId) (c : CtxId) (s : State),
    stepEnabled st c 0x01 s.dev = true →
    let w := (s.dev.tile st).curStep c
    let e := ((((s.dev.tile st).pool)[stA16 w]?).map (·.toNat)).getD 0
    let d := s.dev.issued st c
    (isTarget w = 0 → exec (.stepIssue st c) s = .next (s.put (d.issueMxu st c (fld e 0 256)))) ∧
    (∀ m : MsuId, isUnit w = m.val + 17 →
      (isTarget w = 1 → exec (.stepIssue st c) s = .next (s.put (d.issueGen st c m false (fld e 0 768)))) ∧
      (isTarget w = 2 → exec (.stepIssue st c) s = .next (s.put (d.issueGen st c m true (fld e 0 768)))) ∧
      (isTarget w = 3 → exec (.stepIssue st c) s = .next (s.put (d.issueMv st c m (fld e 0 512))))) ∧
    (isTarget w = 3 → isUnit w = 31 →
      exec (.stepIssue st c) s = .next (s.put (d.issueRm st c (fld e 0 512))))) ∧
  (∀ (st : SiteId) (c : CtxId) (s : State),
    let t := s.dev.tile st
    let w := t.curStep c
    let asked (d : Dev) (r : PortReq) : Dev :=
      (d.modTile st fun t => { t with portQ := t.portQ ++ [r] }).modCtx st c fun x =>
        { x with pc := x.pc + 1, state := .waitTransfer, wait := .port, met := false }
    (stepEnabled st c 0x02 s.dev = true →
      let d := s.dev.issued st c
      (∀ ws sh est, planWrites t.active t.pool (s.dev.sourceOf st c 0) (stA16 w) = .ok (ws, sh, est) →
        exec (.stepPlan st c) s = .next (s.put
          (asked d (.writes c (stA16 w) ws.sets ws.fires (some (planLast (stA16 w) sh est)))))) ∧
      (∀ i, planWrites t.active t.pool (s.dev.sourceOf st c 0) (stA16 w) = .error i →
        exec (.stepPlan st c) s = .next (s.put (d.stepFault st c 0x3004 0 i)))) ∧
    (stepEnabled st c 0x03 s.dev = true →
      let d := s.dev.issued st c
      let res := patchWrites t.active (s.dev.sourceOf st c 0) (stA16 w) (stA32 w)
      (∀ ws, res = .ok ws → exec (.stepPatch st c) s = .next (s.put
        (asked d (.writes c (stA16 w) ws.sets ws.fires none)))) ∧
      (∀ i, res = .error i → exec (.stepPatch st c) s = .next (s.put (d.stepFault st c 0x300C 0 i)))) ∧
    (stepEnabled st c 0x0F s.dev = true →
      exec (.stepPartial st c) s = .next (s.put (asked (s.dev.issued st c) (.partialCommit c (stA16 w))))))

/-- An ISSUE to the matrix unit (R120, R124): the first descriptor runs, the second waits, the third raises
MXU_QUEUE_FULL (0x4010) in the issuing context and is discarded; a step of another fold than the values held stops the
unit with ACC_FOLD_MISMATCH (0x3006). -/
def Obligations.MatrixUnitHoldsTwoDescriptors : Prop :=
  ∀ (st : SiteId) (c : CtxId) (s : State),
    stepEnabled st c 0x01 s.dev = true →
    let w := (s.dev.tile st).curStep c
    isTarget w = 0 →
    let x := fld (((((s.dev.tile st).pool)[stA16 w]?).map (·.toNat)).getD 0) 0 256
    let r : MxuStep := { desc := BitVec.ofNat 256 x, ctx := c }
    let d := s.dev.issued st c
    let u := (s.dev.tile st).mxu
    (u.foldMismatch x = true → exec (.stepIssue st c) s = .next (s.put
      ((d.modMxu st fun u => { u with stopped := true }).issueFault st c 0x3006 0 [mdStepId x]))) ∧
    (u.foldMismatch x = false → u.running = none → exec (.stepIssue st c) s = .next (s.put
      ((d.modMxu st fun u => { u.start r s.dev.anow with seeded := s.dev.entropyOk }).modCtx st c
        fun y => { y with pc := y.pc + 1 }))) ∧
    (u.foldMismatch x = false → u.running.isSome = true → u.pending = none → exec (.stepIssue st c) s = .next (s.put
      ((d.modMxu st fun u => { u with pending := some r }).modCtx st c fun y => { y with pc := y.pc + 1 }))) ∧
    (u.foldMismatch x = false → u.running.isSome = true → u.pending.isSome = true →
      exec (.stepIssue st c) s = .next (s.put (d.issueFault st c 0x4010 0 [mdStepId x])))

/-! ### Contexts, the configuration port and phases (R40, R70, R222 to R230, R441) -/

/-- CONTEXT_WAKE (R40): a descheduled context whose condition held at the end of an earlier NCLK cycle becomes READY and waits
for nothing; nothing else changes. It wakes on nothing else: a context whose condition has not held stays as it is, and one that
is IDLE or FAULTED has no condition that holds. CONFIG_PORT_SERVE (R228, R230, R237, R246): the oldest request leaves the queue;
where its checks, made as it is served, hold the tile is as the port writes it and the context's wait is over; otherwise nothing
is written and the fault of the check is raised in the context that asked, at the step that asked. -/
def Obligations.ContextsWakeAndPortServes : Prop :=
  (∀ (st : SiteId) (c : CtxId) (s : State),
    (wakeEnabled st c s.dev = true → exec (.contextWake st c) s = .next (s.put
      (s.dev.modCtx st c fun x => { x with state := .ready, wait := .nothing, met := false }))) ∧
    (((s.dev.tile st).ctxs[c]).met = false → exec (.contextWake st c) s = .next s) ∧
    (((s.dev.tile st).ctxs[c]).state = .idle ∨ ((s.dev.tile st).ctxs[c]).state = .faulted → (s.dev.tile st).wakes c = false) ∧
    (((s.dev.tile st).noteWakes.ctxs[c]).met = true ↔
      ((s.dev.tile st).ctxs[c]).met = true ∨ (s.dev.tile st).wakes c = true)) ∧
  (∀ (st : SiteId) (s : State) (r : PortReq) (rest : List PortReq),
    portEnabled st s.dev = true → (s.dev.tile st).portQ = r :: rest →
    let d := s.dev.modTile st fun t => { t with portQ := rest, portAt := some s.dev.now }
    (∀ t, (d.tile st).serve s.dev.entropyOk r = .ok t →
      exec (.configPortServe st) s = .next (s.put
        ((d.modTile st fun _ => t).modCtx st r.ctx fun x => { x with wait := .nothing }))) ∧
    (∀ code i, (d.tile st).serve s.dev.entropyOk r = .error (code, i) →
      exec (.configPortServe st) s = .next (s.put
        (d.stepFaultAt st r.ctx (((s.dev.tile st).ctxs[r.ctx]).pc - 1) code 0 i))))

/-- FULL_COMMIT (R225 to R227, R241): TILE_CFG_GEN advances, the tile stands at the next phase in COMMITTING with the
slot lengths latched, and context 0 waits at the commit barrier: the commit is no longer due. Bells, queues and the
scratchpad keep what they hold, and so do fuses and the queue of commands. RELOAD_COMPLETE (R221, R223, R441): the
yardmaster's write of the run's parameters is on its way to the tiles of the paddock (R328), each of them holds the parameters (log
entry 71, the model's choice of when) and has phase 0 to commit; the paddock no longer reloads. PHASE_END (R70,
R71, R225): with a token left in an input or link queue the paddock raises RATE_MISMATCH (0x1002) at that unit; drained
after a LAST phase the tiles return to IDLE, the paddock is READY and its run is DONE; drained after any other phase
each tile is COMMITTING with a full commit to perform and context 0 READY, unless the run is to be suspended here. -/
def Obligations.PhasesStartAndEnd : Prop :=
  (∀ (st : SiteId) (s : State), fullCommitEnabled st s.dev = true →
    Completes (.fullCommit st) s fun d =>
      let t := s.dev.tile st
      let t' := d.tile st
      t'.ctl.cfgGen = nextGen t.ctl.cfgGen ∧ t'.ctl.phase = BitVec.ofNat 32 t.nextPhase ∧
      t'.ctl.phaseState = 1#8 ∧ t'.ctl.seqLen = latchSeqs s.dev.seqs (s.dev.padOf st) ∧
      t'.commitDue = false ∧ t'.commitWait = true ∧
      t'.bells = t.bells ∧ t'.queues = t.queues ∧ t'.spad = t.spad ∧ d.lofts = s.dev.lofts) ∧
  (∀ (k : PadId) (s : State) (p : Paddock), reloadDone k s.dev = true → s.dev.pad k = some p →
    exec (.reloadComplete k) s = .next (s.put
      (((s.dev.tellTiles p.sites k 512).forSites p.sites fun t => { t with
        ctl := { t.ctl with param := Vector.ofFn fun i : Fin 64 => p.params.getD i.val 0#64 } }.startCommit).modPad k
          fun q => { q with reloading := false }))) ∧
  (∀ (k : PadId) (s : State) (p : Paddock) (first : SiteId) (others : List SiteId),
    phaseEndEnabled k s.dev = true → s.dev.pad k = some p → p.sites = first :: others →
    let d := s.dev
    let t := d.tile first
    let last := phLast (t.active.phase t.ctl.phase.toNat)
    (∀ x u, leftOver d p = some (x, u) → exec (.phaseEnd k) s = .next (s.put
      (d.raise k none true { code := 0x1002, site := some x, unit := some u }))) ∧
    (leftOver d p = none → last = true → exec (.phaseEnd k) s = .next (s.put
      (((d.forSites p.sites fun t => Tile.dropSample { t with ctl := { t.ctl with phaseState := 0#8 } } d.now).modPad k
        fun q => { q with state := .ready, suspendDue := false }).endOp p.run .done 0))) ∧
    (leftOver d p = none → last = false → p.suspendDue = false → exec (.phaseEnd k) s = .next (s.put
      (d.forSites p.sites Tile.startCommit))) ∧
    (leftOver d p = none → last = false → p.suspendDue = true → exec (.phaseEnd k) s = .next s))

/-! ### The unit grid (R49 to R72) -/

/-- Tokens on their way (R50, R51, R60): LINK_QUEUE_TRANSFER moves the oldest token of a link queue to the end of the
input queue behind it, and PASS_THROUGH_FORWARD into the pass-through register, each freeing the link queue's entry; the
register's token and the oldest due token of an output buffer go onto the link of their side; the buffer notes the entries
that the cycle frees (R58, R60). Where a unit stands at a
link queue's input, the heads are then checked for their kind (R64). A token that fails parity as it leaves a
pass-through register and arrives (R65): it is held in the link queue of the receiver, whose count of parity errors
advances, and LINK_PARITY_ERROR (0xE002) is raised at the receiving unit. -/
def Obligations.TokensMoveInOrder : Prop :=
  (∀ (st : SiteId) (p : PosId) (side : Side) (s : State),
    let d := s.dev
    let q := d.pos st p
    let k := sideNum side
    (∀ t n, transferEnabled st p side d = true → q.linkHead k.val d.anow = some t → q.inputOf k.val = some n →
      exec (.linkQueueTransfer st p side) s = .next (s.put
        (((d.moveOut st p k.val).modPos st p fun q => { q with inQ := vmodN q.inQ n fun l => l ++ [t.tok] }).kindCheck
          st p))) ∧
    (∀ t x, passEnabled st p side .intoReg d = true → q.passFrom k.val = some x → q.linkHead x d.anow = some t →
      exec (.passThroughForward st p side .intoReg false) s = .next (s.put
        ((d.moveOut st p x).modPos st p fun q => { q with
          passReg := vmod q.passReg k fun _ => some { t with avail := d.anow, bad := false } }))) ∧
    (∀ t bad, passEnabled st p side .ontoLink d = true → q.passReg[k] = some t →
      exec (.passThroughForward st p side .ontoLink bad) s = .next (s.put
        ((d.modPos st p fun q => { q with
          passReg := vmod q.passReg k fun _ => none, passEmptied := vmod q.passEmptied k fun _ => some d.anow }).ontoLink st p k.val t.tok bad))) ∧
    (∀ out bad due tok rest, emitEnabled st p out d = true → q.outQ[out] = (due, tok) :: rest →
      let freed (f : Nat × Nat) : Nat × Nat := (d.anow, (if f.1 = d.anow then f.2 else 0) + 1)
      let e := d.modPos st p fun q => { q with outQ := vmod q.outQ out fun _ => rest, outFreed := vmod q.outFreed out freed }
      let away (e : Dev) : Dev := e.ontoLink st p (hdrOutSide q.cfg.toNat out.val) tok bad
      (p = mxuPos → exec (.tokenEmit st p out bad) s = .next (s.put
        (away (e.modMxu st fun x => { x with lastDrain := d.anow })))) ∧
      (∀ m, p = msuPos m → exec (.tokenEmit st p out bad) s = .next (s.put
        (away (e.modMsu st m fun x => { x with rdTokens := x.rdTokens + 1 })))) ∧
      (p ≠ mxuPos → (∀ m, p ≠ msuPos m) → exec (.tokenEmit st p out bad) s = .next (s.put (away e))))) ∧
  (∀ (st st' : SiteId) (p p' : PosId) (side : Side) (seam : Bool) (t : LinkTok) (s : State),
    let d := s.dev
    let k := sideNum side
    passEnabled st p side .ontoLink d = true → (d.pos st p).passReg[k] = some t →
    neighbour st p k.val = some (st', p', seam) →
    let sent := (d.modPos st p fun q => { q with
      passReg := vmod q.passReg k fun _ => none, passEmptied := vmod q.passEmptied k fun _ => some d.anow }).modPos st p fun q =>
        { q with lastSent := vsetN q.lastSent k.val (some d.anow) }
    exec (.passThroughForward st p side .ontoLink true) s = .next (s.put
      (((sent.modPos st' p' fun q => { q with
        linkQ := vmodN q.linkQ (oppSide k.val) fun l =>
          l ++ [{ tok := t.tok, avail := d.anow + (if seam then 2 else 1), bad := true }], parityErrs := q.parityErrs + 1 }).gridFault st'
          { code := 0xE002, unit := some (posUnit p').val, side := oppSide k.val, area := 4 }).countParity st')))

/-- UNIT_FIRE (R58): a vector unit fires whole, the matrix unit and an MSU by the port named; the heads that the firing
leaves are checked for their kind (R64). A unit that cannot fire in this cycle does not. GRID_DEADLOCK (R72): a paddock
whose idle counter has reached 65,536 raises GRID_DEADLOCK (0x1001) with a snapshot; below that nothing happens. -/
def Obligations.UnitsFireWhenReady : Prop :=
  (∀ (st : SiteId) (u : UnitId) (port : FirePort) (s : State),
    (fireEnabled st u port s.dev = false → exec (.unitFire st u port) s = .next s) ∧
    (fireEnabled st u port s.dev = true →
      (u.val = 0 → exec (.unitFire st u port) s = .next (s.put ((mxuPortFire s.dev st port).kindCheck st mxuPos))) ∧
      (∀ v : VxuId, u.val = v.val + 1 →
        exec (.unitFire st u port) s = .next (s.put ((vxuEffect s.dev st u v).kindCheck st (unitPos u)))) ∧
      (∀ m : MsuId, u.val = m.val + 17 →
        exec (.unitFire st u port) s = .next (s.put ((msuPortFire s.dev st m port).kindCheck st (unitPos u)))))) ∧
  (∀ (k : PadId) (p : Paddock) (s : State), s.dev.padLive k = true → s.dev.pad k = some p →
    (65536 ≤ p.idle → exec (.gridDeadlock k) s = .next (s.put (s.dev.raise k none true { code := 0x1001 }))) ∧
    (p.idle < 65536 → exec (.gridDeadlock k) s = .next s))

/-! ### The matrix unit, the scratchpad and the streaming units (R102 to R124, R158 to R190) -/

/-- ROW_SLOT_START, WEIGHT_SWAP and MXU_STEP_COMPLETE (R102, R107, R121, R124): a row of a held step beyond its fold
stops the unit with ACC_OVERFLOW (0x3003) in the step's context; any other row is computed and counted; a swap takes the
shadow weights; a completion pushes its record, counts the step as one firing, and adds one to the bell where DONE_BELL_EN is
set, which takes effect at the next NCLK edge (R251). -/
def Obligations.MatrixUnitWorksRowByRow : Prop :=
  ∀ (st : SiteId) (s : State),
    let d := s.dev
    let u := (d.tile st).mxu
    (rowSlotEnabled st d = true → u.overflows = true → exec (.rowSlotStart st) s = .next (s.put
      ((d.modMxu st fun u => { u with stopped := true }).ctxFault st ((u.running.map (·.ctx)).getD 0)
        { code := 0x3003, unit := some 0, extra := [mdStepId u.desc, u.row] }))) ∧
    (rowSlotEnabled st d = true → u.overflows = false → exec (.rowSlotStart st) s = .next (s.put
      (((d.modMxu st fun u => u.rowSlot d.anow).noteFire st).countFixed st 2 1))) ∧
    (swapEnabled st d = true → exec (.weightSwap st) s = .next (s.put
      ((d.modMxu st fun u => u.swap d.anow).noteFire st))) ∧
    (stepCompleteEnabled st d = true →
      ∃ e, exec (.mxuStepComplete st) s = .next (s.put e) ∧
        (e.tile st).mxu = { u.complete d.anow d.now with seeded := d.entropyOk } ∧
        (e.tile st).bells = (d.tile st).bells ∧ (e.tile st).bellNow = (d.tile st).bellNow ∧
        (e.tile st).bellNext = (d.tile st).bellNext ++ (if mdBellEn u.desc then [(mdBell u.desc, 1)] else []) ∧
        (e.tile st).spad = (d.tile st).spad ∧ e.lofts = d.lofts)

/-- The completion FIFOs (R9, R119, R121, R187, R200, R381): the read returns the oldest record with LOST in its place, or
zero; the record leaves the FIFO and LOST is cleared with it; an empty FIFO keeps LOST. A push keeps the last four records and
sets LOST where it drops one, and a read in the cycle of a push returns what it would have returned before it. Nothing else of
the device changes by a read. -/
def Obligations.DoneReadsRemoveOldestRecord : Prop :=
  (∀ (st : SiteId) (m : MsuId) (s : State), s.dev.running = true → s.dev.hasTile st = true →
    let d := s.dev
    let t := d.tile st
    let u := d.msu st m
    exec (.mxuDoneRead st) s = .next (s.put ((d.show (t.mxu.done.value d.now 28)).modMxu st fun x =>
      { x with done := x.done.taken d.now })) ∧
    exec (.msuDoneRead st m) s = .next (s.put ((d.show (u.done.value d.now 18)).modMsu st m fun x =>
      { x with done := x.done.taken d.now })) ∧
    exec (.msuMvDoneRead st m) s = .next (s.put ((d.show (u.mv.done.value d.now 18)).modMsu st m fun x =>
      { x with mv := { x.mv with done := x.mv.done.taken d.now } })) ∧
    exec (.tileRmDoneRead st) s = .next (s.put ((d.show (t.rm.done.value d.now 18)).modTile st fun x =>
      { x with rm := { x.rm with done := x.rm.done.taken d.now } }))) ∧
  (∀ (f : DoneFifo) (now lo : Nat) (r : BitVec 64), f.at_ ≠ now → f.recs.length ≤ 4 →
    (f.recs = [] → f.value now lo = 0 ∧ f.taken now = f) ∧
    (∀ x rest, f.recs = x :: rest → f.value now lo = x.toNat + (if f.lost then 2 ^ lo else 0) ∧
      (f.taken now).recs = rest ∧ (f.taken now).lost = false) ∧
    (f.push now r).recs = (f.recs ++ [r]).drop (f.recs.length - 3) ∧
    (f.push now r).lost = (f.lost || f.recs.length == 4) ∧
    (f.push now r).value now lo = f.value now lo)

/-- SCRATCHPAD_GRANT (R158 to R166), where no port presents an access that faults: a section with nothing presented
grants nothing; the access that the round-robin picks is performed; a write to a panel still queued for zeroing gives
its grant to that zeroing. The last access that the control core makes for a RECV takes its entry out of the queue, and the last
for a SEND puts its message into the channel, the context owing one acknowledgement more (R264, R265). READ_DELIVERY and PANEL_ZERO (R164, R165, R189): the oldest bytes in flight enter the
assembly buffer of their stream, or the output of an elastic MSU; the zeroing engine writes the next row of the panel
that stands first in the section's queue. MSU_PATTERN_COMPLETE (R187): the record of the completed pattern enters the
FIFO, over the oldest of four with LOST set, the next pattern of the generator runs, and DONE_BELL is rung where it is
enabled. The scratchpad, the lofts and the other generator keep what they hold. -/
def Obligations.StreamingUnitsMoveBytes : Prop :=
  (∀ (st : SiteId) (sec : Fin 4) (s : State), grantEnabled st sec s.dev = true →
    let now := s.dev.anow
    let live := s.dev.tileLive st
    let up := s.dev.tileUp st
    let d := s.dev.modTile st fun t => (fins 8).foldl (fun t m => t.settle m live now 64) t
    let t := d.tile st
    t.askFault sec.val live up now = none →
    (t.pick sec.val live up now = none → exec (.scratchpadGrant st sec .clean) s = .next (s.put d)) ∧
    (∀ k, t.pick sec.val live up now = some k →
      let e := d.modSpad st fun p => p.granted sec.val k.req now
      (k.write = true → t.spad.queued k.acc.panel = true → exec (.scratchpadGrant st sec .clean) s = .next (s.put
        (e.modSpad st fun p => p.zeroRow k.acc.panel))) ∧
      ((k.write = true → t.spad.queued k.acc.panel = false) →
        (∀ w ∈ (if k.write then k.acc.merged else k.acc.words), t.spad.badWords.contains w = false) →
        exec (.scratchpadGrant st sec .clean) s = .next (s.put
          ((if k.req == 16 then e else e.modMsu st k.msu fun u =>
            if k.write then { u with wrTurn := k.src.num } else { u with rdTurn := k.src.num }).perform st k))))) ∧
  (∀ (st : SiteId) (j : CoreJob) (d : Dev), (d.tile st).core.find? (fun j => decide (j.len ≤ j.done)) = some j →
    let e := d.modTile st fun t => { t with core := eraseFirst (fun x => x == j) t.core }
    (j.recv = true → d.coreDone st = e.modTile st fun t => { t with
      queues := vmodN t.queues j.no fun q => { q with
        taking := q.taking - 1, entries := eraseFirst (fun x => x == j.entry) q.entries } }) ∧
    (∀ ch : Fin 64, j.recv = false → j.no = ch.val → d.coreDone st =
      (e.modCtx st j.ctx fun y => { y with msgs := y.msgs + 1 }).enqueue st ch { ctx := j.ctx, bytes := j.bytes })) ∧
  (∀ (st : SiteId) (m : MsuId) (sec : Fin 4) (s : State),
    let d := s.dev
    (∀ due secondary bs rest, deliveryEnabled st m d = true → (d.msu st m).flight = (due, secondary, bs) :: rest →
      ((d.tile st).msuCfgMode m ≠ 2 → secondary = false → exec (.readDelivery st m) s = .next (s.put
        (d.modMsu st m fun u => { u with flight := rest, asmP := u.asmP ++ bs }))) ∧
      ((d.tile st).msuCfgMode m ≠ 2 → secondary = true → exec (.readDelivery st m) s = .next (s.put
        (d.modMsu st m fun u => { u with flight := rest, asmS := u.asmS ++ bs }))) ∧
      ((d.tile st).msuCfgMode m = 2 → exec (.readDelivery st m) s = .next (s.put
        ((d.modPos st (msuPos m) fun p => { p with
          outQ := vmodN p.outQ 0 fun q => q ++ [(due + 1, Token.ofBytes 0#3 bs)] }).modMsu st m
            fun u => { u with flight := rest, elFlight := u.elFlight - 1 })))) ∧
    (∀ panel row others, panelZeroEnabled st sec d = true → (d.tile st).spad.zeroQ[sec] = (panel, row) :: others →
      exec (.panelZero st sec) s = .next (s.put (d.modSpad st fun p =>
        { p.zeroRow panel with lastGrant := vsetN p.lastGrant sec.val (some d.anow) })))) ∧
  (∀ (st : SiteId) (m : MsuId) (write : Bool) (s : State), patternEnabled st m write s.dev = true →
    let u := s.dev.msu st m
    let g := if write then u.wr else u.rd
    ∃ e, exec (.msuPatternComplete st m write) s = .next (s.put e) ∧
      (e.msu st m).done = u.done.push s.dev.now (patternRecord g write) ∧
      (e.msu st m).complete = u.complete + 1 ∧
      (if write then (e.msu st m).wr = u.wr.next s.dev.anow ∧ (e.msu st m).rd = u.rd
       else (e.msu st m).rd = u.rd.next s.dev.anow ∧ (e.msu st m).wr = u.wr) ∧
      (e.tile st).bellNext = (s.dev.tile st).bellNext ++ (if pdBellEn g.x then [(pdBell g.x, 1)] else []) ∧
      (e.tile st).spad = (s.dev.tile st).spad ∧ (e.tile st).bells = (s.dev.tile st).bells ∧ e.lofts = s.dev.lofts)

/-! ### Lofts, movers and updates (R191 to R215, R273 to R286, R442, R495) -/

/-- A request that a loft controller accepts (R196, R202, R205): outside the windows granted to its paddock nothing is
read or written and LOFT_NOT_GRANTED (0x300A) goes to its engine; inside, the controller performs it on its block, and
a write or a read-and-zero of the loft's own tile is paid to the engine's account at once, while to another site a write's
acknowledgement goes as a packet. What an accepted write does to memory (R192, R205):
at the addresses of its bytes the loft's DRAM reads what was written, at every other address what it read before, and
every other loft is as it was; unless the path of the addressed channel has failed (R497), where the loft's memory
stays. -/
def Obligations.LoftPerformsGrantedRequests : Prop :=
  (∀ (l : SiteId) (router : Bool) (r : LoftReq) (s : State), acceptEnabled l router s.dev = true →
    (s.dev.loft l).acceptable router s.dev.now = some r →
    let d := s.dev.modLoft l fun lo => lo.unqueue router r s.dev.now
    (s.dev.windowOk l r = false → exec (.loftRequestAccept l router) s = .next (s.put
      (d.faultRequester r.who (!r.write) 0x300A r.addr 0xFF))) ∧
    (s.dev.windowOk l r = true → r.write = false → r.clear = false → exec (.loftRequestAccept l router) s =
      .next (s.put (d.modLoft l fun lo => lo.performReq r s.dev.now))) ∧
    (s.dev.windowOk l r = true → router = false → (r.write = true ∨ r.clear = true) → exec (.loftRequestAccept l router) s =
      .next (s.put ((d.modLoft l fun lo => lo.performReq r s.dev.now).accepted r.who r.len))) ∧
    (s.dev.windowOk l r = true → router = true → r.write = true → exec (.loftRequestAccept l router) s =
      .next (s.put ((d.modLoft l fun lo => lo.performReq r s.dev.now).loftAnswer l r.who.site.1 1 r.prio (finOf 16 r.pad) 0
        (.loftAck r.who r.len)))) ∧
    (s.dev.windowOk l r = true → router = true → r.write = false → exec (.loftRequestAccept l router) s =
      .next (s.put (d.modLoft l fun lo => lo.performReq r s.dev.now)))) ∧
  (∀ (l : SiteId) (router : Bool) (r : LoftReq) (s : State), acceptEnabled l router s.dev = true →
    (s.dev.loft l).acceptable router s.dev.now = some r → s.dev.windowOk l r = true → r.write = true →
    ∃ e, exec (.loftRequestAccept l router) s = .next (s.put e) ∧
      (∀ l' : SiteId, l' ≠ l → e.loft l' = s.dev.loft l') ∧
      ((s.dev.loft l).deadChans.contains (offChannel (dramOff r.addr)) = true →
        (e.loft l).mem = (s.dev.loft l).mem) ∧
      ((s.dev.loft l).deadChans.contains (offChannel (dramOff r.addr)) = false →
        (e.loft l).mem.readN (dramOff r.addr) r.data.length = r.data ∧
        ∀ a, (a < dramOff r.addr ∨ dramOff r.addr + r.data.length ≤ a) →
          (e.loft l).mem.read a = (s.dev.loft l).mem.read a))

/-- Controllers give up what is due (R202 to R204): windows on a block that have ended close, the oldest closed write
entry is freed, and a closed tag leaves and its requesters get their bytes in order; what the code finds, and the codewords that
the tag's requests met as uncorrectable already, is counted first (R211, R212, R214). MOVER_REQUEST_ISSUE, MOVER_TRANSFER_COMPLETE and UPDATE_COMPLETE (R199, R200, R281): an MSU
in update mode issues for its update path and any other for its mover; a finished transfer or update pushes its record
into MSU_MV_DONE's FIFO, over the oldest of four with LOST set, and leaves the list of those under way; DONE_BELL_EN rings
the bell named in the next NCLK cycle. -/
def Obligations.ControllersAndMoversComplete : Prop :=
  (∀ (l : SiteId) (block : Nat) (b : Fin 32) (t : LoftTag) (s : State),
    let d := s.dev
    let u := t.block * 32 + b.val
    let left := d.modLoft l fun lo => { lo with tags := eraseFirst (fun q => q == t) lo.tags }
    let shut (o : Option Nat) : Option Nat := o.filter fun x => d.now < x
    (mergeCloseEnabled l block d = true → exec (.mergeWindowClose l block) s = .next (s.put
      (d.modLoft l fun lo => { lo with
        tags := lo.tags.map fun t => if t.block == block then { t with openUntil := shut t.openUntil } else t,
        writes := lo.writes.map fun w => if w.block == block then { w with openUntil := shut w.openUntil } else w }))) ∧
    (writeBurstEnabled l d = true → exec (.dramWriteBurst l) s = .next (s.put
      (d.modLoft l fun lo => { lo with writes := eraseFirst (fun w => !windowOpen w.openUntil d.now) lo.writes }))) ∧
    (readReturnEnabled l d = true → (d.loft l).readyTag d.now = some t →
      let known := (t.reqs.flatMap fun r => (left.loft l).badNow t r).dedup
      let found := known.foldl (fun d u => d.modLoft l fun lo => lo.foundBad (16 * u) d.now) left
      (known = [] →
        exec (.loftReadReturn l []) s = .next (s.put (t.reqs.foldl (fun d r => d.returnOne l t r) left)) ∧
        exec (.loftReadReturn l [(b, .corrected)]) s = .next (s.put
          (t.reqs.foldl (fun d r => d.returnOne l t r) (left.modLoft l fun lo => lo.corrected l.val (16 * u) d.now)))) ∧
      (∀ ecc, known.contains u = true →
        exec (.loftReadReturn l [(b, ecc)]) s = .next (s.put (t.reqs.foldl (fun d r => d.returnOne l t r) found))) ∧
      (∀ (codes : List (Fin 32 × DramEcc)) e t',
        codes.foldl (fun (x : Dev × LoftTag) f =>
          if known.contains (t.block * 32 + f.1.val) then x else x.1.returnCode l x.2 (t.block * 32 + f.1.val) f.2) (found, t) = (e, t') →
        exec (.loftReadReturn l codes) s = .next (s.put (t'.reqs.foldl (fun d r => d.returnOne l t' r) e))))) ∧
  (∀ (st : SiteId) (m : MsuId) (j : MvJob) (s : State),
    let d := s.dev
    let u := d.msu st m
    let settled := d.modMsu st m fun u => { u with mv := u.mv.settle d.now }
    (moverIssueEnabled st m d = true →
      ((d.tile st).msuCfgMode m = 3 → exec (.moverRequestIssue st m) s = .next (s.put (settled.updStep st m))) ∧
      ((d.tile st).msuCfgMode m ≠ 3 → exec (.moverRequestIssue st m) s = .next (s.put (settled.mvStep st m 64)))) ∧
    (moverCompleteEnabled st m d = true → u.mv.finished d.now = some j →
      let e := d.modMsu st m fun u => { u with mv := { u.mv with
        done := u.mv.done.push d.now (mvRecord j), jobs := eraseFirst (fun k => k == j) u.mv.jobs,
        bytesMoved := u.mv.bytesMoved + 64 * j.units } }
      exec (.moverTransferComplete st m) s = .next (s.put
        (if mvBellEn j.issued.desc then e.bellLater st (mvBell j.issued.desc) 1 else e))) ∧
    (updateCompleteEnabled st m d = true → u.upd.finished d.now = some j →
      let e := (d.modMsu st m fun u => { u with
        mv := { u.mv with done := u.mv.done.push d.now (udRecord j), bytesMoved := u.mv.bytesMoved + 64 * j.units },
        upd := { u.upd with jobs := eraseFirst (fun k => k == j) u.upd.jobs },
        complete := u.complete + 1 }).firedOne st (msuPos m)
      exec (.updateComplete st m) s = .next (s.put
        (if udBellEn j.issued.desc then e.bellLater st (udBell j.issued.desc) 1 else e))))

/-- Upkeep of a loft (R209, R213, R442): a patrol read of a codeword that the pass has not read yet counts a
corrected one and an uncorrectable one, which it posts, and leaves a clean one alone; the hottest of the eight layer sensors sets
the refresh rate; a returned window reads as zero and every address outside it
as before. Sparing (R495 to R497): a bad row with a spare left in its bank is replaced and recorded in the tables of
spared rows; a bad channel takes its layer's spare where that is free. What DRAM holds is the same after either. A first parity failure of a
channel's path is only noted. -/
def Obligations.LoftUpkeepKeepsData : Prop :=
  (∀ (l : SiteId) (off : BitVec 33) (layers : Vector (BitVec 16) 8) (base n : Nat) (s : State), s.dev.running = true →
    let d := s.dev
    let read := d.modLoft l fun lo => { lo with
      patrolPass := scrubPass d.now, patrolled := insertNat (off.toNat / 16) (lo.patrolSeen d.now) }
    let hot := hottestOf layers
    (patrolEnabled l off d = true → (d.loft l).badOf off.toNat 1 = [] →
      exec (.patrolScrub l off .clean) s = .next (s.put read) ∧
      exec (.patrolScrub l off .corrected) s = .next (s.put (read.modLoft l fun lo => lo.corrected l.val off.toNat d.now)) ∧
      exec (.patrolScrub l off .uncorrectable) s = .next (s.put ((read.modLoft l fun lo =>
        lo.uncorrectable off.toNat d.now).post 0 4 l.val 0xE001
          (payloadE (l.val * 2 ^ 33 + off.toNat / 64 * 64) l.val 0xFF 1 0xFF 0 0)))) ∧
    (hot.toInt ≤ 105 * 8 → exec (.refreshRateChange l layers) s = .next (s.put (d.modLoft l fun lo => { lo with
      layers := layers, temp := hot, refresh := BitVec.ofNat 8 (refreshOf lo.refresh.toNat hot.toInt) }))) ∧
    ((d.loft l).zeroing.find? (fun z => z.1 == base) = some (base, n) →
      ∃ e, exec (.windowZeroingComplete l base) s = .next (s.put e) ∧ OnlyLoft l d e ∧
        (∀ a, base * 4096 ≤ a → a < (base + n) * 4096 → (e.loft l).mem.read a = 0#8) ∧
        (∀ a, (a < base * 4096 ∨ (base + n) * 4096 ≤ a) →
          (e.loft l).mem.read a = (d.loft l).mem.read a))) ∧
  (∀ (l : SiteId) (ch : Fin 64) (bank : Fin 16) (row : Fin 4096) (s : State),
    (rowSparedEnabled l ch bank row s.dev = true →
      ∃ e, exec (.rowSpared l ch bank row) s = .next (s.put e) ∧ (e.loft l).mem = (s.dev.loft l).mem ∧
        (e.loft l).sparedRows = (s.dev.loft l).sparedRows ++ [rowOf ch bank row] ∧
        e.rowSpares = s.dev.rowSpares ++ [(l.val, ch.val, bank.val, row.val)] ∧
        ∀ l' : SiteId, l' ≠ l → e.loft l' = s.dev.loft l') ∧
    (channelSparedEnabled l ch .sound s.dev = true → (s.dev.loft l).layerSpent ch.val = false →
      ∃ e, exec (.channelSpared l ch .sound) s = .next (s.put e) ∧ (e.loft l).mem = (s.dev.loft l).mem ∧
        (e.loft l).sparedChans = insertNat ch.val (s.dev.loft l).sparedChans ∧
        ∀ l' : SiteId, l' ≠ l → (e.loft l').mem = (s.dev.loft l').mem) ∧
    (channelSparedEnabled l ch .parity s.dev = true → (s.dev.loft l).pathErrs = [] →
      exec (.channelSpared l ch .parity) s =
        .next (s.put (s.dev.modLoft l fun lo => { lo with pathErrs := [(ch.val, s.dev.now)] }))))

/-! ### The carillon, bells, messages and claims (R242 to R268, R519) -/

/-- BARRIER_ARRIVAL (R254, R255): all arrivals of the cycle leave the carillon together. At an enabled barrier those of
the current episode are counted; above LOCAL_TARGET, or with one of the episode before, BARRIER_OVERRUN is raised on the
barrier's paddock, nothing is released, and no later arrival is counted; otherwise a complete barrier releases or reports to its parent. At a disabled
barrier every paddock that an arrival of the cycle comes from gets one BARRIER_OVERRUN. RELEASE_ARRIVAL (R226, R256): the oldest
release due at the site leaves the carillon and the tile's copy of that barrier takes the new episode; where it is the
commit barrier of the site's paddock and context 0 waits at it, the phase starts at the end of the cycle. -/
def Obligations.BarriersCountAndRelease : Prop :=
  (∀ (b : BarId) (k : PadId) (s : State), arrivalEnabled b s.dev = true →
    let l := s.dev.car.arrivals b.val
    let q := s.dev.bar b
    let n := q.count + (l.filter fun a => a.1 == q.episode).length
    let taken := { s.dev with car := { s.dev.car with inbox := s.dev.car.inbox.filter fun m => match m.2 with
      | .arrive bar .. => bar != b.val || m.1 != s.dev.car.arrivalCycle b.val
      | _ => true } }
    let d := taken.modBar b fun q => q.setState 0 16 n
    (q.enabled = true → q.stuck = true → exec (.barrierArrival b) s = .next (s.put taken)) ∧
    (q.enabled = true → q.stuck = false → q.pad = k.val →
      ((l.any fun a => a.1 == q.episode - 1) = true ∨ q.target < n) →
      exec (.barrierArrival b) s = .next (s.put ((d.modBar b fun q => { q with stuck := true }).overrun k b))) ∧
    (q.enabled = true → q.stuck = false → (l.any fun a => a.1 == q.episode - 1) = false → n ≤ q.target →
      exec (.barrierArrival b) s = .next (s.put (d.checkBar b))) ∧
    (q.enabled = false → exec (.barrierArrival b) s = .next (s.put
      ((l.filterMap fun a => s.dev.padOf a.2).dedup.foldl (fun d k => d.overrun k b) taken)))) ∧
  (∀ (st dst : SiteId) (b due : Nat) (e : BitVec 2) (s : State), releaseEnabled st s.dev = true →
    s.dev.car.releases.find? (s.dev.releaseDue st) = some (dst, b, e, due) →
    let r := (dst, b, e, due)
    let d := { s.dev with car := { s.dev.car with
      releases := eraseFirst (fun q => q == r) s.dev.car.releases } }.modCtl st fun c => c.setEpisode b e
    let commit := (s.dev.tile st).commitWait = true ∧ (s.dev.padOf st).map (·.val + 240) = some b ∧ s.dev.tileUp st = true
    (¬ commit → exec (.releaseArrival st) s = .next (s.put d)) ∧
    (commit → exec (.releaseArrival st) s = .next (s.put (d.modTile st fun t => { t with startDue := true }))))

/-- WORK_COUNTER_OP (R259): a counter adds one to VALUE, saturating, and answers the pair before the addition to the
request that is first by arrival, site and context; no other counter changes. CLAIM_WORD_UPDATE (R243): on a readable
word of a granted window a claim of a generation already DONE leaves memory as it is and answers 0; any other writes
generation, DONE and tile number and answers 1. Stated of the loft's own tile, where the answer needs no packet, and of
another's, where it is one. A bell add that arrives takes effect in its cycle and is acknowledged, an acknowledgement reaches its
context, and a register write pops a queue (R249, R252, R263): in each case nothing else of the device changes. -/
def Obligations.CountersClaimsAndBells : Prop :=
  (∀ (c : Fin 256) (at_ n : Nat) (src : SiteId) (ctx : CtxId) (s : State), workEnabled c s.dev = true →
    s.dev.car.nextWork c.val = some (at_, .workReq n src ctx) →
    ∃ e, exec (.workCounterOp c) s = .next (s.put e) ∧
      (e.car.works[c]).value = satInc (s.dev.car.works[c]).value ∧ (e.car.works[c]).gen = (s.dev.car.works[c]).gen ∧
      (∀ c' : Fin 256, c' ≠ c → e.car.works[c'] = s.dev.car.works[c']) ∧
      (∃ p : MeshPkt, e.mesh = s.dev.mesh ++ [p] ∧ p.dests = [src] ∧
        p.body = .workRsp ctx (s.dev.car.works[c]).gen (s.dev.car.works[c]).value) ∧
      e.tiles = s.dev.tiles ∧ e.lofts = s.dev.lofts) ∧
  (∀ (l src : SiteId) (a tile : Nat) (gen : BitVec 16) (c : CtxId) (rest : List MeshMsg) (p : Paddock) (s : State),
    claimEnabled l s.dev = true → s.dev.claims[l] = .claimReq a gen tile src c :: rest →
    (s.dev.padOf src).bind s.dev.pad = some p → p.granted l.val (dramOff a) 8 = true →
    (s.dev.loft l).badIn (dramOff a) 8 = none →
    let d := { s.dev with claims := vmod s.dev.claims l fun _ => rest }.modLoft l fun lo => lo.touchBoth (dramOff a)
    let w := leNat ((s.dev.loft l).mem.readN (dramOff a) 8)
    let dup := fld w 0 16 = gen.toNat ∧ bitOf w 16 = true
    let stored := d.modLoft l fun lo => lo.store (dramOff a) (leBytes 8 (gen.toNat + 2 ^ 16 + tile % 64 * 2 ^ 32)) d.now
    let answer (d : Dev) (r : Nat) : Dev :=
      if src = l then d.claimAnswer src c r
      else d.launch { at_ := l, dests := [src], vc := 1, prio := false, src := l.val, paddock := d.padOf src, inPort := 5,
                      body := .claimRsp c r }
    (dup → exec (.claimWordUpdate l .clean) s = .next (s.put (answer d 0))) ∧
    (¬ dup → exec (.claimWordUpdate l .clean) s = .next (s.put (answer stored 1)))) ∧
  (∀ (st src : SiteId) (b n : Nat) (ctx : CtxId) (q : Byte) (s : State),
    let d := s.dev
    (bellArrivalEnabled st d = true → (d.tile st).firstMsg MeshMsg.isBellAdd = some (.bellAdd b n src ctx) →
      exec (.bellAddArrival st) s = .next (s.put
        (((d.takeMsg st (.bellAdd b n src ctx)).bellAdd st b n).meshTo st src 2 true (.bellAck ctx)))) ∧
    (bellAckEnabled st d = true → (d.tile st).firstMsg MeshMsg.isBellAck = some (.bellAck ctx) →
      exec (.bellAddAcknowledgement st) s = .next (s.put
        ((d.takeMsg st (.bellAck ctx)).modCtx st ctx fun x => { x with bellAcks := x.bellAcks - 1 }))) ∧
    (d.running = true → d.hasTile st = true → exec (.tileQueuePop st q) s = .next (s.put
      (d.modTile st fun t => { t with queues := vmodN t.queues q.toNat fun v => { v with entries := v.entries.eraseIdx v.taking } }))))

/-- The decision on a message (R263, R264, R266), in the order of its tests: no usable image or no open run answers NAK_NO_QUEUE,
a rank not below TILE_RANK NAK_RANK, a disabled queue NAK_NO_QUEUE; a RING queue takes it as a record where its region has room
and answers NAK_FULL where it has none; each refusal counts in TILE_QUEUE_DROPS and changes no queue. In QUEUE mode the message,
filled to 64 bytes, is the queue's last entry. With sixteen entries there it waits for the end of the cycle, and is refused with
NAK_FULL only where no entry has been removed by then. The sender's side of a message (R266, R267): NAK_FULL before the 255th
resend puts the channel into BACKOFF for the wait of the schedule, and a refusal for good into STUCK with CHANNEL_REJECTED
(0x4003); the resend counts as a try and transmits again; no response for 1,048,576 cycles raises CHANNEL_STUCK (0x4002). A
sample record that has room is given to the tile port word by word, and its last word ends it and counts it (R519). -/
def Obligations.MessagesDecidedAndRetried : Prop :=
  (∀ (st src : SiteId) (qn ch : Nat) (rank : BitVec 16) (bytes : Bytes) (prio : Bool) (s : State),
    let d := s.dev
    let t := d.tile st
    let q := vgetN t.queues qn {}
    messageEnabled st d = true → t.firstMsg MeshMsg.isMessage = some (.message qn rank bytes src ch prio) →
    let got := d.takeMsg st (.message qn rank bytes src ch prio)
    let taken := got.modTile st fun t => { t with msgAt := some d.now }
    let refused (r : MsgResp) : Dev :=
      (taken.modTile st fun t => { t with drops := t.drops.inc d.now }).meshTo st src 2 prio (.msgResp ch r)
    let usable := t.ctl.cfgBank.getLsbD 3 = true ∧ d.runOpen (d.padOf st) = true
    (¬ usable → exec (.messageDelivery st) s = .next (s.put (refused .nakNoQueue))) ∧
    (usable → t.ctl.rank.toNat ≤ rank.toNat → exec (.messageDelivery st) s = .next (s.put (refused .nakRank))) ∧
    (usable → rank.toNat < t.ctl.rank.toNat → q.enabled = false →
      exec (.messageDelivery st) s = .next (s.put (refused .nakNoQueue))) ∧
    (usable → rank.toNat < t.ctl.rank.toNat → q.enabled = true → q.ring = true →
      ((got.tile st).placeRing q.region q.msu d.anow bytes = none →
        exec (.messageDelivery st) s = .next (s.put (refused .nakFull))) ∧
      (∀ t', (got.tile st).placeRing q.region q.msu d.anow bytes = some t' → exec (.messageDelivery st) s = .next (s.put
        ((taken.modTile st fun _ => { t' with msgAt := some d.now }).meshTo st src 2 prio (.msgResp ch .ack))))) ∧
    (usable → rank.toNat < t.ctl.rank.toNat → q.enabled = true → q.ring = false → 16 ≤ q.entries.length →
      exec (.messageDelivery st) s = .next (s.put
        (taken.modTile st fun t => { t with fullMsg := some { queue := qn, bytes := bytes, sender := (src, ch, prio) } }))) ∧
    (usable → rank.toNat < t.ctl.rank.toNat → q.enabled = true → q.ring = false → q.entries.length < 16 →
      exec (.messageDelivery st) s = .next (s.put
        ((taken.modTile st fun t => { t with
          queues := vmodN t.queues qn fun q => { q with entries := q.entries ++ [padTo 64 bytes] } }).meshTo st src 2 prio
            (.msgResp ch .ack))))) ∧
  (∀ (st src : SiteId) (qn ch : Nat) (bytes : Bytes) (prio : Bool) (d : Dev),
    (d.tile st).fullMsg = some { queue := qn, bytes := bytes, sender := (src, ch, prio) } →
    let free := d.modTile st fun t => { t with fullMsg := none }
    let n := (vgetN (d.tile st).queues qn {}).entries.length
    (16 ≤ n → d.settleMsg st =
      (free.modTile st fun t => { t with drops := t.drops.inc d.now }).meshTo st src 2 prio (.msgResp ch .nakFull)) ∧
    (n < 16 → d.settleMsg st = (free.modTile st fun t => { t with
      queues := vmodN t.queues qn fun q => { q with entries := q.entries ++ [padTo 64 bytes] } }).meshTo st src 2 prio
        (.msgResp ch .ack))) ∧
  (∀ (st : SiteId) (ch : Fin 64) (e : SendEntry) (r : MsgResp) (s : State),
    let d := s.dev
    let h := d.chan st ch
    let taken := d.takeMsg st (.msgResp ch.val r)
    (respEnabled st d = true → (d.tile st).firstMsg MeshMsg.isMsgResp = some (.msgResp ch.val r) →
      h.state = .inFlight → h.current = some e →
      (r = .nakFull → h.tries < 255 → exec (.messageResponse st) s = .next (s.put
        ((taken.modTile st fun t => { t with pmc := { t.pmc with naks := t.pmc.naks + 1 } }).modChan st ch fun h =>
          { h with state := .backoff, resendAt := d.timer st + min (64 * 2 ^ min h.tries 6) 4096 }))) ∧
      ((r = .nakRank ∨ r = .nakNoQueue) → exec (.messageResponse st) s = .next (s.put (taken.stick st ch 0x4003)))) ∧
    (resendEnabled st ch d = true → exec (.backoffResend st ch) s = .next (s.put
      ((d.modChan st ch fun h => { h with tries := h.tries + 1 }).transmit st ch))) ∧
    (stuckEnabled st ch d = true → exec (.channelStuck st ch) s = .next (s.put
      ((d.modChan st ch fun h => { h with state := .stuck }).ctxFault st ((h.current.map (·.ctx)).getD 0)
        { code := 0x4002, unit := some 31, extra := [ch.val, h.tile, h.queue, h.dev, h.tries] }))) ∧
    (∀ rec skip, sampleEnabled st d = true → (d.tile st).pmc.smpHeld = some rec →
      let reg := (d.tile st).regionAt (d.tile st).pmc.sampleRegion
      reg.place d.anow (recLen rec.length) = some skip →
      exec (.sampleRecordWrite st) s = .next (s.put (d.modTile st fun t =>
        { t with pmc := { t.pmc with smpWrites := reg.sampleWords skip rec } })))) ∧
  (∀ (t : Tile) (now nclk : Nat) (w : Nat × Bytes × Nat), t.pmc.smpWrites = [w] →
    (t.sampleGranted now nclk).pmc = { t.pmc with
      smpWrites := [], smpHeld := none, smpWritten := t.pmc.smpWritten.inc nclk })

/-! ### Beats, power of tiles, the scrubber and the mesh (R308 to R331, R443 to R449, R527 to R529) -/

/-- BEAT_BOUNDARY (R443, R444, R446): once the beat has ended the next one is current, and every paddock is held exactly
when the table names it in some entry and not in the current one. Before that nothing happens. TILE_POWER_CHANGE and
TILE_WAKE (R527 to R529): a site sinks to the deeper state that its paddock's condition gives, and nothing else of the
device changes; it wakes when the condition gives a lighter one. A tile that wakes from RETAIN or OFF makes a known-answer
scan, which a scrubber that works passes; one that fails it is retired. -/
def Obligations.BeatsHoldAndTilesSleep : Prop :=
  (∀ (b : Beats) (s : State), s.dev.worvis = true → s.dev.beats = some b →
    (s.dev.now < b.ends → exec .beatBoundary s = .next s) ∧
    (b.ends ≤ s.dev.now → Completes .beatBoundary s fun e =>
      e.beats = some b.next ∧ e.lofts = s.dev.lofts ∧ e.car = s.dev.car ∧
      ∀ (k : PadId) (p : Paddock), e.pad k = some p → p.held = (b.next.names k && b.next.named != some k))) ∧
  (∀ (st : SiteId) (katPass : Bool) (s : State), s.dev.worvis = true →
    let d := s.dev
    (d.power st < d.powerFor st → ∃ e, exec (.tilePowerChange st) s = .next (s.put e) ∧ OnlyTile st d e ∧
      e.power st = d.powerFor st ∧ (e.tile st).router = (d.tile st).router) ∧
    (d.powerFor st ≤ d.power st → exec (.tilePowerChange st) s = .next s) ∧
    (d.powerFor st < d.power st → (katPass = true ∨ d.power st < 2) →
      exec (.tileWake st katPass) s = .next (s.put (d.wake st))) ∧
    (d.powerFor st < d.power st → (d.tile st).scrub.works = true ∨ d.power st < 2 → (d.wake st).power st = 0) ∧
    (d.powerFor st < d.power st → (d.tile st).scrub.works = false → 2 ≤ d.power st → (d.wake st).kinds[st] = .retired) ∧
    (d.powerFor st < d.power st → katPass = false → 2 ≤ d.power st →
      exec (.tileWake st katPass) s = .next (s.put ((d.wake st).retireTile st (some 0xE004)))))

/-- SCRUBBER_ACCESS (R309 to R311): the access of the walker whose turn it is, of a word that the code can read, corrects, counts
and steps on, and touches nothing but the scrubber of its tile; an uncorrectable word has the effect of R311 after it.
SCRUBBER_VOTE (R312): three equal copies stand; two equal copies give all three their value and count a vote, and so do three
that differ, which halt the scrubber. A disagreement counts towards the tile's retirement (R488). The checks on scrubbers and
remounts (R313, R314, R488): only the yardmaster's write asks for a known-answer scan, which a scrubber that works passes; a tile
whose heartbeat stands still at a check is retired with SCRUBBER_FAILED (0xE004); a dark remount that passes its self-test
stays one, its test noted, and one that fails is retired, for good. -/
def Obligations.ScrubberWalksVotesAndIsChecked : Prop :=
  (∀ (st : SiteId) (a : CfgArea) (word : Nat) (ecc : Ecc) (s : State),
    s.dev.running = true → s.dev.hasTile st = true → s.dev.walks st a word = true →
    let walked := s.dev.modTile st fun t => { t with scrub := t.scrub.walk a ecc s.dev.now }
    (ecc ≠ .uncorrectable → exec (.scrubberAccess st a word ecc) s = .next (s.put walked)) ∧
    (ecc = .uncorrectable → exec (.scrubberAccess st a word ecc) s = .next (s.put (walked.cfgUncorrectable st a word)))) ∧
  (∀ (st : SiteId) (x y z : Nat) (s : State),
    s.dev.running = true → s.dev.hasTile st = true → s.dev.power st < 3 → (s.dev.tile st).scrub.halted = false →
    x < 2 ^ scrubBits → y < 2 ^ scrubBits → z < 2 ^ scrubBits →
    let after (c : Scrubber → Scrubber) : Dev := s.dev.modTile st fun t => { t with scrub := c t.scrub }
    let all (v : Nat) (c : Scrubber) : Scrubber := { c with copyA := v, copyB := v, copyC := v }
    let counted (d : Dev) : Dev := d.countUpset st (·.votes) (fun h l => { h with votes := l }) hour 16
    (x = y → y = z → exec (.scrubberVote st x y z) s = .next (s.put (after (all x)))) ∧
    (x ≠ z → (x = y ∨ y = z) → exec (.scrubberVote st x y z) s = .next (s.put
      (counted (after fun c => { all y c with vote := c.vote.inc s.dev.now })))) ∧
    (x = z → x ≠ y → exec (.scrubberVote st x y z) s = .next (s.put
      (counted (after fun c => { all x c with vote := c.vote.inc s.dev.now })))) ∧
    (x ≠ y → y ≠ z → x ≠ z → exec (.scrubberVote st x y z) s = .next (s.put
      (counted (after fun c => { c with copyA := x, copyB := y, copyC := z, vote := c.vote.inc s.dev.now, halted := true }))))) ∧
  (∀ (st : SiteId) (src : Accessor) (seed : Word) (s : State),
    let d := s.dev
    (d.running = true → d.hasTile st = true → d.power st < 2 →
      (src = .yardmaster → exec (.tileScrubKatCmd st src seed) s = .next (s.put
        (d.modTile st fun t => { t with scrub := { t.scrub with kat := 0#64, katSeed := some seed } }))) ∧
      (src ≠ .yardmaster → exec (.tileScrubKatCmd st src seed) s = .next s)) ∧
    ((d.tile st).scrub.works = true → (((d.tile st).askScan seed).scan).scrub.scanOk seed = true) ∧
    (d.worvis = true → d.hasTile st = true → d.power st < 2 → d.ym.handover = [] →
      (d.tile st).scrub.checkedAt + msN 1 ≤ d.now → BitVec.ofNat 32 (d.tile st).scrub.beat = (d.tile st).scrub.lastBeat →
      exec (.scrubberCheck st) s = .next (s.put
        (({ d with freeCtr := d.freeCtr + 1 }.modTile st fun t => { t with
          scrub := { t.scrub with checkedAt := d.now } }).retireTile st (some 0xE004)))) ∧
    (d.worvis = true → d.kinds[st] = .darkRemount → (d.ym.hist[st]).testedAt + day ≤ d.now →
      exec (.remountSelfTest st true) s = .next (s.put (d.noteTest st)) ∧
      exec (.remountSelfTest st false) s = .next (s.put ((d.noteTest st).retireTile st none))) ∧
    (∀ code, (d.retireTile st code).kinds[st] = .retired))

/-- ROUTER_FORWARD and SEAM_LINK_RETIRED (R323 to R325, R327, R331): a readable packet that its outputs grant begins to leave its
buffer and goes out on every branch that leads to one of its destinations: at the router where it leaves the mesh, to its
endpoint 6 cycles on and one for each further flit, and at any other, into the next router's buffer 4 cycles on, or 6 over the
seam. One with a bad word is discarded whole; the corrected words of any other are counted one by one. A retired seam link is out of service and no other link of the seam changes; without the last link of a crossing the device has
failed (R503). -/
def Obligations.RouterForwardsOrDiscards : Prop :=
  ∀ (st : SiteId) (n : Nat) (p : MeshPkt) (col : Fin 6) (link : Fin 4) (s : State),
    let d := s.dev
    let left := d.beginLeave p
    let sent (r : Router) : Router := { r with hiWait := if p.prio then r.hiWait.note d.now (d.now - p.since) else r.hiWait }
    (forwardEnabled st n d = true → (d.atRouter st)[n]? = some p →
      exec (.routerForward st n .badPayload) s = .next (s.put (left.flitBad p false)) ∧
      exec (.routerForward st n .badHeader) s = .next (s.put (left.flitBad p true)) ∧
      ∀ words, exec (.routerForward st n (.fine words)) s = .next (s.put ((d.branches p).foldl (fun d b => d.branch p b)
        (left.modTile st fun t => { t with router := { sent t.router with ce := t.router.ce.add d.now words.val } })))) ∧
    (∀ o l, let granted := d.modTile p.at_ fun t => { t with router := { t.router with
        outs := vmodN t.router.outs o fun r => r.grant p d.now } }
      (p.at_ ∈ l → d.branch p (o, l) = { granted with landing := granted.landing ++ [(d.now + 6 + (p.flits - 1), p)] }) ∧
      (p.at_ ∉ l → d.branch p (o, l) = granted.join
        { p with at_ := meshNext p.at_ o, dests := if p.pr.isSome then p.dests else l, inPort := inAt o }
          (d.now + (if 8 ≤ o then 6 else 4)))) ∧
    (seamEnabled col link d = true → ∃ e, exec (.seamLinkRetired col link) s = .next (s.put e) ∧
      e.seam[col] = d.seam[col] &&& ~~~ BitVec.ofNat 4 (2 ^ link.val) ∧
      (∀ col' : Fin 6, col' ≠ col → e.seam[col'] = d.seam[col']) ∧ e.lofts = d.lofts ∧
      (e.seam[col] ≠ 0#4 → e.tiles = d.tiles) ∧ (e.seam[col] = 0#4 → e.ym.failed = true))

/-! ### The host port (R394 to R416) -/

/-- MAILBOX_DOORBELL, MAILBOX_ACK and EVENT_CONSUME (R407, R408, R413): a doorbell on an EMPTY mailbox makes the command
in its buffer PENDING; an acknowledgement of the READY response's SEQ empties the mailbox; a consumer index within the
ring is taken. Any other is ignored and counted, and an acknowledgement with a doorbell behind it releases one response
and submits the next command. Nothing but that mailbox or ring changes. -/
def Obligations.MailboxHandshake : Prop :=
  ∀ (n : MbId) (seq : BitVec 16) (v : Word) (s : State), windowUp s.dev = true →
    let d := s.dev
    let b := d.mb n
    let r := d.rings[n]
    let counted := d.modMb n fun b => { b with refused := b.refused.inc d.now }
    (b.state = .empty → d.mailboxReady = true → exec (.mailboxDoorbell n) s = .next (s.put
      (d.modMb n fun b => b.submit (b.cmdBuf.readN 0 4096)))) ∧
    ((b.state ≠ .empty ∨ d.mailboxReady = false) → exec (.mailboxDoorbell n) s = .next (s.put counted)) ∧
    (b.state = .ready → b.seq = seq → exec (.mailboxAck n seq) s = .next (s.put (d.modMb n Mailbox.release))) ∧
    ((b.state ≠ .ready ∨ b.seq ≠ seq) → exec (.mailboxAck n seq) s = .next (s.put counted)) ∧
    (b.state = .ready → b.seq = seq → d.mailboxReady = true → b.release.state = .empty ∧
      exec (.mailboxDoorbell n) (s.put (d.modMb n Mailbox.release)) = .next (s.put
        (d.modMb n fun b => b.release.submit (b.cmdBuf.readN 0 4096)))) ∧
    ((r.prod - v).toNat ≤ r.records → exec (.eventConsume n v) s = .next (s.put
      { d with rings := vmod d.rings n fun r => { r with cons := v } })) ∧
    (r.records < (r.prod - v).toNat → exec (.eventConsume n v) s = .next (s.put counted))

/-- Messages from the host (R396, R400, R402): of a WIN_READ, a WIN_WRITE or a COPY_WRITE, one whose fields are
malformed is refused with 0x7001, and one beyond the credit given in its own class with 0x7003, whatever it asks; a message of no
type that the host may send is refused with 0x7001. All are counted in HOST_MSG_REFUSED and answered by an ERROR. A good access to
the window is performed, and crosses the mesh (log entry 71, the model's choice). Copies at the host port (R299, R399,
R432): a COPY_WRITE that the copy's rules take stores its bytes, advances the copy and counts in HOST_COPY_BYTES; an OUT
copy sends the next piece of its range as one MEM_WRITE; a CREDIT replaces the host's counts and what waited for credit
goes out. -/
def Obligations.HostMessagesAndCopies : Prop :=
  (∀ (m : ModId) (h : HostHdr) (data : Bytes) (s : State), receives m s.dev = true →
    let d := s.dev
    let x := d.module m
    let got (p np : Nat) : Dev := d.modModule m fun x => { x with rcvdP := x.rcvdP + p, rcvdNp := x.rcvdNp + np }
    let slots := 1 + ceilDiv h.len.toNat 16
    let badW := d.windowBad m h || data.length != h.len.toNat
    (hdrKnown h = false → h.mtype ≠ 0#8 →
      exec (.winRead m h) s = .next (s.put (d.refuseHost 0x7001 h)) ∧
      exec (.winWrite m h data) s = .next (s.put (d.refuseHost 0x7001 h)) ∧
      exec (.copyWrite m h data) s = .next (s.put (d.refuseHost 0x7001 h)) ∧
      exec (.credit m h) s = .next (s.put (d.refuseHost 0x7001 h))) ∧
    (h.mtype = 0x01#8 →
      (d.windowBad m h = true → exec (.winRead m h) s = .next (s.put ((got 0 1).refuseHost 0x7001 h))) ∧
      (d.windowBad m h = false → 64 + x.retNp < x.rcvdNp + 1 →
        exec (.winRead m h) s = .next (s.put ((got 0 1).refuseHost 0x7003 h))) ∧
      (d.windowBad m h = false → x.rcvdNp + 1 ≤ 64 + x.retNp →
        exec (.winRead m h) s = .next (s.put ((((got 0 1).windowClear h.addr.toNat h.len.toNat).windowTrip m 0 h.len.toNat).say m
          (.winData m h.tag h.addr ((got 0 1).windowRead s.fuse h.addr.toNat h.len.toNat)))))) ∧
    (h.mtype = 0x02#8 →
      (badW = true → exec (.winWrite m h data) s = .next (s.put ((got slots 0).refuseHost 0x7001 h))) ∧
      (badW = false → 4096 + x.retP < x.rcvdP + slots →
        exec (.winWrite m h data) s = .next (s.put ((got slots 0).refuseHost 0x7003 h))) ∧
      (badW = false → x.rcvdP + slots ≤ 4096 + x.retP →
        exec (.winWrite m h data) s = .next (s.put (((got slots 0).windowWrite h.addr.toNat data).windowTrip m data.length 0)))) ∧
    (h.mtype = 0x03#8 →
      (copyWriteBad h data = true → exec (.copyWrite m h data) s = .next (s.put ((got slots 0).refuseHost 0x7001 h))) ∧
      (copyWriteBad h data = false → 4096 + x.retP < x.rcvdP + slots →
        exec (.copyWrite m h data) s = .next (s.put ((got slots 0).refuseHost 0x7003 h))) ∧
      (copyWriteBad h data = false → x.rcvdP + slots ≤ 4096 + x.retP → d.copyOf h.handle.toNat = none →
        exec (.copyWrite m h data) s = .next (s.put ((got slots 0).refuseHost 0x7002 h))))) ∧
  (∀ (m : ModId) (h : HostHdr) (data : Bytes) (i : Fin 16) (a : BitVec 64) (n : Nat) (s : State),
    let d := s.dev
    let x := d.module m
    let slots := 1 + ceilDiv h.len.toNat 16
    let got := d.modModule m fun x => { x with rcvdP := x.rcvdP + slots, rcvdNp := x.rcvdNp + 0 }
    let c := d.copies[i]
    let counted (e : Dev) : Dev :=
      { e with host := { e.host with copyBytes := e.host.copyBytes + BitVec.ofNat 64 data.length } }
    (receives m d = true → h.mtype = 0x03#8 → copyWriteBad h data = false → x.rcvdP + slots ≤ 4096 + x.retP →
      d.copyOf h.handle.toNat = some i →
      (∀ e, c.kind = .copyIn → got.copyIn m i h.addr.toNat data = (e, true) →
        exec (.copyWrite m h data) s = .next (s.put (counted e))) ∧
      (∀ e, c.kind = .stream → got.streamIn m i h.addr.toNat data = (e, true) →
        exec (.copyWrite m h data) s = .next (s.put (counted e)))) ∧
    (outEnabled i m d = true → c.nextOut = some (a, n) → 0 < (c.outRange n).2 →
      let r := c.outRange n
      let sends (d e : Dev) : Prop := exec (.copyOutTransfer i m .clean) s = .next (s.put
        (((e.say m (.memWrite m a (d.outBytes c n))).modCopy i fun c => { c with
          unitBuf := if c.session.isSome then d.outUnit c else []
          moved := c.moved + n, ended := c.total ≤ c.moved + n
          owed := (m, ((e.say m (.memWrite m a (d.outBytes c n))).module m).sentP) :: c.owed.filter fun o => o.1 != m }).settleCopies))
      (c.reads = true → d.badLinear r.1 r.2 = false → sends d (d.carryCopy m true c.paddock r.1 r.2)) ∧
      (c.reads = false → sends d d)) ∧
    (receives m d = true → h.mtype = 0x0F#8 → creditBad h = false →
      let p := BitVec.ofNat 16 (bvFld h.addr 0 16)
      exec (.credit m h) s = .next (s.put (((d.modModule m fun x => { x with
        hostRet := if x.gotCredit then x.hostRet + (p - x.hostP).toNat else 0, hostP := p,
        hostNp := BitVec.ofNat 16 (bvFld h.addr 16 16), hostCpl := BitVec.ofNat 16 (bvFld h.addr 32 16),
        gotCredit := true }).flush m).settleCopies))) ∧
    (receives m d = true → h.mtype = 0x0F#8 → creditBad h = true →
      exec (.credit m h) s = .next (s.put (d.refuseHost 0x7001 h))))

/-- Event rings (R410, R413): the records that wait go to consecutive places of the ring while there is room, then PROD
to PROD_ADDR and the vector; a vector held back for 2 µs goes out when they have passed. Training of a module (R394,
R395, R396, R399): success gives its width and sends the first CREDIT ahead of what waits, of which an older CREDIT is dropped; a
third failure takes the module down for good; a repaired lane keeps the width or degrades it to x32, and an unrepaired one makes
the module train again. That the records and the vector also cross the mesh is log entry 71, the model's choice. -/
def Obligations.RingsAndModules : Prop :=
  (∀ (n : MbId) (s : State),
    let d := s.dev
    let r := d.rings[n]
    let b := r.burst d.stamp
    let w := d.windowMod
    (ringEnabled n d = true → exec (.eventRingWrite n) s = .next (s.put
      (((b.2.zipIdx.foldl (fun (d : Dev) x =>
        d.say w (.memWrite w (r.base + BitVec.ofNat 64 (32 * ((r.prod.toNat + x.2) % r.records))) x.1.bytes))
        ({ d with rings := vmod d.rings n fun _ => b.1 }.carry prYard (prOfModule w) 0 false none (32 * b.2.length + 8))).say w
          (.memWrite w r.prodAddr (leBytes 8 b.1.prod.toNat))).vector n))) ∧
    (windowUp d = true → r.vectorDue = true → r.vectorFree d.now = true → (d.mb n).cfg.getLsbD 1 = true →
      exec (.eventVector n) s = .next (s.put
        (({ d with rings := vmod d.rings n fun r => { r with lastVector := some d.now, vectorDue := false } }.carry prYard
          (prOfModule w) 0 false none 0).sayWindow (.doorbell w (32 + n.val)))))) ∧
  (∀ (m : ModId) (x32 : Bool) (s : State),
    let d := s.dev
    let x := d.module m
    let trains := d.running = true ∧ x.trained = false ∧ x.stayDown = false
    (trains → exec (.ucieTraining m x32 true) s = .next (s.put (((((d.forgetOwed m).modModule m fun x =>
      { width := if x32 then 1 else 2
        queue := .credit m 4096#16 64#16 0#16 :: x.queue.filter fun q => !q.isCredit }).flush m).moveWindow d.windowMod).health))) ∧
    (trains → x.fails < 2 → exec (.ucieTraining m x32 false) s = .next (s.put
      (d.modModule m fun x => { x with fails := x.fails + 1 }))) ∧
    (trains → 2 ≤ x.fails → exec (.ucieTraining m x32 false) s = .next (s.put (d.moduleLost m))) ∧
    (receives m d = true →
      exec (.ucieLaneRepair m true x32) s = .next (s.put
        ((d.modModule m fun x => { x with width := if x32 then 1 else x.width }).health)) ∧
      exec (.ucieLaneRepair m false x32) s = .next (s.put (((d.modModule m fun x => { x with
        fails := 0, width := 0, queue := x.queue.filter fun q => !q.isCredit }).moveWindow d.windowMod).health))))

/-! ### Long operations and image load (R297 to R305, R417 to R419, R433, R434, R441) -/

/-- OP_START (R417): a queued operation whose needs are free is RUNNING, and its work begins: a load clears what R297
names, a run goes on from where it stands, a checkpoint's SAVE takes the bytes that it is to write (log entry 88, the model's
choice), and any other operation of work by points changes nothing more.
OP_POINT_REACHED (R419): work by points does one more unit and is suspended or cancelled there where that was asked, a cancelled save being discarded, unless
that unit has failed it; a run is suspended at a phase drain, its paddock with it, and cancelled at once; a staging that is cancelled leaves its
slot erased. Only the last writes flash, and only its own slot; no other writes fuses or flash. -/
def Obligations.OperationsStartAndStopAtPoints : Prop :=
  (∀ (slot : Fin 64) (s : State), startEnabled slot s.dev = true →
    let o := s.dev.op slot
    let d := s.dev.setOp slot .running 0
    ((o.typ = .scrub ∨ o.typ = .dramTest ∨ o.typ = .fwStage ∨ (o.typ = .checkpoint ∧ o.args.getD 0 0 = 1)) →
      exec (.opStart slot) s = .next (s.put d)) ∧
    (∀ k p, o.paddock = some k → o.typ = .checkpoint → o.args.getD 0 0 = 0 → d.pad k = some p →
      exec (.opStart slot) s = .next (s.put (d.modOp slot fun x =>
        { x with data := (d.ckptSave k p (o.args.getD 3 0)).1, bad := (d.ckptSave k p (o.args.getD 3 0)).2 }))) ∧
    (∀ k, o.paddock = some k → o.typ = .imageLoad → exec (.opStart slot) s = .next (s.put (d.startLoad k))) ∧
    (∀ k, o.paddock = some k → o.typ = .run → exec (.opStart slot) s = .next (s.put (d.goOn k))) ∧
    (o.typ = .routeRebuild → ∃ e, exec (.opStart slot) s = .next (s.put e) ∧
      e.tiles = s.dev.tiles ∧ e.lofts = s.dev.lofts)) ∧
  (∀ (slot : Fin 64) (s : State), pointEnabled slot s.dev = true →
    let d := s.dev
    let o := d.op slot
    let work := o.typ = .scrub ∨ o.typ = .dramTest ∨ o.typ = .checkpoint
    (work → o.state = .running → exec (.opPointReached slot) s = .next (s.put (d.workStep slot))) ∧
    (work → ((d.workStep slot).op slot).state = .failed →
      exec (.opPointReached slot) s = .next (s.put (d.workStep slot))) ∧
    (work → o.state = .suspending → ((d.workStep slot).op slot).state.final = false →
      exec (.opPointReached slot) s = .next (s.put ((d.workStep slot).setOp slot .suspended 0))) ∧
    (work → o.state = .cancelling → ((d.workStep slot).op slot).state.final = false →
      exec (.opPointReached slot) s = .next (s.put (((d.workStep slot).setOp slot .cancelled 0).dropSave slot))) ∧
    (∀ k, o.typ = .run → o.state = .suspending → o.paddock = some k → exec (.opPointReached slot) s = .next (s.put
      ((d.modPad k fun p => { p with state := .suspended, suspendDue := false }).setOp slot .suspended 0))) ∧
    (o.typ = .run → o.state = .cancelling → exec (.opPointReached slot) s = .next (s.put (d.setOp slot .cancelled 0))) ∧
    (o.typ = .imageLoad → o.state = .suspending →
      exec (.opPointReached slot) s = .next (s.put (d.setOp slot .suspended 0))) ∧
    (o.typ = .imageLoad → o.state = .cancelling →
      exec (.opPointReached slot) s = .next (s.put (d.endLoad slot .cancelled 0))) ∧
    (o.typ = .routeRebuild → exec (.opPointReached slot) s = .next (s.put
      ({ d with rebuild := none, fab := { d.fab with rebuildAcks := [] } }.setOp slot .cancelled 0))) ∧
    (o.typ = .fwStage → exec (.opPointReached slot) s = .next
      { s with
        fuse := { s.fuse with slots := vsetN s.fuse.slots (o.args.getD 0 0) (some []) },
        dev := { d with staging := none }.setOp slot .cancelled 0 }))

/-- OP_COMPLETE of FW_STAGE (R434, R478): the slot holds the bytes staged, whatever their checks say; firmware whose
security version exceeds 255, whose signature fails, or whose version lies below the floor ends FAILED with 0x5003,
0x5004 or 0x5008, in that order; firmware that passes is staged and DONE. OP_COMPLETE of the other operations (R417,
R433): a hardware error ends the operation FAILED with its code, and done work ends it DONE, a checkpoint's save with
its size as result; fuses and flash are as before. -/
def Obligations.OperationsComplete : Prop :=
  (∀ (slot : Fin 64) (g : Staging) (s : State), completeEnabled slot 0#16 s.dev = true →
    (s.dev.op slot).typ = .fwStage → s.dev.staging = some g →
    let i := (s.dev.op slot).args.getD 0 0
    let fz := { s.fuse with slots := vsetN s.fuse.slots i (some g.data) }
    let d := { s.dev with staging := none }
    let failed (c : Nat) : State := { s with fuse := fz, dev := d.setOp slot .failed c }
    let v := Config.fwSecurityVersion g.data
    let signed := Config.fwSignatureValid g.data
    (255 < v → exec (.opComplete slot 0#16) s = .next (failed 0x5003)) ∧
    (v ≤ 255 → signed = false → exec (.opComplete slot 0#16) s = .next (failed 0x5004)) ∧
    (v ≤ 255 → signed = true → v < s.fuse.svnFloor → exec (.opComplete slot 0#16) s = .next (failed 0x5008)) ∧
    (v ≤ 255 → signed = true → s.fuse.svnFloor ≤ v → exec (.opComplete slot 0#16) s = .next
      { s with fuse := fz, dev := { d with staged := some i }.setOp slot .done 0 })) ∧
  (∀ (slot : Fin 64) (code : BitVec 16) (s : State), completeEnabled slot code s.dev = true →
    let o := s.dev.op slot
    (o.typ ≠ .fwStage → code ≠ 0#16 →
      exec (.opComplete slot code) s = .next (s.put (s.dev.setOp slot .failed code.toNat))) ∧
    (o.typ = .scrub ∨ o.typ = .dramTest → code = 0#16 →
      exec (.opComplete slot code) s = .next (s.put (s.dev.setOp slot .done 0))) ∧
    (o.typ = .checkpoint → code = 0#16 → o.args.getD 0 0 ≠ 1 → exec (.opComplete slot code) s = .next (s.put
      ((s.dev.modOp slot fun o => { o with result := o.args.getD 4 0 }).setOp slot .done 0))) ∧
    (o.typ = .checkpoint → code = 0#16 → o.args.getD 0 0 = 1 →
      exec (.opComplete slot code) s = .next (s.put (restoreEffect slot s.dev))))

/-- The checks of a load (R298, R300): each runs once its bytes have arrived and records its stage, and a failure with
the place and the code that the rule gives; what a check stages goes through the tile's configuration port (R301); a lead then passes on the
sub-images that have arrived; a check that is not due
changes nothing. The end of a load (R299, R302): a
delivery that ends early fails it with 0x5001; with a failure recorded nothing is committed; without one the image is
committed and the load is DONE, or, at a lead, its members are told to commit; a hardware error takes every tile back to
its retained bank and fails the load with its code. -/
def Obligations.LoadChecksThenCommitsOrReverts : Prop :=
  (∀ (slot : Fin 64) (l : ImageLoad) (n : Nat) (s : State), s.dev.loadOf slot = some l →
    let d := s.dev
    let con := if l.hitch then containerFails l.count l.bytes l.data else []
    let own := con ++ headerFails (d.headerEnv s.fuse l.pad l.imgBytes) l.img ++
      (if l.hitch then failAt (subHeaderOk d.hitchSize 0 (imJob l.img) l.img) 36 0x5009 else [])
    let lead := l.hitch = true ∧ lowest own = none
    (loadEnabled slot (fun _ => (1, 0)) d = true → ¬ lead → exec (.loadHeaderCheck slot) s = .next (s.put
      ((d.checked slot 1 (if con.isEmpty then lowest own else lowest con) fun l => { l with passed := 1 :: l.passed }).passOn slot))) ∧
    (loadEnabled slot (fun _ => (1, 0)) d = true → lead → exec (.loadHeaderCheck slot) s = .next (s.put
      (({ d with hitch := some { jobId := imJob l.img } }.checked slot 1
        (if con.isEmpty then none else lowest con) fun l => { l with passed := 1 :: l.passed }).passOn slot))) ∧
    (loadEnabled slot (fun _ => (1, 0)) d = false → exec (.loadHeaderCheck slot) s = .next s) ∧
    (loadEnabled slot (fun _ => (2, 256)) d = true → exec (.sectionTableCheck slot) s = .next (s.put
      (d.checked slot 2 (if tableOk l.img then none else some (256, 0x5003)) fun l => { l with passed := 2 :: l.passed }))) ∧
    (loadEnabled slot (fun l => (3, keyOff l.img)) d = true → exec (.wrappedKeyCheck slot) s = .next (s.put
      (d.checked slot 3 (lowest (keyFails s.fuse l.img)) fun q => { q with
        passed := 3 :: q.passed,
        imageKey := if (lowest (keyFails s.fuse l.img)).isNone then imKey s.fuse q.img else none }))) ∧
    (loadEnabled slot (fun _ => (1, 32)) d = true →
      let e := if d.svnLow s.fuse l.img then d.modLoad slot fun l => l.fail 1 32 0x5008 else d
      exec (.signatureCheck slot) s = .next (s.put
        (e.checked slot 4 (lowest (e.sigFails s.fuse l.img)) fun l => { l with passed := 4 :: l.passed }))) ∧
    (∀ c, loadEnabled slot (fun l => (5, if n < imSections l.img then (secOf l.img n).off else 0)) d = true →
      bodyCheckOf l.img l.imageKey n = .error c → exec (.bodyCheck slot n) s = .next (s.put
        (d.checked slot 5 (some ((secOf l.img n).off, c)) fun l => { l with bodies := setKey n [] l.bodies }))) ∧
    (∀ b, loadEnabled slot (fun l => (5, if n < imSections l.img then (secOf l.img n).off else 0)) d = true →
      bodyCheckOf l.img l.imageKey n = .ok b →
      let x := secOf l.img n
      ((d.tileSite l.pad x.tile = none ∨ 0x10 ≤ x.kind) → exec (.bodyCheck slot n) s = .next (s.put
        (d.checked slot 5 none fun l => { l with bodies := setKey n b l.bodies }))) ∧
      (∀ site, d.tileSite l.pad x.tile = some site → x.kind < 0x10 → exec (.bodyCheck slot n) s = .next (s.put
        ((d.modTile site fun t => { t with
          banks := vmodN t.banks (1 - t.ctl.activeIdx) fun k => k.put x.kind x.idx b, portAt := some d.now }).checked slot 5 none
            fun l => { l with bodies := setKey n b l.bodies })))) ∧
    (∀ site, loadEnabled slot (fun _ => (6, n)) d = true → d.tileSite l.pad n = some site →
      exec (.tileCheck slot n) s = .next (s.put
        ((d.modTile site fun t => { t with
          banks := vmodN t.banks (1 - t.ctl.activeIdx) fun _ => imBank l.img l.bodies n, portAt := some d.now }).checked slot 6
          (if (imBank l.img l.bodies n).tileOk (d.padStriped l.pad) then none else some (n, 0x5003))
          fun l => { l with tiles := insertNat n l.tiles }))) ∧
    (∀ c, loadEnabled slot (fun _ => (7, 0)) d = true → d.imageFits l.pad l.img l.bodies = .error c →
      exec (.imageCheck slot) s = .next (s.put
        (d.checked slot 7 (some (0, c)) fun l => { l with passed := 7 :: l.passed }))) ∧
    (∀ pass, loadEnabled slot (fun _ => (7, 0)) d = true → d.imageFits l.pad l.img l.bodies = .ok pass →
      let e := (d.forSites (((d.pad l.pad).map (·.sites)).getD []) fun t => { t with ctl := t.ctl.setShadow 2 }).checked
        slot 7 none fun l => { l with passed := 7 :: l.passed }
      exec (.imageCheck slot) s = .next (s.put
        (if l.hitch then { e with hitch := e.hitch.map fun h => { h with verified := true } } else e)))) ∧
  (∀ (slot : Fin 64) (l : ImageLoad) (hw : BitVec 16) (pass : List (SiteId × Nat)) (s : State),
    s.dev.loadOf slot = some l →
    let d := s.dev
    let im := d.commitImage l.pad { imInfo l.img l.bodies pass with key := l.imageKey.getD [] }
    (endsEarly slot d = true → exec (.imageDeliveryEnd slot) s = .next (s.put (d.endLoad slot .failed 0x5001))) ∧
    (l.failure.isSome = true → exec (.imageCommit slot hw) s = .next s) ∧
    (commitEnabled slot d = true → d.imageFits l.pad l.img l.bodies = .ok pass → l.hitch = false → hw = 0#16 →
      exec (.imageCommit slot hw) s = .next (s.put (im.loadDone slot l))) ∧
    (commitEnabled slot d = true → d.imageFits l.pad l.img l.bodies = .ok pass → l.hitch = true → hw = 0#16 →
      let e := (im.modLoad slot fun l => { l with committing := true }).tellMembers .commit (imJob l.img)
      exec (.imageCommit slot hw) s = .next (s.put
        { e with hitch := e.hitch.map fun h => { h with committed := true, since := e.now } })) ∧
    (commitEnabled slot d = true → d.imageFits l.pad l.img l.bodies = .ok pass → hw ≠ 0#16 →
      exec (.imageCommit slot hw) s = .next (s.put
        (((im.revertImage l.pad).modLoad slot fun l => { l with committing := true }).endLoad slot .failed hw.toNat))))

/-- A hitch member (R304, R305): LOAD_BEGIN gives up what was staged and, with a paddock free, stages there anew; data
is appended; LOAD_END answers VERIFIED with 0 when the sub-image passes stages 1 to 7 and with its failure otherwise;
COMMIT answers COMMITTED, or takes the image back without an answer on a hardware error; ABORT gives up; REVERT takes
the retained bank again, and RELEASE discards it, only after a commit. A hitch lead (R305): a member's VERIFIED of this
job with code 0 is noted; a failure or another job fails the load with that code or 0x5009, and so does a VERIFIED that
is 50 ms late; the last COMMITTED sends RELEASE and ends the load DONE, and one that is 10 ms late sends REVERT, reverts
the lead and fails the load. Each of these failures also names the position of the member. A message over a hitch link without
MGMT_TRUSTED is dropped, counted and reported (R359). -/
def Obligations.HitchMembersFollowTheLead : Prop :=
  (∀ (slotLen : Nat) (job data : Bytes) (hw : BitVec 16) (k : PadId) (s : State), memberEnabled s.dev = true →
    let d := s.dev.tookFrom 0
    let fz := s.fuse
    (∀ n, d.dropMember.loadPad = some n → exec (.hitchLoadBegin slotLen job) s = .next (s.put
      { (d.dropMember.startLoad n).modPad n fun p => { p with state := .loading } with
        hitch := some { jobId := padTo 32 job, pad := some n, slotLen := slotLen } })) ∧
    (∀ h, s.dev.hitch = some h → h.ended = false → exec (.hitchLoadData data) s = .next (s.put
      { d with hitch := some { h with data := h.data ++ data } })) ∧
    (∀ h c, d.hitch = some h → s.dev.hitch = some h → h.ended = false → h.pad = some k →
      d.checkWhole fz k h.slotLen h.data = .error c → exec .hitchLoadEnd s = .next (s.put
        { (d.dropShadow k).sendHitch 0 .verified h.jobId c [] with hitch := some { h with ended := true } })) ∧
    (∀ h r, d.hitch = some h → s.dev.hitch = some h → h.ended = false → h.pad = some k →
      d.checkWhole fz k h.slotLen h.data = .ok r →
      ∃ e, exec .hitchLoadEnd s = .next (s.put e) ∧ e.hitch = some { h with ended := true, verified := true } ∧
        e.lofts = s.dev.lofts) ∧
    (∀ h bodies pass, d.hitch = some h → s.dev.hitch = some h → h.verified = true → h.committed = false →
      h.pad = some k → d.checkWhole fz k h.slotLen h.data = .ok (bodies, pass) →
      let c := (d.commitImage k { imInfo h.data bodies pass with key := (imKey fz h.data).getD [] }).leaveLoading k
      (hw = 0#16 → exec (.hitchCommit hw) s = .next (s.put
        { c.sendHitch 0 .committed h.jobId 0 [] with hitch := some { h with committed := true } })) ∧
      (hw ≠ 0#16 → exec (.hitchCommit hw) s = .next (s.put { (c.revertImage k).leaveLoading k with hitch := none }))) ∧
    (∀ h, s.dev.hitch = some h → h.committed = false → exec .hitchAbort s = .next (s.put d.dropMember)) ∧
    (∀ h, d.hitch = some h → h.pad = some k →
      (h.committed = true → exec .hitchRevert s = .next (s.put (d.revertMember k)) ∧
        exec .hitchRelease s = .next (s.put
          { (d.forSites (((d.pad k).map (·.sites)).getD []) Tile.shadowEmpty).modPad k fun p => { p with retained := none }
            with hitch := none })) ∧
      (h.committed = false → exec .hitchRevert s = .next (s.put d) ∧ exec .hitchRelease s = .next (s.put d)))) ∧
  (∀ (pos : Nat) (job : Bytes) (code : BitVec 16) (l : ImageLoad) (h : HitchLoad) (s : State),
    let d := s.dev.tookFrom pos
    d.leadLoad = some l → d.hitch = some h →
    let hears := s.dev.role = 2 ∧ s.dev.members.contains pos = true ∧ s.dev.hitchOpen pos = true ∧ s.dev.hitchTrusts pos = true
    (leadWaits false s.dev = true → hears →
      (code = 0#16 → job = h.jobId → exec (.hitchVerified pos job code) s = .next (s.put
        { d with hitch := some { h with peersVerified := insertNat pos h.peersVerified } })) ∧
      (code ≠ 0#16 → exec (.hitchVerified pos job code) s = .next (s.put (d.failHitch l.op code.toNat pos))) ∧
      (code = 0#16 → job ≠ h.jobId →
        exec (.hitchVerified pos job code) s = .next (s.put (d.failHitch l.op 0x5009 pos)))) ∧
    (leadWaits true s.dev = true → hears →
      let got := insertNat pos h.peersCommitted
      (d.members.all got.contains = true → exec (.hitchCommitted pos) s = .next (s.put
        { (d.tellMembers .release h.jobId).loadDone l.op l with hitch := none, hitchFailed := false })) ∧
      (d.members.all got.contains = false → exec (.hitchCommitted pos) s = .next (s.put
        { d with hitch := some { h with peersCommitted := got } }))) ∧
    (verifiedLate s.dev = true → s.dev.leadLoad = some l →
      exec .hitchVerifiedTimeout s = .next (s.put (s.dev.failHitch l.op 0x5009 (s.dev.lateVerified.getD 0)))) ∧
    (committedLate s.dev = true → s.dev.leadLoad = some l → s.dev.hitch = some h →
      let e := (s.dev.tellMembers .revert h.jobId).revertImage l.pad
      exec .hitchCommittedTimeout s = .next (s.put ({ e with hitch := none }.failHitch l.op 0x5009
        ((e.members.find? fun q => !h.peersCommitted.contains q).getD 0))))) ∧
  (∀ (i : Instr) (q slotLen : Nat) (job data : Bytes) (code hw : BitVec 16) (n : LinkId) (s : State),
    s.dev.hitchLink q = some n → s.dev.hitchOpen q = true → s.dev.trusted n = false →
    ((s.dev.role = 3 ∧ q = 0 ∧ i ∈ [.hitchLoadBegin slotLen job, .hitchLoadData data, .hitchLoadEnd, .hitchCommit hw,
        .hitchAbort, .hitchRevert, .hitchRelease]) ∨
      (s.dev.role = 2 ∧ s.dev.members.contains q = true ∧ i ∈ [.hitchVerified q job code, .hitchCommitted q])) →
    exec i s = .next (s.put ((s.dev.freeFlits n 4).mgmtRefuse [n.val])))

/-! ### Fabric links (R336 to R353) -/

/-- Alignment (R338, R352, R353): PMD training done, the lanes align; an ALIGN codeword of the right SYNC and MARK on a
good lane locks it and tells the peer's mask, any other counts for nothing but the lane's FEC counters; a lane that does not lock
in 100 ms is bad. In a link that has taken frames since its alignment a good ALIGN codeword shows that the peer retrains, and the
link follows. A retired lane leaves the link RETRAIN, and DOWN where it lost SYNC lock in HANDSHAKE; after the back-off, which
doubles to 64 s, a link that is DOWN trains over all its lanes. Another link changes at most in the flits of its receive buffer that count as freed. -/
def Obligations.LinksAlignGoodLanes : Prop :=
  ∀ (n : LinkId) (lane : Fin 8) (fec : FecResult) (h : CwHdr) (payload : Bytes) (cause : LaneCause) (s : State),
    let d := s.dev
    let l := d.link n
    (pmdEnabled n d = true → exec (.pmdTrainingComplete n) s = .next (s.put
      (d.modLink n fun l => { l with pmdDone := true, since := d.now }))) ∧
    (d.running = true → l.hears = true → lane.val < d.linkLanes n → (fec.isSome = true → cwMark h ≠ 0) →
      let c := d.modLink n fun l => l.countFec lane fec h d.now
      let good := fec.isSome = true ∧ cwSync h = true ∧ cwMark h = 1 ∧ allZero (payload.drop 2) = true ∧ l.lanes[lane].good = true
      let mask := (payload[0]?).getD 0#8
      let took (e : Dev) : Dev := (e.modLink n fun l => { l with
        lanes := vmod l.lanes lane fun x => { x with locked := true }
        alignSeen := if l.peerMask = some mask then l.alignSeen + 1 else 1
        peerMask := some mask, peerWidth := ((payload[1]?).getD 0#8).toNat }).checkAlign s.fuse n
      (¬ good → exec (.alignCodeword n lane fec h payload) s = .next (s.put c)) ∧
      (good → l.aligning = true → exec (.alignCodeword n lane fec h payload) s = .next (s.put (took c))) ∧
      (good → l.aligning = false → l.rxSlot.isSome = true →
        exec (.alignCodeword n lane fec h payload) s = .next (s.put (took (c.retrain s.fuse n)))) ∧
      (good → l.aligning = false → l.rxSlot = none → exec (.alignCodeword n lane fec h payload) s = .next (s.put c))) ∧
    (lockLate n lane d = true → ∃ e, exec (.laneLockTimeout n lane) s = .next (s.put e) ∧
      ((e.link n).lanes[lane]).bad = true ∧ ∀ m : LinkId, m ≠ n → (d.link m).SameButFreed (e.link m)) ∧
    (retireLaneEnabled n lane cause d = true → ∃ e, exec (.laneRetire n lane cause) s = .next (s.put e) ∧
      ((e.link n).lanes[lane]).retired = true ∧
      (e.link n).state = (if l.state = .handshake ∧ cause = .lostSync then .down else .retrain) ∧
      ∀ m : LinkId, m ≠ n → (d.link m).SameButFreed (e.link m)) ∧
    (downRetryEnabled n d = true → ∃ e, exec (.downRetry n) s = .next (s.put e) ∧
      (∀ m : LinkId, m ≠ n → e.link m = d.link m) ∧ e.tiles = d.tiles ∧ e.lofts = d.lofts ∧
      (e.link n).state = .training ∧ (e.link n).since = d.now ∧ (e.link n).backoff = min 64 (2 * l.backoff) ∧
      ∀ i : Fin 8, ((e.link n).lanes[i]).good = true ∧ ((e.link n).lanes[i]).locked = false)

/-- What a link sends (R336, R339, R343 to R345): ALIGN codewords while it aligns; else, at the start of a slot, a NAK that is
due, then a replay that was asked for, which begins there with the frame after the last ACK, and makes the link retrain when the oldest frame has been sent 8 times; IDLE while 256 frames are
unacknowledged, and with nothing else waiting flits of the VCs in UP or IDLE. Frames unacknowledged for 2 µs ask for a replay. A
link in another state sends nothing. -/
def Obligations.LinksSendByPriority : Prop :=
  ∀ (n : LinkId) (s : State),
    let d := s.dev
    let begun := d.modLink n fun l => l.enterReplay d.now
    let l := begun.link n
    let idle (d : Dev) : Dev := d.modLink n fun l => l.emit .idle 0#32 [] [] d.now
    ((d.link n).aligning = false → (d.link n).state ≠ .handshake → (d.link n).state ≠ .up →
      exec (.frameTransmit n) s = .next s) ∧
    (d.running = true → (d.link n).aligning = true → exec (.frameTransmit n) s = .next (s.put
      ((d.modLink n fun l => l.emitAlign (d.linkLanes n)).checkAlign s.fuse n))) ∧
    (d.running = true → (d.link n).aligning = false → ((d.link n).state = .handshake ∨ (d.link n).state = .up) →
      (∀ r, (d.link n).replayWait = true → (d.link n).slotStart = true → (d.link n).replay = r → r ≠ [] →
        l.replayFrom = some ((d.link n).acked + 1) ∧ l.replayWait = false) ∧
      ((d.link n).replayWait = false ∨ (d.link n).slotStart = false → begun.links = d.links) ∧
      (l.nakNow = true → exec (.frameTransmit n) s = .next (s.put
        (begun.modLink n fun l => { l.emit .nak 0#32 [] [] d.now with nakDue := false, nakAt := some d.now }))) ∧
      (∀ r, l.nakNow = false → l.replayFrom = some r →
        (∀ e, (l.emitReplay r d.now).replay.head? = some e → e.times < 8) → exec (.frameTransmit n) s = .next (s.put
          (begun.modLink n fun l => l.emitReplay r d.now))) ∧
      (∀ r e, l.nakNow = false → l.replayFrom = some r → (l.emitReplay r d.now).replay.head? = some e → 8 ≤ e.times →
        exec (.frameTransmit n) s = .next (s.put ((begun.modLink n fun l => l.emitReplay r d.now).retrain s.fuse n))) ∧
      (l.nakNow = false → l.replayFrom = none → 256 ≤ l.replay.length →
        exec (.frameTransmit n) s = .next (s.put (idle begun))) ∧
      (∀ b rest, l.nakNow = false → l.replayFrom = none → l.replay.length < 256 → l.txFrags = b :: rest →
        exec (.frameTransmit n) s = .next (s.put ((begun.modLink n fun l => l.sendFrag b d.now).tryUp s.fuse n))) ∧
      (l.nakNow = false → l.replayFrom = none → l.replay.length < 256 → l.txFrags = [] → l.state = .handshake →
        exec (.frameTransmit n) s = .next (s.put (idle begun))) ∧
      (∀ e fl, l.nakNow = false → l.replayFrom = none → l.replay.length < 256 → l.txFrags = [] → l.state = .up →
        Dev.takeFlits n 9 begun = (e, fl) → exec (.frameTransmit n) s = .next (s.put
          (if fl = [] then idle e else e.modLink n fun l => l.emitNew .data fl [] e.now)))) ∧
    (replayLate n d = true → exec (.replayTimeout n) s = .next (s.put
      (d.modLink n fun l => { l.startReplay with lastAckAt := d.now })))

/-- What a received frame does, of each type (idleFrame, dataFrame, nakFrame, controlFrame). Its codeword is counted for its lane;
a link that takes no frames, or a lane not in use, does nothing more. A codeword of another SYNC costs its lane the lock. By lane
and slot a frame takes its place in the order of sending: one that has none there means that alignment is lost, and one ahead of
its turn waits (R339; that the place counts from the alignment is log entry 82, the model's choice). A frame whose turn it is goes
through the checks in the order of R342: FEC, CRC and format, ACK, admission and tag; a frame that passes applies ACK and CREDIT,
and then a NAK asks for a replay, a DATA or CONTROL frame in sequence is taken, a duplicate is discarded and one after a gap asks
for a replay. -/
def Obligations.FramesCheckedInOrder : Prop :=
  ∀ (ft : FrameType) (n : LinkId) (f : Frame) (s : State), receiveEnabled n ft f s.dev = true →
    let d := s.dev
    let c := d.modLink n fun l => l.countFec f.lane f.fec f.hdr d.now
    let l0 := d.link n
    (l0.takes = false ∨ l0.logical f.lane = none → exec (frameOf ft n f) s = .next (s.put c)) ∧
    (l0.takes = true → (l0.logical f.lane).isSome = true →
      (f.fec.isSome = true → cwSync f.hdr = false → exec (frameOf ft n f) s = .next (s.put
        (c.modLink n fun l => { l with lanes := vmod l.lanes f.lane fun x => { x with locked := false } }))) ∧
      ((f.fec.isNone || cwSync f.hdr) = true → l0.frameIndex f = none →
        exec (frameOf ft n f) s = .next (s.put (c.realign s.fuse n))) ∧
      (∀ no, (f.fec.isNone || cwSync f.hdr) = true → l0.frameIndex f = some no → no ≠ l0.rxNo → (∀ q ∈ l0.rxHeld, q.1 ≠ l0.rxNo) →
        exec (frameOf ft n f) s = .next (s.put (c.modLink n fun l => { l with
          rxSlot := some (l.rxSlot.getD l.lanes[f.lane].cw), rxHeld := (no, ft, f) :: l.rxHeld })))) ∧
    (l0.InTurn f →
      let t := c.modLink n fun l => l.turned f.lane
      let l := t.link n
      let bad (x : Link) : Link := { x with crcErr := x.crcErr.inc d.now }
      (f.fec = none → exec (frameOf ft n f) s = .next (s.put (t.modLink n fun l => l.askReplay d.now))) ∧
      (f.fec.isSome = true → ¬ l.Formed ft f → exec (frameOf ft n f) s = .next (s.put
        (t.modLink n fun l => (bad l).askReplay d.now))) ∧
      (l.Formed ft f → l.ackBad f.ack = true → exec (frameOf ft n f) s = .next (s.put ((t.modLink n bad).linkDown s.fuse n))) ∧
      (l.Formed ft f → l.ackBad f.ack = false → l.notAdmitted ft f = true → exec (frameOf ft n f) s = .next (s.put
        (t.modLink n fun l => { l with tagFail := l.tagFail.inc d.now }))) ∧
      (∀ slots, l.Formed ft f → l.ackBad f.ack = false → l.notAdmitted ft f = false → l.openFrame f = some slots →
        let e := t.modLink n fun l => (l.tookEpoch f d.now).apply f.ack f.credit d.now
        let next := e.modLink n fun l => { l with expected := l.expected + 1, rxFrames := satInc l.rxFrames }
        let data := ft = .data ∨ ft = .control
        (ft = .idle → exec (frameOf ft n f) s = .next (s.put e)) ∧
        (ft = .nak → exec (frameOf ft n f) s = .next (s.put (e.modLink n fun l => l.startReplay))) ∧
        (ft = .data → f.seq = (e.link n).expected → exec (frameOf ft n f) s = .next (s.put
          (next.modLink n fun l => { l with rxFlits := l.rxFlits ++ frameFlits f slots }))) ∧
        (ft = .control → f.seq = (e.link n).expected →
          exec (frameOf ft n f) s = .next (s.put (fragEffect n slots s.fuse next))) ∧
        (data → f.seq ≠ (e.link n).expected → seqDist f.seq (e.link n).expected ≤ 256 →
          exec (frameOf ft n f) s = .next (s.put e)) ∧
        (data → f.seq ≠ (e.link n).expected → 256 < seqDist f.seq (e.link n).expected →
          exec (frameOf ft n f) s = .next (s.put (e.modLink n fun l => l.askReplay d.now)))))

/-- Tag failures (R349): the third within 1 s makes the link QUARANTINED with LINK_TAG_FAILURE (0x6003), and both keys
are gone; after that the link sends nothing. A first or second failure only asks for a replay. -/
def Obligations.ThirdTagFailureQuarantines : Prop :=
  ∀ (ft : FrameType) (n : LinkId) (f : Frame) (s : State), receiveEnabled n ft f s.dev = true →
    let d := s.dev
    let c := d.modLink n fun l => (l.countFec f.lane f.fec f.hdr d.now).turned f.lane
    let l := c.link n
    (d.link n).InTurn f → l.Formed ft f → l.ackBad f.ack = false → l.notAdmitted ft f = false → l.openFrame f = none →
    let failed := c.modLink n fun l => { l with
      tagFail := l.tagFail.inc d.now, tagFailAt := d.now :: within d.now (msN 1000) l.tagFailAt }
    ((within d.now (msN 1000) l.tagFailAt).length < 2 → exec (frameOf ft n f) s = .next (s.put
      (failed.modLink n fun l => l.askReplay d.now))) ∧
    (2 ≤ (within d.now (msN 1000) l.tagFailAt).length →
      ∃ e, exec (frameOf ft n f) s = .next (s.put e) ∧ e = failed.quarantine s.fuse n 0x6003 ∧
        (e.link n).state = .quarantined ∧ (e.link n).txKey = [] ∧ (e.link n).rxKey = [] ∧
        exec (.frameTransmit n) (s.put e) = .next (s.put e))

/-- The handshake (R347, R348, R458): HELLO of the own serial is a loopback; the end of the lower serial is the
initiator and sends its key; KEM_KEY is answered by KEM_CT and CERT, KEM_CT by CERT; CERT, SIG and FINISHED that do not
verify quarantine the link with 0x6001; SIG gives the keys of both directions; FINISHED that matches brings the link UP
once its own is sent. A handshake of 100 ms posts 0x6002 and leaves the link DOWN. -/
def Obligations.HandshakeAuthenticates : Prop :=
  ∀ (n : LinkId) (h : Hello) (bs : Bytes) (s : State),
    let d := s.dev
    let l := d.link n
    let fz := s.fuse
    let q := d.quarantine fz n 0x6001
    (handshakeLate n d = true → exec (.handshakeTimeout n) s = .next (s.put ((d.linkEvent n 0x6002 []).linkDown fz n))) ∧
    (d.running = true → l.expects .hello [] = true → h.version = 1#16 → h.reserved = 0#8 → h.nonce.length = 32 →
      let heard (l : Link) : Link :=
        let l := l.note .hello
        { l with hs := { l.hs with initiator := decide (fz.serial.toNat < h.serial.toNat), peerSerial := h.serial, peerRole := h.role, peerHello := helloBytes h } }
      (h.serial = fz.serial → exec (.hello n h) s = .next (s.put
        ((d.modLink n fun l => { l with hs := { l.hs with peerSerial := h.serial } }).quarantine fz n 0x6007))) ∧
      (fz.serial.toNat < h.serial.toNat → ∃ e key, exec (.hello n h) s = .next (s.put e) ∧ key.length = 1568 ∧
        (e.link n).hs.initiator = true ∧ (e.link n).hs.peerSerial = h.serial ∧ (e.link n).hs.kemKey = key ∧
        (e.link n).txFrags = l.txFrags ++ fragsOf 2 key) ∧
      (h.serial.toNat < fz.serial.toNat → exec (.hello n h) s = .next (s.put (d.modLink n heard)))) ∧
    (d.running = true → l.expects .kemKey [.hello] = true → l.hs.initiator = false → bs.length = 1568 →
      ∃ e ct, exec (.kemKey n bs) s = .next (s.put e) ∧ ct.length = 1568 ∧ (e.link n).hs.kemKey = bs ∧
        (e.link n).hs.kemCt = ct ∧ (e.link n).hs.myCert = d.linkChain fz ∧
        (e.link n).txFrags = l.txFrags ++ fragsOf 3 ct ++ fragsOf 4 (d.linkChain fz)) ∧
    (d.running = true → l.expects .kemCt [.hello] = true → l.hs.initiator = true → bs.length = 1568 →
      (Config.kemDecaps l.hs.seed bs = none → exec (.kemCt n bs) s = .next (s.put q)) ∧
      (∀ ss, Config.kemDecaps l.hs.seed bs = some ss → exec (.kemCt n bs) s = .next (s.put (d.modLink n fun l =>
        let l := (l.note .kemCt).say .cert (d.linkChain fz)
        { l with hs := { l.hs with kemCt := bs, secret := ss, myCert := d.linkChain fz } })))) ∧
    (d.running = true → l.expects .cert [.hello, if l.hs.initiator then .kemCt else .kemKey] = true →
      let dig := l.hs.transcript bs
      (d.chainOk fz l.hs.peerSerial bs = false → exec (.cert n bs) s = .next (s.put q)) ∧
      (d.chainOk fz l.hs.peerSerial bs = true → exec (.cert n bs) s = .next (s.put (d.modLink n fun l =>
        let l := (l.note .cert).say .sig (padTo 1280 (Config.falconSign (d.fwid fz) (roleByte l.hs.initiator ++ dig)))
        { l with hs := { l.hs with peerCert := bs, digest := dig } })))) ∧
    (d.running = true → l.expects .sig [.cert] = true → bs.length = 1280 →
      let good := Config.falconVerify (certKey (chainFwid l.hs.peerCert)) (roleByte (!l.hs.initiator) ++ l.hs.digest) bs
      let ks := linkKeys l.hs.secret l.hs.digest []
      let tx := if l.hs.initiator then ks.1 else ks.2
      let rx := if l.hs.initiator then ks.2 else ks.1
      (good = false → exec (.sig n bs) s = .next (s.put q)) ∧
      (good = true → exec (.sig n bs) s = .next (s.put (d.modLink n fun l =>
        { l.note .sig with txKey := tx, rxKey := rx, keyEpoch := false, rxEpoch := false, txCount := 0 }.say .finished
          (Config.shake256 32 (tx ++ l.hs.digest)))))) ∧
    (d.running = true → l.expects .finished [.sig] = true →
      (bs ≠ Config.shake256 32 (l.rxKey ++ l.hs.digest) → exec (.finished n bs) s = .next (s.put q)) ∧
      (bs = Config.shake256 32 (l.rxKey ++ l.hs.digest) → exec (.finished n bs) s = .next (s.put
        ((d.modLink n fun l => l.note .finished).tryUp fz n))))

/-- Rekeying (R350, R351, R480): only the initiator starts one, on REKEY_REQ or at a limit, and REKEY_REQ during a rekey
is ignored; the responder answers REKEY_CT and holds both new keys until the frame is sent; the initiator takes its
transmit key at once, flips KEY_EPOCH and restarts TX_COUNT. Without entropy the link goes to DOWN. -/
def Obligations.RekeyReplacesKeys : Prop :=
  ∀ (n : LinkId) (bs : Bytes) (s : State), s.dev.running = true → (s.dev.link n).state = .up →
    let d := s.dev
    let l := d.link n
    let fz := s.fuse
    let starts (i : Instr) : Prop :=
      (d.entropyOk = false → exec i s = .next (s.put (d.linkDown fz n))) ∧
      (d.entropyOk = true → ∃ e key, exec i s = .next (s.put e) ∧ key.length = 1568 ∧ (e.link n).rekeying = true ∧
        (e.link n).txFrags = l.txFrags ++ fragsOf 7 key ∧ (e.link n).hs.since = d.now ∧ (e.link n).txKey = l.txKey)
    ((l.hs.initiator = false ∨ l.rekeying = true) → exec (.rekeyReq n) s = .next s) ∧
    (l.hs.initiator = true → l.rekeying = false → starts (.rekeyReq n)) ∧
    (rekeyDue n d = true → l.hs.initiator = true → starts (.rekeyTrigger n)) ∧
    (rekeyDue n d = true → l.hs.initiator = false →
      exec (.rekeyTrigger n) s = .next (s.put (d.modLink n fun l => l.say .rekeyReq []))) ∧
    (l.hs.initiator = false → l.rekeying = false → bs.length = 1568 →
      (d.entropyOk = false → exec (.rekeyKey n bs) s = .next (s.put (d.linkDown fz n))) ∧
      (d.entropyOk = true → ∃ e ct, exec (.rekeyKey n bs) s = .next (s.put e) ∧ ct.length = 1568 ∧
        (e.link n).rekeying = true ∧ (e.link n).txNew.isSome = true ∧ (e.link n).rxNew.isSome = true ∧
        (e.link n).txKey = l.txKey ∧ (e.link n).txFrags = l.txFrags ++ fragsOf 8 ct)) ∧
    (l.hs.initiator = true → l.rekeying = true → l.rxNew = none → bs.length = 1568 →
      (Config.kemDecaps l.hs.seed bs = none → exec (.rekeyCt n bs) s = .next (s.put (d.linkDown fz n))) ∧
      (∀ ss, Config.kemDecaps l.hs.seed bs = some ss → exec (.rekeyCt n bs) s = .next (s.put (d.modLink n fun l =>
        let ks := l.rekeyed ss bs
        { l with txKey := ks.1, rxNew := some ks.2, keyEpoch := !l.keyEpoch, txCount := 0 }))))

/-! ### The fabric (R358 to R391) -/

/-- Transit and injection (R371, R373, R375): injection sets HOPS to 0, and the packet waits at its port, to which it
crosses the mesh from where it was made (R328; log entry 71, the model's choice); a packet that a device forwards to another, a management
message to a device among them where it is trusted, waits for its link with HOPS one higher, ready 32 NCLK cycles on, and keeps its flits in the receive buffer until they are sent; a packet
whose HOPS is 63 is not forwarded: it is dropped, counted in FAB_DROP_TTL and reported by FABRIC_TTL_EXPIRED (0x6022), and one
without a route by FABRIC_NO_ROUTE (0x6023). So it is with a packet that a device forwards on the tree, down the recorded link or up
its PARENT (R361); TOPOLOGY_REPORT and ASSIGN are in FabricElectsAndNumbers. -/
def Obligations.HopsCountForwarding : Prop :=
  ∀ (n m : LinkId) (dl : Bool) (p : FabPkt) (sender : BitVec 64) (s : State),
    let d := s.dev
    let freed := d.freeFlits n (pktVc p)
    let held := d.holdFlits n (pktVc p)
    (d.hop d.injEpoch p.dest p.tag (p.cls == 2#2) = .link m dl →
      let q : FabPkt := { p with src := d.number, epoch := d.injEpoch, dl := BitVec.ofBool dl, hops := 0#6 }
      let sent (e : Dev) : Dev := { e with fab := { d.fab with out := d.fab.out ++ [{ link := m, ready := d.now, pkt := .packet q }] } }
      d.inject none p = sent d ∧ ∀ a, d.inject (some a) p = sent (d.carryPkt a (prOfLink m) none p)) ∧
    (d.hasPkt n p = true → d.isMine p = false → (p.cls = 2#2 → mgTree p = 0 ∧ d.trusts n p = true) → p.cls ≠ 3#2 →
      p.len.toNat ≤ 64 →
      (d.hop p.epoch p.dest p.tag (p.cls == 2#2) = .link m dl → p.hops ≠ 63#6 → exec (.packetSwitch n p) s = .next (s.put
        { held with fab := { held.fab with out := held.fab.out ++ [{
            link := m, input := n.val, inVc := pktVc p, ready := d.now + 32
            pkt := .packet { p with hops := p.hops + 1, dl := p.dl ||| BitVec.ofBool dl } }] } })) ∧
      (d.hop p.epoch p.dest p.tag (p.cls == 2#2) = .link m dl → p.hops = 63#6 → exec (.packetSwitch n p) s = .next (s.put
        (Dev.fabEvent { freed with fab := { freed.fab with dropTtl := freed.fab.dropTtl.inc d.now } } 0x6022
          [p.src.toNat, p.dest.toNat]))) ∧
      (d.hop p.epoch p.dest p.tag (p.cls == 2#2) = .nowhere → exec (.packetSwitch n p) s = .next (s.put
        (Dev.fabEvent { freed with fab := { freed.fab with dropRoute := freed.fab.dropRoute.inc d.now } } 0x6023
          [p.src.toNat, p.dest.toNat])))) ∧
    (d.running = true → (d.link n).state = .up →
      let f := d.freeFlits n 4
      let on (e : Dev) : Dev := if p.hops = 63#6 then e.dropTtl 0 0 else e.sendOn m (.packet { p with hops := p.hops + 1 })
      (mgTree p = 2 → f.fromMaster n sender = true → mgTarget p ≠ s.fuse.serial.toNat →
        f.recorded (BitVec.ofNat 64 (mgTarget p)) = some m →
        exec (.routeWrite n sender p) s = .next (s.put (on (f.seeMaster p))) ∧
        exec (.epochFlip n sender p) s = .next (s.put (on (f.seeMaster p)))) ∧
      (mgTree p = 1 → f.trusted n = true → pktWellFormed p = true → mgCode p = 6 → f.isMaster = false → sender ≠ 0#64 →
        f.fab.parent = some m → exec (.routeAck n sender p) s = .next (s.put (on (f.record sender n))))) ∧
    (∀ e a b, (Dev.dropTtl e a b).fab.dropTtl = e.fab.dropTtl.inc e.now)

/-- Requests at their destination (R370, R383 to R386): a malformed one is dropped and reported, and one whose brand no
paddock holds is counted and dropped, both without an answer. Any other crosses the mesh to the place that it names (R328; log
entry 71, the model's choice), is performed on the brand's paddock and answered
with its status: a STORE to a granted DRAM range writes it, a TREDUCE adds its clamped tallies, a LOAD returns the bytes; the
controller's windows are as after accesses to the range. A scratchpad access, a bell add and a message for a queue in memory wait
for their turn at the tile's ports; any other message is decided at once by R266. Of a tile in RETAIN or OFF the router answers a
scratchpad or bell request with NAK_FULL, and nothing waits (R529). -/
def Obligations.RequestsPerformedAndAnswered : Prop :=
  ∀ (n : LinkId) (p : FabPkt) (k : PadId) (s : State),
    let d := s.dev
    let t := d.takePkt n p
    let u := match d.pktFrom n p with | some e => t.carryRequest e k p | none => t
    let a := p.laddr.toNat
    let size := p.size.toNat
    let here (typ : Nat) : Prop := requestEnabled n typ p d = true
    let good : Prop := pktWellFormed p = true ∧ (p.typ = 3#6 → atomicOk p = true) ∧ t.brandPad p.brand = some k ∧
      t.sealedTakes s.fuse n (d.fab.loop.contains p) k = true
    let ack (e : Dev) (status : Nat) : Host.Outcome State Fault Refusal := .next (s.put (e.inject (e.laEnd k p) (rspPkt p 0x12 status [] [])))
    ((here 1 → pktWellFormed p = false → exec (.fabLoad n p .clean) s = .next (s.put (t.dropMalformed p))) ∧
     (here 2 → pktWellFormed p = false → exec (.fabStore n p) s = .next (s.put (t.dropMalformed p))) ∧
     (here 3 → d.counterTurn p = true → pktWellFormed p = false ∨ atomicOk p = false →
       exec (.fabAtomic n p .clean) s = .next (s.put (t.dropMalformed p))) ∧
     (here 4 → pktWellFormed p = false → exec (.fabTreduce n p .clean) s = .next (s.put (t.dropMalformed p))) ∧
     (here 5 → d.messageTurn p = true → pktWellFormed p = false → exec (.fabMessage n p) s = .next (s.put (t.dropMalformed p)))) ∧
    (here 2 → pktWellFormed p = true → t.brandPad p.brand = none →
      exec (.fabStore n p) s = .next (s.put (t.rejectBrand p))) ∧
    (∀ l, here 2 → good → p.space = 0#3 → u.dramStatus k a size = 0 → finOf 48 (dramLoft a) = some l →
      exec (.fabStore n p) s = ack ((u.loftTouch l true (dramOff a) size).modLoft l fun lo =>
        lo.store (dramOff a) (p.payload.take size) d.now) 0) ∧
    (∀ st, here 2 → good → p.space = 1#3 → u.laSite k a = some st → u.spadStatus k a size = 0 →
      exec (.fabStore n p) s = .next (s.put (u.arrive st {
        msu := (u.tile st).fabMsu, kind := .write, addr := a % 2 ^ 25, left := size, bytes := p.payload.take size,
        req := some p }))) ∧
    (here 2 → good → p.space = 0#3 → u.dramStatus k a size ≠ 0 →
      exec (.fabStore n p) s = ack u (u.dramStatus k a size)) ∧
    (∀ l, here 4 → good → dramLoft a = dramLoft (a + 4 * size - 1) → u.dramStatus k a (4 * size) = 0 →
      finOf 48 (dramLoft a) = some l →
      let off := dramOff a
      let rows := splitRow off (4 * size)
      let v := u.modLoft l fun lo => rows.foldl (fun lo x => lo.touchBoth x.addr) lo
      (v.loft l).badIn off (4 * size) = none → exec (.fabTreduce n p .clean) s = ack (v.modLoft l fun lo =>
        rows.foldl (fun lo x => lo.tally x.addr x.n (x.addr - off) (p.payload.take size) d.now) lo) 0) ∧
    (∀ l, here 1 → good → p.space = 0#3 → u.dramStatus k a size = 0 → finOf 48 (dramLoft a) = some l →
      let v := u.loftTouch l false (dramOff a) size
      (v.loft l).badIn (dramOff a) size = none → exec (.fabLoad n p .clean) s = .next (s.put
        (v.inject (v.laEnd k p) (rspPkt p 0x11 0 [] ((v.loft l).mem.readN (dramOff a) size))))) ∧
    (∀ st, here 1 → good → p.space = 1#3 → u.laSite k a = some st → u.spadStatus k a size = 0 →
      exec (.fabLoad n p .clean) s = .next (s.put (u.arrive st {
        msu := (u.tile st).fabMsu, kind := .read, addr := a % 2 ^ 25, left := size, req := some p }))) ∧
    (here 2 → good → p.space = 1#3 → u.spadStatus k a size ≠ 0 → exec (.fabStore n p) s = ack u (u.spadStatus k a size)) ∧
    (here 1 → good → p.space = 1#3 → u.spadStatus k a size ≠ 0 → exec (.fabLoad n p .clean) s = .next (s.put
      (u.inject (u.laEnd k p) (rspPkt p 0x11 (u.spadStatus k a size) [] [])))) ∧
    (∀ st, u.laSite k a = some st → 2 ≤ u.power st → u.spadStatus k a size = 5 ∧
      (here 3 → good → p.space = 3#3 → exec (.fabAtomic n p .clean) s = .next (s.put
        (u.inject (u.laEnd k p) (rspPkt p 0x13 5 [] []))))) ∧
    (∀ st, here 3 → good → p.space = 3#3 → u.laSite k a = some st → u.power st < 2 → fld a 0 6 < 48 → u.runOpen (some k) = true →
      exec (.fabAtomic n p .clean) s = .next (s.put (u.arrive st {
        msu := (u.tile st).fabMsu, kind := .bell, addr := fld a 0 6, left := fieldAt p.operand 0 8, req := some p }))) ∧
    (here 5 → good → d.messageTurn p = true →
      (∀ e status, u.doMessage k p = (e, some (status, [], [])) → exec (.fabMessage n p) s = ack e status) ∧
      (∀ e, u.doMessage k p = (e, none) → exec (.fabMessage n p) s = .next (s.put e)))

/-- Responses (R369, R380, R382), of any of the three types, for a tile's remote engine: one whose tag is free, or whose
SEQ or BRAND differ from the request's, is discarded and counted; any other frees the tag, is an occurrence for the sampler (R517)
and, with a status that is not 0, raises the fault of R382. A response that is not well formed is dropped; any other crosses the
mesh to its tile (R328; log entry 71, the model's choice). -/
def Obligations.ResponsesMatchedByTag : Prop :=
  ∀ (n : LinkId) (p : FabPkt) (st : SiteId) (tag : Fin 128) (s : State),
    let d := s.dev
    let t := d.takePkt n p
    let answers (i : Instr) (typ : Nat) : Prop := responseEnabled n typ p d = true →
      (pktWellFormed p = false → exec i s = .next (s.put (t.dropMalformed p))) ∧
      (pktWellFormed p = true → finOf 48 (tagSite p.tag) = some st → tagKind p.tag = 0 → t.hasTile st = true →
        finOf 128 (tagIdx p.tag) = some tag →
        let v := match d.pktFrom n p with | some e => t.carryPkt e (.tile st) (t.padOf st) p | none => t
        let g := (v.tile st).rm.tags[tag]
        (g.held = none → exec i s = .next (s.put
          (v.modTile st fun t => { t with rm := { t.rm with stale := t.rm.stale.inc d.now } }))) ∧
        (∀ u, g.held = some u → (g.seq ≠ p.seq ∨ u.brand ≠ p.brand) → exec i s = .next (s.put
          (v.modTile st fun t => { t with rm := { t.rm with stale := t.rm.stale.inc d.now } }))) ∧
        (∀ u, g.held = some u → g.seq = p.seq → u.brand = p.brand → p.status ≠ 0#8 → exec i s = .next (s.put
          (((v.modTile st fun t => { t with rm := { t.rm with tags := vmod t.rm.tags tag fun g => { g with held := none } } }).sample st
            { kind := 3, addr := (rdRowAddr u.issued.desc u.row).toNat, latency := d.now - u.sentAt, step := rdStepId u.issued.desc,
              unit := 31, ctx := u.issued.ctx.val }).rmFault st
            u.issued (if p.status = 3#8 then 0xE001 else 0x6011) (rdRowAddr u.issued.desc u.row).toNat p.status.toNat))) ∧
        (∀ u, g.held = some u → g.seq = p.seq → u.brand = p.brand → p.status = 0#8 →
          ∃ e, exec i s = .next (s.put e) ∧ ((e.tile st).rm.tags[tag]).held = none ∧ ((e.tile st).rm.tags[tag]).seq = p.seq ∧
            (e.tile st).spad = (d.tile st).spad ∧ e.lofts = d.lofts))
    answers (.fabLoadRsp n p) 0x11 ∧ answers (.fabAck n p) 0x12 ∧ answers (.fabAtomicRsp n p) 0x13

/-- The remote engine of a tile (R377 to R382): a row that fails its checks stops the engine with 0x6013; a good one
goes out under the lowest free tag, whose SEQ advances; a row is held back while a request of its stream with the old
epoch is unanswered. A descriptor whose rows are answered pushes its record and rings its bell; a request without an
answer for 1,048,576 cycles gives up its tag and stops the engine with 0x6010. -/
def Obligations.RemoteEngineSendsAndCompletes : Prop :=
  ∀ (st : SiteId) (tag : Fin 128) (i : Issued) (run : Bool) (u : RmUse) (s : State),
    let d := s.dev
    let r := (d.tile st).rm
    let x := i.desc
    let data := if rdOp x = 1 ∨ rdOp x = 2 then r.outBuf.take (rdRowBytes x) else []
    (sendRmEnabled st d = true → r.running = some i → rdRowOk x r.row = false →
      exec (.remoteRequestSend st) s = .next (s.put (d.rmFault st i 0x6013 (unsignedOf 64 (rdRowAddr x r.row)) 0))) ∧
    (sendRmEnabled st d = true → r.running = some i → rdRowOk x r.row = true → r.freeTag = some tag →
      let a := (rdRowAddr x r.row).toNat
      exec (.remoteRequestSend st) s = .next (s.put
        (((d.modTile st fun t => { t with rm := t.rm.sent tag i d.now (d.timer st) d.injEpoch (d.tileBrand st) }).countFixed st 7
          (ceilDiv data.length 64)).inject (some (.tile st))
            (reqPkt (a / 2 ^ 39 % 2 ^ 14) (a / 2 ^ 53) (a % 2 ^ 39) (rdType x) (rdRowBytes x) (d.tileBrand st)
              (tagOf tag.val st.val 0) ((r.tags[tag]).seq + 1) (rdPrio x)
              (if rdOp x = 3 then leBytes 8 (fld x 384 64) ++ leBytes 8 (fld x 448 64) ++ leBytes 1 (rdAop x) else [])
              data)))) ∧
    (r.running = some i → rdRowOk x r.row = true →
      r.holds (rdMsu x) (BitVec.ofNat 14 (rdFaddr x / 2 ^ 39)) d.injEpoch = true →
      exec (.remoteRequestSend st) s = .next s) ∧
    (rmCompleteEnabled st d = true → r.finished d.now = some (i, run) → rdBellEn x = false →
      ∃ e, exec (.remoteDescriptorComplete st) s = .next (s.put e) ∧ OnlyTile st d e ∧
        (e.tile st).rm.done = r.done.push d.now (rmRecord x) ∧
        (run = false → (e.tile st).rm.tail = eraseFirst (fun q => q.1 == i) r.tail)) ∧
    (timeoutEnabled st tag d = true → (r.tags[tag]).held = some u → exec (.remoteTimeout st tag) s = .next (s.put
      ((d.modTile st fun t => { t with rm := { t.rm with tags := vmod t.rm.tags tag fun g => { g with held := none } } }).rmFault
        st u.issued 0x6010 (rdRowAddr u.issued.desc u.row).toNat 0)))

/-- Discovery and election (R358 to R362): a DISCOVER is remembered, and one that does not match the hitch map is
reported (0x6027) with an alert; a better CANDIDATE on a trusted link becomes the parent's and goes on to the other
trusted links, and the device reports up its new tree, a worse one changes nothing; 250 ms later the best candidate is the master. The link of a report is kept on its way up, with HOPS counted (R373), and so goes an ASSIGN down;
a number that the master assigns is taken. A message on a link that is not trusted is
refused. -/
def Obligations.FabricElectsAndNumbers : Prop :=
  ∀ (n : LinkId) (x : Discover) (c sender target : BitVec 64) (prio : Nat) (t : Topology) (hops : BitVec 6) (number : BitVec 14) (s : State),
    let d := s.dev
    let f := d.freeFlits n 4
    let up : Prop := d.running = true ∧ (d.link n).state = .up
    (up → f.hitchLinks.find? (fun h => h.1 == n) = none → exec (.discover n x) s = .next (s.put
      { f with fab := { f.fab with neighbours := (n, x) :: f.fab.neighbours.filter fun q => q.1 != n } })) ∧
    (∀ h, up → f.hitchLinks.find? (fun h => h.1 == n) = some h → f.hitchMatch h.2 x = false → ∃ e,
      exec (.discover n x) s = .next (s.put e) ∧ e.hitchFormed = false ∧ e.alerts.getLsbD alertFabric = true ∧
      e.fab.hitchOk = f.fab.hitchOk.filter (· != n)) ∧
    (up → f.trusted n = false →
      exec (.candidate n c prio) s = .next (s.put (f.mgmtRefuse [n.val])) ∧
      exec (.topologyReport n hops t) s = .next (s.put (f.mgmtRefuse [n.val])) ∧
      exec (.assign n hops sender target number) s = .next (s.put (f.mgmtRefuse [n.val, sender.toNat]))) ∧
    (∀ b q, up → f.trusted n = true → f.electAssigned = false → f.fab.best = some (b, q) →
      (betterCand c.toNat prio b.toNat q = false → exec (.candidate n c prio) s = .next (s.put f)) ∧
      (betterCand c.toNat prio b.toNat q = true → ∃ e, exec (.candidate n c prio) s = .next (s.put e) ∧
        e.fab.best = some (c, prio) ∧ e.fab.parent = some n ∧ e.fab.bestSince = d.now ∧
        e.fab.out = f.fab.out ++ ((f.trustedLinks.filter (· != n)).map fun m =>
            { link := m, ready := d.now, epoch := d.injEpoch, pkt := .candidate c prio }) ++
          (if f.role = 0 then [] else [{ link := n, ready := d.now, epoch := d.injEpoch
                                         pkt := .topology 0#6 (f.myTopology s.fuse.serial) }]))) ∧
    (electionEnabled d = true → d.fab.best = some (c, prio) → ∃ e, exec .masterElectionTimeout s = .next (s.put e) ∧
      e.fab.master = c ∧ (e.isMaster = true ↔ c = s.fuse.serial) ∧ e.lofts = d.lofts) ∧
    (up → f.trusted n = true → f.isMaster = false →
      let g := f.record t.serial n
      g.recorded t.serial = some n ∧
      (f.fab.parent = none → exec (.topologyReport n hops t) s = .next (s.put g)) ∧
      ∀ m, f.fab.parent = some m →
        (hops ≠ 63#6 → exec (.topologyReport n hops t) s = .next (s.put (g.sendOn m (.topology (hops + 1) t)))) ∧
        (hops = 63#6 → exec (.topologyReport n hops t) s = .next (s.put (g.dropTtl 0 0)))) ∧
    (∀ m, up → f.fromMaster n sender = true → target ≠ s.fuse.serial → f.recorded target = some m → hops ≠ 63#6 →
      exec (.assign n hops sender target number) s = .next (s.put (f.sendOn m (.assign (hops + 1) target number)))) ∧
    (up → f.fromMaster n sender = true → target = s.fuse.serial → ∃ e,
      exec (.assign n hops sender target number) s = .next (s.put e) ∧ e.numbered = true ∧ e.number = number ∧
      e.isMaster = d.isMaster ∧ e.lofts = d.lofts)

/-- Routes and epochs (R374, R376, R390): a ROUTE_WRITE of the master to a version that is open is written and
acknowledged with status 0, to any other version it is not written and acknowledged with 1; an EPOCH_FLIP makes the new
version the one that injects and is acknowledged; a ROUTE_ACK with status 0 pays one acknowledgement that its
sender owes the master, and one with another status leaves it owed. A message that is not the master's is refused: on the tree its sender tells, by table the device number that the master's
messages on the tree have shown (log entry 87, the model's choice). -/
def Obligations.RoutesWrittenByTheMaster : Prop :=
  ∀ (n : LinkId) (sender : BitVec 64) (p : FabPkt) (s : State), s.dev.running = true → (s.dev.link n).state = .up →
    let f := s.dev.freeFlits n 4
    let g := f.seeMaster p
    let first := fieldAt p.operand 6 2
    let count := p.size.toNat / 2
    let version := BitVec.ofNat 1 (mgByte p 4)
    let mine : Prop := f.masterSent n sender p = true ∧ g.mgMine s.fuse.serial p = true ∧ pktWellFormed p = true
    let fits : Prop := p.size.toNat % 2 = 0 ∧ 1 ≤ count ∧ count ≤ 2048 ∧ first + count ≤ 16384
    (f.masterSent n sender p = false →
      exec (.routeWrite n sender p) s = .next (s.put (f.mgmtRefuse [n.val, sender.toNat])) ∧
      exec (.epochFlip n sender p) s = .next (s.put (f.mgmtRefuse [n.val, sender.toNat]))) ∧
    (mine → mgCode p = 5 → fits → g.routeOpen version = true → exec (.routeWrite n sender p) s = .next (s.put
      ((g.writeRoutes version first ((List.range count).map fun i => BitVec.ofNat 16 (fieldAt p.payload (2 * i) 2))).ackRoute
        p 0))) ∧
    (mine → mgCode p = 5 → fits → g.routeOpen version = false →
      exec (.routeWrite n sender p) s = .next (s.put (g.ackRoute p 1))) ∧
    (mine → mgCode p = 7 → ∃ e,
      exec (.epochFlip n sender p) s = .next (s.put e) ∧ e.injEpoch = version ∧ e.number = f.number ∧
      e.fab.routes0 = f.fab.routes0 ∧ e.fab.routes1 = f.fab.routes1) ∧
    (sender ≠ 0#64 → f.trusted n = true → pktWellFormed p = true → mgCode p = 6 → f.isMaster = true →
      (mgTree p = 1 ∨ f.isMine p = true) → f.rebuild = none →
      (p.status = 0#8 → exec (.routeAck n sender p) s = .next (s.put
        { f with fab := { f.fab with rebuildAcks := eraseFirst (· == p.src) f.fab.rebuildAcks } })) ∧
      (p.status ≠ 0#8 → exec (.routeAck n sender p) s = .next (s.put f)))

/-- Barrier packets (R255, R258, R268, R391): the arrival of a child that the barrier awaits is counted, and the barrier is then
checked for completeness; the parent's release of the next episode releases it. A packet of another barrier, child or parent, and
a release of another episode, is dropped with an event, and on a link that is not trusted it is refused; every one crosses the mesh to the carillon first (R328; log entry 71, the model's
choice). An arrival at a disabled
barrier overruns the paddock; one of a child that has arrived, and one of the episode before, overrun the barrier, and from then on
neither an arrival nor a release changes it. -/
def Obligations.SpanningBarriersFollowTheirTree : Prop :=
  ∀ (n : LinkId) (p : FabPkt) (k : PadId) (b : BarId) (s : State),
    s.dev.hasPkt n p = true → s.dev.isMine p = true →
    let d := s.dev
    let t := d.takePkt n p
    let q := t.bar b
    let trusted : Prop := d.trusted n = true ∨ d.fab.loop.contains p = true
    let good (code : Nat) : Prop := trusted ∧ pktWellFormed p = true ∧ mgCode p = code ∧ p.len = 0#7 ∧
      t.brandPad p.brand = some k ∧ t.barOf k p = some b ∧ q.brand = p.brand ∧ q.spanning = true
    (¬ trusted → exec (.fabBarrierArrive n p) s = .next (s.put (t.mgmtRefuse [n.val])) ∧
      exec (.fabBarrierRelease n p) s = .next (s.put (t.mgmtRefuse [n.val]))) ∧
    (good 8 → (t.children b).contains p.src = true → mgByte p 5 % 4 = q.episode.toNat → q.enabled = true → q.stuck = false →
      q.children.contains p.src = false → exec (.fabBarrierArrive n p) s = .next (s.put
        ((t.modBar b fun q => { q.setState 16 8 (q.arrivedChildren + 1) with children := q.children ++ [p.src] }).checkBar
          b))) ∧
    (good 8 → (t.children b).contains p.src = false →
      exec (.fabBarrierArrive n p) s = .next (s.put (t.dropBar p))) ∧
    (good 8 → (t.children b).contains p.src = true →
      (q.enabled = false → exec (.fabBarrierArrive n p) s = .next (s.put (t.overrun k b))) ∧
      (q.enabled = true → q.stuck = true → exec (.fabBarrierArrive n p) s = .next (s.put
        (if q.children.contains p.src then t.dropBar p else t))) ∧
      (q.enabled = true → q.stuck = false → q.children.contains p.src = true →
        exec (.fabBarrierArrive n p) s = .next (s.put ((t.dropBar p).overrunBar b))) ∧
      (q.enabled = true → q.stuck = false → q.children.contains p.src = false →
        (mgByte p 5 % 4 = (q.episode - 1).toNat → exec (.fabBarrierArrive n p) s = .next (s.put (t.overrunBar b))) ∧
        (mgByte p 5 % 4 ≠ (q.episode - 1).toNat → mgByte p 5 % 4 ≠ q.episode.toNat →
          exec (.fabBarrierArrive n p) s = .next (s.put t)))) ∧
    (good 9 → q.hasParent = true → p.src.toNat = q.parent → mgByte p 5 % 4 = (q.episode + 1).toNat →
      (q.stuck = false → exec (.fabBarrierRelease n p) s = .next (s.put (t.releaseBar b))) ∧
      (q.stuck = true → exec (.fabBarrierRelease n p) s = .next (s.put t))) ∧
    (good 9 → (q.hasParent = false ∨ p.src.toNat ≠ q.parent ∨ mgByte p 5 % 4 ≠ (q.episode + 1).toNat) →
      exec (.fabBarrierRelease n p) s = .next (s.put (t.dropBar p)))

/-! ### Power, clocks and bring-up (R480, R499 to R503, R522 to R537) -/

/-- Reset (R531): asserting PORST_N stops every block, at any time, and of the device only the repair tables, which lie
in the boot flash, the site map that fuses and repairs give, and REPLACE_N stay; fuses and flash keep what they hold. A loft whose training ends in bring-up holds
zero bytes at every address. Removing the power releases REPLACE_N as well (R504). The numbers of free values and of the
last read are the model's own. -/
def Obligations.ResetKeepsFusesOnly : Prop :=
  ∀ (l : SiteId) (failed : List (Fin 64)) (s : State),
    let d := s.dev
    let kept : Dev := { stage := .inReset, kinds := bootKinds s.fuse d.repairs, repairs := d.repairs, rowSpares := d.rowSpares, replaceN := d.replaceN, freeCtr := d.freeCtr, readout := d.readout }
    exec .porstAssert s = .next { s with dev := kept } ∧
    exec .powerOff s = .next { s with dev := { kept with replaceN := false } } ∧
    (d.stage = .blocks ∨ d.stage = .recovery → (d.loft l).trained = false → ∃ e,
      exec (.loftTrainingComplete l failed) s = .next (s.put e) ∧ (e.loft l).trained = true ∧
      ∀ a, (e.loft l).mem.read a = 0#8)

/-- The steps of bring-up (R523, R532, R533, R535, R537): releasing PORST_N samples the strap and starts the PLL, lock
starts the clocks at time zero in the boot ROM; the slot of the higher valid version boots and without a valid slot the
device is in recovery mode with an alert; lofts train and sites are tested once; when all have, and nothing has failed,
the device is ready. Loss of lock loses all work and waits for the PLL again; a trip stops the clocks, and every paddock's work
is lost: it is stopped, without an image or a run, which is the model's choice, log entry 31. -/
def Obligations.BringUpInStages : Prop :=
  ∀ (strap : BitVec 2) (a b : SlotImage) (unclean : List (Fin 3 × Nat)) (store : Option Bytes) (entropyOk pass : Bool) (st : SiteId)
    (src : TripSource) (s : State),
    let d := s.dev
    let fz := s.fuse
    let sa := slotBytes fz 0 a
    let sb := slotBytes fz 1 b
    (d.stage = .inReset → exec (.porstRelease strap) s = .next (s.put { d with stage := .pll, strap := strap })) ∧
    (d.stage = .pll ∨ d.stage = .lost → exec .pllLock s = .next (s.put { d with stage := .rom, clk := {} })) ∧
    (d.running = true →
      exec .pllLossOfLock s = .next (s.put { d.cleared fz .lost with strap := d.strap, alerts := d.alerts, i3cAddr := d.i3cAddr })) ∧
    (d.running = true ∨ d.stage = .pll ∨ d.stage = .lost → exec (.thermalTrip src) s = .next (s.put
        { d with stage := .tripped, pads := d.pads.map fun p => p.map Paddock.lost })) ∧
    (d.stage = .rom → ∃ t, exec (.firmwareSlotChoice a b unclean store entropyOk) s = .next t ∧
      t.pending = s.pending ∧ t.fuse = { fz with svnFloor := risenFloor fz sa sb } ∧
      (slotValid fz sa = false → slotValid fz sb = false → t.dev.stage = .recovery ∧ t.dev.alerts.getLsbD alertBoot = true) ∧
      (slotValid fz sa = true ∨ slotValid fz sb = true → t.dev.stage = .blocks ∧
        t.dev.ym.slotB = (slotValid fz sb && (!slotValid fz sa ||
          decide (Config.fwSecurityVersion sa < Config.fwSecurityVersion sb))))) ∧
    (d.stage = .blocks ∨ d.stage = .recovery → d.tested.contains st = false → d.kinds[st] ≠ .retired →
      let d := { d with tested := st :: d.tested }.noteTest st
      exec (.siteSelfTest st pass) s = .next (s.put (if pass = true then d else d.retireTile st none))) ∧
    (readyEnabled d = true → ∃ e, exec .mailboxReady s = .next (s.put e) ∧ e.stage = .ready ∧ e.mailboxReady = true ∧
      e.ym.cap = (if fz.variantL = true then 1 else 0) ∧ e.ym.step = max e.ym.cap (max d.ym.thermal d.ym.power) ∧
      e.tiles = d.tiles ∧ e.lofts = d.lofts)

/-- GOVERNOR_CHECK (R525): at 100 °C or more the thermal governor asks for one step more, at most 3; under 95 °C for 10
ms it gives one back, not below the cap; between the two it stays. Within 1 ms of the last check nothing happens. ACLK runs at the largest of the cap and the two
governors' steps, a change of which is counted, and above 105 °C the alert is raised. Tiles, but for their sensors,
lofts and memory are as before. -/
def Obligations.GovernorStepsWithTemperature : Prop :=
  ∀ (r : GovReading) (s : State),
    (governorDue s.dev = false → exec (.governorCheck r) s = .next s) ∧
    (governorDue s.dev = true →
    let d := s.dev
    let y := d.ym
    let h := (hottest r.junction).1.toInt
    Completes (.governorCheck r) s fun e =>
      (800 ≤ h → e.ym.thermal = min 3 (max y.thermal y.cap + 1) ∧ e.ym.thermalCool = none) ∧
      (760 ≤ h → h < 800 → e.ym.thermal = y.thermal ∧ e.ym.thermalCool = none) ∧
      (h < 760 → y.thermalCool = none → e.ym.thermal = y.thermal ∧ e.ym.thermalCool = some d.now) ∧
      (∀ t, h < 760 → y.thermalCool = some t → y.cap < y.thermal → t + msN 10 ≤ d.now → e.ym.thermal = y.thermal - 1) ∧
      (∀ t, h < 760 → y.thermalCool = some t → d.now < t + msN 10 → e.ym.thermal = y.thermal) ∧
      e.ym.step = max y.cap (max e.ym.thermal e.ym.power) ∧ e.ym.cap = y.cap ∧
      e.ym.clkSteps = (if y.step = e.ym.step then y.clkSteps else y.clkSteps.inc d.now) ∧ e.ym.govAt = some d.now ∧
      (840 < h → e.alerts.getLsbD alertJctHot = true) ∧ e.lofts = d.lofts ∧
      ∀ st : SiteId, (e.tile st).spad = (d.tile st).spad ∧ (e.tile st).ctxs = (d.tile st).ctxs ∧
        (e.tile st).power = (d.tile st).power)

/-- Entropy (R480): a failure is remembered, raises the alert and takes every link in HANDSHAKE, and every link that
rekeys, to DOWN, while SESSION_OPEN is not accepted; when the tests pass again the seed requests that were held are
served. Failures of yardmaster cores (R499 to R503): a core whose watchdog expires or whose own state meets an uncorrectable word, or an active
one whose journal fails its check, which another active core makes every 1 ms, is reset, and an active core's duties wait for a
handover; a good journal changes nothing but the time of the check. The handover gives
them to the standby, counts and posts it. A reset core that passes its self-test is the standby; one that fails is
retired and recorded while the table has room. -/
def Obligations.EntropyAndCoresFailSafely : Prop :=
  (∀ (port : Port) (s : State), s.dev.running = true →
    let d := s.dev
    (d.entropyOk = true → ∃ e, exec .entropyFailed s = .next (s.put e) ∧ e.entropyOk = false ∧
      e.alerts.getLsbD alertEntropy = true ∧ (∀ n : LinkId, ((d.link n).state = .handshake ∨ (d.link n).rekeying = true) →
        (e.link n).state = .down ∧ (e.link n).txKey = []) ∧
      (∀ n : LinkId, (d.link n).state ≠ .handshake → (d.link n).rekeying = false → (d.link n).SameButFreed (e.link n)) ∧
      e.tiles = d.tiles ∧ e.lofts = d.lofts) ∧
    (d.entropyOk = false → exec .entropyTestsPass s = .next (s.put
        { d with entropyOk := true, tiles := d.tiles.map Tile.seedUnits }) ∧
      ¬ sessionOpenCmd.Accepted port s)) ∧
  (∀ (c w : CoreId) (cause : CoreCause) (t : Nat) (rest : List (CoreId × Nat)) (s : State), s.dev.worvis = true →
    let d := s.dev
    let y := d.ym
    let fails (i : Instr) : Prop := ∃ e, exec i s = .next (s.put e) ∧ e.ym.cores[c] = .resetting ∧
      e.ym.handover = (if y.cores[c] = .active then y.handover ++ [(c, d.now)] else y.handover) ∧
      e.ym.duties = y.duties ∧ (∀ c' : CoreId, c' ≠ c → e.ym.cores[c'] = y.cores[c']) ∧ e.tiles = d.tiles ∧ e.lofts = d.lofts
    ((y.cores[c] = .active ∨ y.cores[c] = .standby) → fails (.watchdogExpiry c cause)) ∧
    (journalDue c d = true → fails (.journalCheck c false) ∧
      exec (.journalCheck c true) s = .next (s.put (d.modYm fun y => { y with checkedAt := vmod y.checkedAt c fun _ => d.now }))) ∧
    (∀ ok, journalDue c d = false → exec (.journalCheck c ok) s = .next s) ∧
    (y.handover = (c, t) :: rest → c ≠ w → (fins 4).find? (fun c => y.cores[c] == .standby) = some w →
      ∃ e, exec .coreHandover s = .next (s.put e) ∧ e.ym.cores[w] = .active ∧ e.ym.duties[w] = y.duties[c] ||| y.duties[w] ∧
        e.ym.duties[c] = 0#4 ∧ e.ym.handovers = satInc y.handovers ∧ e.ym.handover = rest ∧
        e.tiles = d.tiles ∧ e.lofts = d.lofts) ∧
    (y.cores[c] = .resetting →
      (∃ e, exec (.coreSelfTest c true) s = .next (s.put e) ∧ e.ym.cores[c] = .standby ∧ e.repairs = d.repairs) ∧
      (∃ e, exec (.coreSelfTest c false) s = .next (s.put e) ∧ e.ym.cores[c] = .retired ∧
        e.repairs = (if d.repairs.length < 64 then d.repairs ++ [.core c] else d.repairs))))

/-! ### Registers and the owner port (R8, R423, R544) -/

/-- Registers (R5, R8, R9): who may access a block reads its value, and RC fields are cleared; a write changes no
register of the yardmaster and no RO register of a tile; TILE_CTX_FAULT is cleared by ones, but for the bits that this very
cycle has set; barriers' CFG takes the writable bits of the half written, and a barrier with neither targets nor children is
never enabled (R260). Whoever may not access a block changes nothing. -/
def Obligations.RegistersReadAndWritten : Prop :=
  ∀ (blk : RegBlock) (off : Nat) (who : Accessor) (v : BitVec 64) (st : SiteId) (b : BarId) (half : Fin 2) (s : State),
    let d := s.dev
    (mayAccess blk who d = true → exec (.registerRead blk off who) s = .next (s.put
      ((d.show (d.regRead s.fuse blk off)).regClear blk off))) ∧
    (mayAccess blk who d = false → exec (.registerRead blk off who) s = .next s ∧
      exec (.registerWrite blk off who v) s = .next s) ∧
    (mayAccess (.tile st) who d = true → exec (.registerRead (.tile st) 0x380 who) s = .next (s.put
      (((d.show (d.regRead s.fuse (.tile st) 0x380)).modTile st fun t => { t with spad := { t.spad with ecc := t.spad.ecc.taken d.now } })))) ∧
    exec (.registerWrite .yardmaster off who v) s = .next s ∧
    exec (.registerWrite (.tile st) 0x380 who v) s = .next s ∧
    (mayAccess (.tile st) who d = true → exec (.registerWrite (.tile st) 0x18 who v) s = .next (s.put
      (d.modCtl st fun c => c.clearFaults (v.setWidth 16) d.now)) ∧
      (∀ c : TileCtl, (c.clearFaults (v.setWidth 16) d.now).ctxFault =
        c.ctxFault &&& ~~~ (v.setWidth 16 &&& ~~~ (if c.faultSet.1 = d.now then c.faultSet.2 else 0#16)))) ∧
    (mayAccess .carillon who d = true → exec (.registerWrite .carillon (16 * b.val + 8 * half.val) who v) s = .next (s.put
      (d.modBar b fun q => q.put (write64 q.cfg.toNat barMask half.val v.toNat)))) ∧
    (∀ (q : CarBarrier) (x : Nat), (q.put x).state = q.state ∧ (q.put x).children = q.children ∧
      ((q.put x).target = 0 → ((q.put x).spanning = false ∨ (q.put x).childCount = 0) → (q.put x).enabled = false))

/-- The owner port's target (R423, R544): an address is taken while none is held, from SETDASA for the static address
0x3A only, and RSTDAA gives it up; with an address GETPID, GETBCR and GETDCR read the device's constants and GETSTATUS a
free value; a private write is the release of the READY response with its SEQ, or a command for an EMPTY buffer. -/
def Obligations.OwnerPortTakesCommands : Prop :=
  ∀ (st addr : BitVec 7) (data : Bytes) (s : State), s.dev.stage ≠ .inReset →
    let d := s.dev
    let b := d.owner
    let writes (i : Instr) : Prop :=
      (data.length = 4 → data.take 2 = [0x01#8, 0xFF#8] → b.state = .ready → fieldAt data 2 2 = b.seq.toNat →
        exec i s = .next (s.put { d with owner := b.release })) ∧
      ((data.length ≠ 4 ∨ data.take 2 ≠ [0x01#8, 0xFF#8]) → b.state = .empty →
        exec i s = .next (s.put { d with owner := b.submit (padTo 4096 data) })) ∧
      ((data.length ≠ 4 ∨ data.take 2 ≠ [0x01#8, 0xFF#8]) → b.state ≠ .empty → exec i s = .next s)
    (d.i3cAddr = none → exec (.entdaa addr) s = .next (s.put { d with i3cAddr := some addr }) ∧
      exec (.setdasa 0x3A#7 addr) s = .next (s.put { d with i3cAddr := some addr }) ∧
      (st ≠ 0x3A#7 → exec (.setdasa st addr) s = .next s)) ∧
    exec .rstdaa s = .next (s.put { d with i3cAddr := none }) ∧
    (d.i3cAddr.isSome = true →
      exec .getpid s = .next (s.put (d.show Config.i3cPid.toNat)) ∧
      exec .getbcr s = .next (s.put (d.show Config.i3cBcr.toNat)) ∧
      exec .getdcr s = .next (s.put (d.show Config.i3cDcr.toNat)) ∧
      exec .getstatus s = .next (s.put { d.show (Config.i3cStatus d.freeCtr).toNat with freeCtr := d.freeCtr + 1 }) ∧
      writes (.ownerCommandWrite data) ∧ writes (.ownerResponseRelease data))

/-! ### Commands that Worvis answers (R405 to R434, R443, R452, R459 to R468) -/

/-- The check order (R424), for every row of R427: a row acts only on the command that waits in its carrier; the first
check that fails, in the order of the steps, gives the status, and a hardware error gives DEVICE_ERROR (0x0500) when
every check has passed; then nothing has changed but the carrier, which holds the response. A check that no longer holds once the
tiles that the command needs have been woken (R528, R529) gives its status too, with those tiles awake. -/
def Obligations.FirstFailedCheckAnswers : Prop :=
  ∀ (i : Instr) (c : Cmd) (port : Port) (hw : Bool) (st : Nat) (s : State), worvisRow i = some (c, port, hw) →
    let e := s.env port
    let answer (st : Nat) (tag : Bool) : State :=
      s.put ((s.dev.countCmd e.sess st).respond port (e.reply { status := st } tag))
    (c.waits port s.dev = false → exec i s = .next s) ∧
    (c.waits port s.dev = true → firstBad (c.entry e) = some st →
      exec i s = .next (answer st (decide (st ≠ stAuth)))) ∧
    (c.waits port s.dev = true → firstBad (c.entry e) = none → firstBad (c.checks e) = some st →
      exec i s = .next (answer st true)) ∧
    (c.waits port s.dev = true → (∀ x ∈ c.entry e ++ c.checks e, x.1 = true) → hw = true →
      exec i s = .next (answer stDevice true)) ∧
    (c.waits port s.dev = true → (∀ x ∈ c.entry e ++ c.checks e, x.1 = true) → hw = false →
      firstBad (c.checks (c.woken e)) = some st →
      exec i s = .next (s.put (((c.wakes e).countCmd e.sess st).respond port (e.reply { status := st } true))))

/-- Commands that only read (R427, R429, R433, R454, R457, R463): the answer is OK with the body that the row gives, and
nothing else of the device changes but the carrier and the session's count. -/
def Obligations.QueriesOnlyAnswer : Prop :=
  ∀ (p : Port) (s : State),
    let e := s.env p
    let d := s.dev
    let ok (i : Instr) (body : Bytes) : Prop := exec i s = .next (s.answered p s.fuse d { body := body })
    (getIdentityCmd.Accepted p s → ok (.getIdentity p false) (d.identity s.fuse)) ∧
    (getFaultRecordCmd.Accepted p s → ok (.getFaultRecord p false) (faultBody e e.faultRec)) ∧
    (paddockQueryCmd.Accepted p s → ok (.paddockQuery p false) (d.padReport e.k e.p)) ∧
    (seqReadCmd.Accepted p s → ∀ (i : Fin 16) k, e.f 0 1 = i.val → (d.seqs[i]).bound = some k →
      ok (.seqRead p false) (leBytes 4 k.val ++ leBytes 4 (d.seqs[i]).length)) ∧
    (getAttestationCmd.Accepted p s → ok (.getAttestation p false) (report e)) ∧
    (getCertChainCmd.Accepted p s → ok (.getCertChain p false) (chainBody e (d.fullChain s.fuse))) ∧
    (beatTableGetCmd.Accepted p s → ok (.beatTableGet p false) d.beatBody) ∧
    (telemetryReadCmd.Accepted p s → ok (.telemetryRead p false) (pageBody e e.page)) ∧
    (fabricStatusCmd.Accepted p s → ok (.fabricStatus p false) d.fabricBody) ∧
    (settingReadCmd.Accepted p s → ok (.settingRead p false) (leBytes 8 (d.inForce (e.f 0 2))))

/-- Commands on paddocks and sequence slots (R428 to R430, R435 to R438, R442): a creation takes the lowest free number
and what fits, its tiles awake (R528); a release frees the paddock, closes its sessions and slots and hands its windows back; a grant adds one
window, owned by the session it came under, and fails the device where a channel of its loft is dead (R503); a span, a slot's opening, length and closing, and a ring, are set as asked.
-/
def Obligations.PaddockCommandsTakeEffect : Prop :=
  ∀ (p : Port) (s : State),
    let e := s.env p
    let d := s.dev
    let done (i : Instr) (d : Dev) (r : Rsp) : Prop := exec i s = .next (s.answered p s.fuse d r)
    (paddockCreateCmd.Accepted p s → ∃ k sites bar work base pass,
      let w := paddockCreateCmd.woken e
      w.d.freePad = some k ∧ w.fits = some (sites, bar, work, base) ∧
      done (.paddockCreate p false) (createPad w k sites bar work base)
        { body := leBytes 8 k.val ++ leBytes 8 (siteMask sites) ++ leBytes 16 (siteMask pass) } ∧
      pass = (((createPad w k sites bar work base).pad k).map (·.pass)).getD []) ∧
    (paddockReleaseCmd.Accepted p s → ∃ d', done (.paddockRelease p false) d' {} ∧ d'.pad e.k = none ∧
      (∀ q ∈ d'.sessions, q.pad ≠ e.k) ∧ (∀ i : Fin 16, (d'.seqs[i]).bound ≠ some e.k) ∧
      (∀ k : PadId, k ≠ e.k → d'.pad k = d.pad k) ∧ ∀ l : SiteId, (d'.loft l).mem = (d.loft l).mem) ∧
    (∀ l, paddockGrantCmd.Accepted p s → finOf 48 (e.f 1 1) = some l →
      let w : Window := { loft := l, base4k := e.f 4 4, size4k := e.f 8 4 }
      let g := d.modPad e.k fun q => { q with windows := q.windows ++ [w] }
      (e.sess = 0 → done (.paddockGrant p false) g.deadWindows {}) ∧
      (e.sess ≠ 0 → done (.paddockGrant p false) (Dev.deadWindows
        { g with seals := vmod g.seals e.k fun x => { x with owned := x.owned ++ [(e.p.windows.length, e.sess)] } }) {})) ∧
    (barrierSpanCmd.Accepted p s → done (.barrierSpan p false) (spanEffect e) {}) ∧
    (seqOpenCmd.Accepted p s → ∃ i : Fin 16, (d.seqs[i]).bound = none ∧ done (.seqOpen p false)
      { d with seqs := vmod d.seqs i fun _ => { bound := some e.k, length := 0 }, freeCtr := d.freeCtr + 1 } { body := leBytes 8 i.val }) ∧
    (∀ i : Fin 16, e.f 0 1 = i.val →
      (seqSetCmd.Accepted p s → done (.seqSet p false)
        { d with seqs := vmod d.seqs i fun q => { q with length := e.f 4 4 } } {}) ∧
      (seqCloseCmd.Accepted p s → done (.seqClose p false) { d with seqs := vmod d.seqs i fun _ => {} } {})) ∧
    (setEventRingCmd.Accepted p s → done (.setEventRing p false) (setRing e) {})

/-- Long operations (R416, R417, R431 to R434): an accepted command is answered ACCEPTED with the handle of an operation
that takes a free slot of the table, in state QUEUED and with the next generation; a load makes its paddock LOADING and
opens a STREAM, a run makes its paddock RUNNING with the parameters of the command; a load, a run and a checkpoint first wake
the paddock's tiles (R528). FW_STAGE erases its slot. -/
def Obligations.LongOperationsQueue : Prop :=
  ∀ (p : Port) (s : State),
    let e := s.env p
    let d := s.dev
    let awake := e.d.wakePad e.k
    let queued (d : Dev) (i : Instr) (t : OpType) (fz : Fuse) (more : Dev → Fin 64 → Prop) : Prop := ∃ d' j body,
      j ∈ d.freeSlots ∧ exec i s = .next (s.answered p fz d'
        { status := stAccepted, handle := opHandle j.val (d'.op j), body := body }) ∧
      (d'.op j).typ = t ∧ (d'.op j).state = .queued ∧ (d'.op j).held = true ∧ (d'.op j).mailbox = e.mailbox ∧
      (d'.op j).gen = nextGen (d.op j).gen ∧ more d' j
    let same (d' : Dev) (_ : Fin 64) : Prop := d'.tiles = d.tiles ∧ d'.lofts = d.lofts ∧ d'.pads = d.pads
    (scrubCmd.Accepted p s → queued d (.scrub p false) .scrub s.fuse same) ∧
    (dramTestCmd.Accepted p s → queued d (.dramTest p false) .dramTest s.fuse same) ∧
    (routeRebuildCmd.Accepted p s → queued d (.routeRebuild p false) .routeRebuild s.fuse same) ∧
    (fwStageCmd.Accepted p s → queued d (.fwStage p false) .fwStage
      { s.fuse with slots := vsetN s.fuse.slots (e.f 0 1) (some []) } same) ∧
    (checkpointCmd.Accepted p s → queued awake (.checkpoint p false) .checkpoint s.fuse fun d' _ =>
      d'.lofts = awake.lofts ∧ d'.tiles = awake.tiles ∧ d'.pads = awake.pads) ∧
    (imageLoadCmd.Accepted p s → queued awake (.imageLoad p false) .imageLoad s.fuse fun d' j => d'.lofts = awake.lofts ∧
      ∃ q, d'.pad e.k = some q ∧ q.state = .loading ∧ q.load = some j ∧ q.faultRec = none) ∧
    (runStartCmd.Accepted p s → queued awake (.runStart p false) .run s.fuse fun d' j =>
      d'.lofts = (awake.wakePad e.k).lofts ∧
      ∃ q, d'.pad e.k = some q ∧ q.state = .running ∧ q.run = some j ∧ q.reloading = true ∧
        q.params = (List.range 64).map fun n => BitVec.ofNat 64 (e.f (8 + 8 * n) 8))

/-- Commands on operations, copies and accounts (R416 to R418, R432, R449): OP_QUERY reports the operation and frees its
slot where that is asked; SUSPEND_OP, RESUME_OP and CANCEL_OP answer the state after them, or WRONG_STATE with the state
as it is where R417 has no such change; a copy takes a handle that no open copy has, and closing it answers the bytes
moved; an account is answered and cleared where that is asked. -/
def Obligations.OperationCommandsAnswerTheState : Prop :=
  ∀ (p : Port) (s : State),
    let e := s.env p
    let d := s.dev
    let done (i : Instr) (fz : Fuse) (d : Dev) (r : Rsp) : Prop := exec i s = .next (s.answered p fz d r)
    let wrong : Rsp := { status := stWrong, body := leBytes 8 e.op.state.code }
    let told (d : Dev) : Rsp := { body := leBytes 8 (d.op e.slot).state.code }
    (opQueryCmd.Accepted p s → done (.opQuery p false) s.fuse (if e.f 4 1 = 1 then d.releaseOp e.slot else d)
      { body := e.op.report }) ∧
    (suspendOpCmd.Accepted p s →
      (∀ d', d.suspendOp e.slot = some d' → done (.suspendOp p false) s.fuse d' (told d')) ∧
      (d.suspendOp e.slot = none → done (.suspendOp p false) s.fuse d wrong)) ∧
    (resumeOpCmd.Accepted p s →
      (∀ d', d.resumeOp e.slot = some d' → done (.resumeOp p false) s.fuse d' (told d')) ∧
      (d.resumeOp e.slot = none → done (.resumeOp p false) s.fuse d wrong)) ∧
    (cancelOpCmd.Accepted p s →
      (∀ fz d', cancelOp e.slot s.fuse d = some (fz, d') → done (.cancelOp p false) fz d' (told d')) ∧
      (cancelOp e.slot s.fuse d = none → done (.cancelOp p false) s.fuse d wrong)) ∧
    (copyOpenCmd.Accepted p s → ∃ d' id, done (.copyOpen p false) s.fuse d' { body := leBytes 8 id } ∧
      (∀ c ∈ d.openCopies, c.id ≠ id) ∧ (∃ c ∈ d'.openCopies, c.id = id ∧ c.kind = e.newCopy.kind ∧ c.addr = e.f 8 8 ∧
        c.bytes = e.f 16 8) ∧ d'.lofts = d.lofts) ∧
    (copyCloseCmd.Accepted p s → done (.copyClose p false) s.fuse (copyCloseEffect e) { body := leBytes 8 e.copy.moved }) ∧
    (accountQueryCmd.Accepted p s → done (.accountQuery p false) s.fuse
      (if e.f 1 1 = 1 then { d with accounts := vsetN d.accounts (e.f 0 1) {} } else d)
      { body := accountBody e (vgetN d.accounts (e.f 0 1) {}) })

/-- Sessions and beats (R443, R464 to R468): a SESSION_OPEN whose ciphertext names the device's key, is new and
decapsulates opens one session more, whose fingerprint is the first 16 bytes of SHAKE256 over its key and "FLEVER-FP-1",
and seals the paddock, whose OUT copies in the clear end (R473; log entry 83, the model's choice); any other is answered AUTH_FAILED (0x0301). A closed session owns no window any more. A beat
table is taken as it is given. -/
def Obligations.SessionsOpenUnderAFingerprint : Prop :=
  ∀ (p : Port) (s : State),
    let e := s.env p
    let d := s.dev
    (sessionOpenCmd.Accepted p s → e.secret = none →
      exec (.sessionOpen p false) s = .next (s.answered p s.fuse d { status := stAuth })) ∧
    (∀ ss, sessionOpenCmd.Accepted p s → e.secret = some ss → ∃ d' q,
      exec (.sessionOpen p false) s = .next (s.answered p s.fuse d' { body := leBytes 8 q.id }) ∧
      d'.sessions = d.sessions ++ [q] ∧ q.pad = e.k ∧ q.mailbox = e.mailbox ∧
      q.fp = Config.shake256 16 (q.key ++ ascii "FLEVER-FP-1") ∧ (d'.seals[e.k]).sealed_ = true ∧
      d'.digests = (e.ctDigest :: d.digests).take 4096 ∧ d'.lofts = d.lofts ∧
      ∀ c ∈ d'.openCopies, c.kind = .copyOut → c.session = none → c.paddock = e.k → c.ended = true) ∧
    (sessionCloseCmd.Accepted p s → ∃ d', exec (.sessionClose p false) s = .next (s.answered p s.fuse d' {}) ∧
      (∀ q ∈ d'.sessions, q.id ≠ e.f 0 2) ∧ (∀ k : PadId, ∀ o ∈ (d'.seals[k]).owned, o.2 ≠ e.f 0 2) ∧
      (∀ k : PadId, (d'.seals[k]).sealed_ = (d.seals[k]).sealed_) ∧ d'.pads = d.pads) ∧
    (beatTableSetCmd.Accepted p s → exec (.beatTableSet p false) s = .next (s.answered p s.fuse
      (d.setBeats (e.beatEntries.map fun x => (finOf 16 x.1, x.2))) {}))

/-- The owner's commands (R434, R452, R459, R461): staged data grow by the bytes of the command; activation counts a
handover; a setting is one row more in each of the three banks and in force only after the next boot; PROVISION adds
keys and with FINISH names the owner; RETIRE blows the owner's fuses, releases every paddock and zeroes every loft;
flags, alerts and links are cleared or set as asked. -/
def Obligations.OwnerCommandsTakeEffect : Prop :=
  ∀ (p : Port) (g : Staging) (n : LinkId) (s : State),
    let e := s.env p
    let d := s.dev
    let fz := s.fuse
    let done (i : Instr) (fz : Fuse) (d : Dev) : Prop := exec i s = .next (s.answered p fz d {})
    (fwDataCmd.Accepted p s → e.stage = some g →
      let data := g.data ++ sliceAt e.body 8 e.fwBytes
      done (.fwData p false) fz { d.modOp g.op fun o => { o with progress := data.length } with staging := some { g with data := data } }) ∧
    (fwActivateCmd.Accepted p s → ∃ d', done (.fwActivate p false) fz d' ∧ d'.ym.handovers = satInc d.ym.handovers ∧
      d'.lofts = d.lofts) ∧
    (clearBootDivergeCmd.Accepted p s → done (.clearBootDiverge p false) fz
      ((d.modYm fun y => { y with diverge := false }).unalert alertDiverge)) ∧
    (settingWriteCmd.Accepted p s → done (.settingWrite p false)
      { fz with banks := fz.banks.map fun b => b ++ [(e.f 0 2, BitVec.ofNat 64 (e.f 8 8))] } d) ∧
    (clearOwnerAlertCmd.Accepted p s → done (.clearOwnerAlert p false) fz (clearAlerts d (e.f 0 4))) ∧
    (linkSetCmd.Accepted p s → e.f 0 1 = n.val → done (.linkSet p false) fz (d.linkSet fz n (e.f 1 1))) ∧
    (provisionCmd.Accepted p s → ∃ fz', done (.provision p false) fz' d ∧ fz'.serial = fz.serial ∧
      (e.f 8 1 = 0 → fz'.lifecycle = .unprovisioned ∧ fz'.ownerId = fz.ownerId) ∧
      (e.f 8 1 = 1 → fz'.lifecycle = .provisioned ∧ fz'.ownerEpoch = fz.ownerEpoch + 1 ∧
        ∃ key, fz'.store.owner = some key ∧ fz'.ownerId = some (keyId key))) ∧
    (retireCmd.Accepted p s → ∃ d', done (.retire p false) { fz with ownerId := none, trustDigest := [], signersBlown := true, ownerEpoch := fz.ownerEpoch + 1, lifecycle := .retired } d' ∧
      (∀ k : PadId, d'.pad k = none) ∧ ∀ l : SiteId, (d'.loft l).mem = [])

/-- Every command of R427 completes (R405, R424): one that waits in its carrier and passes every check of R424, also once the
tiles that it needs are awake, is performed and answered, whatever the state and the carrier: the next state is the effect of its
row with the response in the carrier (`State.answered`). What each effect is, the statements before this one say. The answer is OK,
or ACCEPTED for a long operation; SESSION_OPEN answers AUTH_FAILED (0x0301) where the ciphertext does not open, and SUSPEND_OP,
RESUME_OP and CANCEL_OP answer WRONG_STATE (0x0200) where R417 has no such change. -/
def Obligations.EveryAcceptedCommandCompletes : Prop :=
  ∀ (p : Port) (s : State),
    let e := s.env p
    (getIdentityCmd.Accepted p s → exec (.getIdentity p false) s = .next
      (s.answered p s.fuse s.dev { body := s.dev.identity s.fuse })) ∧
    (setEventRingCmd.Accepted p s → exec (.setEventRing p false) s = .next (s.answered p s.fuse (setRing e) {})) ∧
    (getFaultRecordCmd.Accepted p s → exec (.getFaultRecord p false) s = .next
      (s.answered p s.fuse s.dev { body := faultBody e e.faultRec })) ∧
    (paddockCreateCmd.Accepted p s → ∃ d r, exec (.paddockCreate p false) s = .next (s.answered p s.fuse d r) ∧ r.status = 0) ∧
    (paddockReleaseCmd.Accepted p s → exec (.paddockRelease p false) s = .next
      (s.answered p s.fuse (s.dev.releasePad e.k) {})) ∧
    (paddockGrantCmd.Accepted p s → exec (.paddockGrant p false) s = .next (s.answered p s.fuse (padGrantEffect e) {})) ∧
    (paddockQueryCmd.Accepted p s → exec (.paddockQuery p false) s = .next
      (s.answered p s.fuse s.dev { body := s.dev.padReport e.k e.p })) ∧
    (barrierSpanCmd.Accepted p s → exec (.barrierSpan p false) s = .next (s.answered p s.fuse (spanEffect e) {})) ∧
    (imageLoadCmd.Accepted p s → exec (.imageLoad p false) s = .next
      (s.answered p s.fuse (imageLoadEffect (imageLoadCmd.woken e)).1 (imageLoadEffect (imageLoadCmd.woken e)).2)) ∧
    (runStartCmd.Accepted p s → exec (.runStart p false) s = .next
      (s.answered p s.fuse (runStartEffect (runStartCmd.woken e)).1 (runStartEffect (runStartCmd.woken e)).2)) ∧
    (checkpointCmd.Accepted p s → exec (.checkpoint p false) s = .next
      (s.answered p s.fuse (checkpointEffect (checkpointCmd.woken e)).1 (checkpointEffect (checkpointCmd.woken e)).2)) ∧
    (seqOpenCmd.Accepted p s → exec (.seqOpen p false) s = .next
      (s.answered p s.fuse (seqOpenEffect e).1 { body := leBytes 8 (seqOpenEffect e).2 })) ∧
    (seqSetCmd.Accepted p s → exec (.seqSet p false) s = .next
      (s.answered p s.fuse { s.dev with seqs := vmodN s.dev.seqs (e.f 0 1) fun q => { q with length := e.f 4 4 } } {})) ∧
    (seqReadCmd.Accepted p s → exec (.seqRead p false) s = .next
      (s.answered p s.fuse s.dev { body := leBytes 4 ((e.seq.bound.map (·.val)).getD 0) ++ leBytes 4 e.seq.length })) ∧
    (seqCloseCmd.Accepted p s → exec (.seqClose p false) s = .next
      (s.answered p s.fuse { s.dev with seqs := vmodN s.dev.seqs (e.f 0 1) fun _ => {} } {})) ∧
    (opQueryCmd.Accepted p s → exec (.opQuery p false) s = .next
      (s.answered p s.fuse (if e.f 4 1 = 1 then s.dev.releaseOp e.slot else s.dev) { body := e.op.report })) ∧
    (suspendOpCmd.Accepted p s → ∃ d r, exec (.suspendOp p false) s = .next (s.answered p s.fuse d r) ∧
      r.status = (if (s.dev.suspendOp e.slot).isSome then 0 else stWrong)) ∧
    (resumeOpCmd.Accepted p s → ∃ d r, exec (.resumeOp p false) s = .next (s.answered p s.fuse d r) ∧
      r.status = (if (s.dev.resumeOp e.slot).isSome then 0 else stWrong)) ∧
    (cancelOpCmd.Accepted p s → ∃ fz d r, exec (.cancelOp p false) s = .next (s.answered p fz d r) ∧
      r.status = (if (cancelOp e.slot s.fuse s.dev).isSome then 0 else stWrong)) ∧
    (copyOpenCmd.Accepted p s → exec (.copyOpen p false) s = .next
      (s.answered p s.fuse (copyOpenEffect e).1 (copyOpenEffect e).2)) ∧
    (copyCloseCmd.Accepted p s → exec (.copyClose p false) s = .next
      (s.answered p s.fuse (copyCloseEffect e) { body := leBytes 8 e.copy.moved })) ∧
    (accountQueryCmd.Accepted p s → exec (.accountQuery p false) s = .next
      (s.answered p s.fuse (if e.f 1 1 = 1 then { s.dev with accounts := vsetN s.dev.accounts (e.f 0 1) {} } else s.dev)
        { body := accountBody e e.account })) ∧
    (getAttestationCmd.Accepted p s → exec (.getAttestation p false) s = .next
      (s.answered p s.fuse s.dev { body := report e })) ∧
    (getCertChainCmd.Accepted p s → exec (.getCertChain p false) s = .next
      (s.answered p s.fuse s.dev { body := chainBody e (s.dev.fullChain s.fuse) })) ∧
    (sessionOpenCmd.Accepted p s → ∃ d r, exec (.sessionOpen p false) s = .next (s.answered p s.fuse d r) ∧
      r.status = (if e.secret.isSome then 0 else stAuth)) ∧
    (sessionCloseCmd.Accepted p s → exec (.sessionClose p false) s = .next (s.answered p s.fuse (sessionCloseEffect e) {})) ∧
    (beatTableSetCmd.Accepted p s → exec (.beatTableSet p false) s = .next
      (s.answered p s.fuse (s.dev.setBeats (e.beatEntries.map fun x => (finOf 16 x.1, x.2))) {})) ∧
    (beatTableGetCmd.Accepted p s → exec (.beatTableGet p false) s = .next
      (s.answered p s.fuse s.dev { body := s.dev.beatBody })) ∧
    (scrubCmd.Accepted p s → exec (.scrub p false) s = .next
      (s.answered p s.fuse (longOp e .scrub [e.f 0 8]).1 (longOp e .scrub [e.f 0 8]).2)) ∧
    (dramTestCmd.Accepted p s → exec (.dramTest p false) s = .next
      (s.answered p s.fuse (longOp e .dramTest [e.f 0 8]).1 (longOp e .dramTest [e.f 0 8]).2)) ∧
    (telemetryReadCmd.Accepted p s → exec (.telemetryRead p false) s = .next
      (s.answered p s.fuse s.dev { body := pageBody e e.page })) ∧
    (routeRebuildCmd.Accepted p s → exec (.routeRebuild p false) s = .next
      (s.answered p s.fuse (longOp e .routeRebuild [e.f 0 1]).1 (longOp e .routeRebuild [e.f 0 1]).2)) ∧
    (fabricStatusCmd.Accepted p s → exec (.fabricStatus p false) s = .next
      (s.answered p s.fuse s.dev { body := s.dev.fabricBody })) ∧
    (fwStageCmd.Accepted p s → ∃ d r, exec (.fwStage p false) s = .next (s.answered p (fwStageRun e).1 d r) ∧ r.status = stAccepted) ∧
    (fwDataCmd.Accepted p s → exec (.fwData p false) s = .next (s.answered p s.fuse (fwDataEffect e) {})) ∧
    (fwActivateCmd.Accepted p s → exec (.fwActivate p false) s = .next
      (s.answered p s.fuse (activate (s.dev.staged.getD 0) s.fuse s.dev) {})) ∧
    (clearBootDivergeCmd.Accepted p s → exec (.clearBootDiverge p false) s = .next
      (s.answered p s.fuse ((s.dev.modYm fun y => { y with diverge := false }).unalert alertDiverge) {})) ∧
    (settingWriteCmd.Accepted p s → exec (.settingWrite p false) s = .next (s.answered p (settingWriteEffect e) s.dev {})) ∧
    (settingReadCmd.Accepted p s → exec (.settingRead p false) s = .next
      (s.answered p s.fuse s.dev { body := leBytes 8 (s.dev.inForce (e.f 0 2)) })) ∧
    (clearOwnerAlertCmd.Accepted p s → exec (.clearOwnerAlert p false) s = .next
      (s.answered p s.fuse (clearAlerts s.dev (e.f 0 4)) {})) ∧
    (linkSetCmd.Accepted p s → exec (.linkSet p false) s = .next (s.answered p s.fuse (linkSetRun e) {})) ∧
    (provisionCmd.Accepted p s → exec (.provision p false) s = .next
      (s.answered p (provisionEffect e (e.newStore.getD s.fuse.store)) s.dev {})) ∧
    (retireCmd.Accepted p s → exec (.retire p false) s = .next (s.answered p s.fuse.retired (s.dev.retireAll s.fuse) {}))

/-! ### Fuses and flash (R451, R459, R461, R478) -/

/-- The fuses meet their invariant at reset (log entry 1 gives what the model takes as fused). -/
def Obligations.FusesMeetInvariantAtReset : Prop := State.reset.fuse.Inv

/-- Every step, of any command from any state, keeps what the fuses hold in every state: the floor within its 256 steps,
the three setting banks equal and within their rows, an owner exactly in PROVISIONED, blown signer slots in RETIRED. -/
def Obligations.EveryStepKeepsFuseInvariant : Prop :=
  ∀ s t : State, s.fuse.Inv → step s = .next t → t.fuse.Inv

/-- Every step, of any command from any state, only moves the fuses on: the life cycle only advances, the version floor
never falls, rows of a setting bank are only added, keys of the trust store stay, and the identity never changes. The test
access port gives scan and memory access in MANUFACTURE only (R477): once it answers with its identification code, it always does. -/
def Obligations.EveryStepMovesFusesOnward : Prop :=
  (∀ s t : State, step s = .next t → s.fuse.Onward t.fuse ∧
    (s.fuse.testPort ≠ .access → t.fuse.testPort = .idCode Config.testIdCode)) ∧
  (∀ fz : Fuse, fz.testPort = .access ↔ fz.lifecycle = .manufacture)
end

