-- ==== Sys2Proof/Laws/State.lean ====
section
/-!
SUPPORT. Small laws of the device's update functions: what each update leaves as it was, field by field, and what it
makes of the element it changes. All the field laws hold by unfolding and are simplification rules.
-/
namespace Sys2Proof.Machine

/-! ### One element of a vector -/

theorem vmod_same {α : Type} {n : Nat} (v : Vector α n) (i : Fin n) (f : α → α) : (vmod v i f)[i] = f v[i] := by
  simp [vmod]

@[simp] theorem vmod_val {α : Type} {n : Nat} (v : Vector α n) (i : Fin n) (f : α → α) (h : i.val < n) :
    (vmod v i f)[i.val]'h = f (v[i.val]'h) := vmod_same v i f

theorem vmod_other {α : Type} {n : Nat} (v : Vector α n) (i j : Fin n) (f : α → α) (h : j ≠ i) : (vmod v i f)[j] = v[j] := by
  simp only [vmod, Fin.getElem_fin]
  exact Vector.getElem_set_ne i.isLt j.isLt fun e => h (Fin.ext e.symm)

/-! ### Fields that an update leaves -/

@[simp] theorem Dev.modTile_repairs (d : Dev) (s : SiteId) (f : Tile → Tile) : (d.modTile s f).repairs = d.repairs := rfl
@[simp] theorem Dev.modTile_rowSpares (d : Dev) (s : SiteId) (f : Tile → Tile) : (d.modTile s f).rowSpares = d.rowSpares := rfl
@[simp] theorem Dev.modTile_stage (d : Dev) (s : SiteId) (f : Tile → Tile) : (d.modTile s f).stage = d.stage := rfl
@[simp] theorem Dev.modTile_clk (d : Dev) (s : SiteId) (f : Tile → Tile) : (d.modTile s f).clk = d.clk := rfl
@[simp] theorem Dev.modTile_freeCtr (d : Dev) (s : SiteId) (f : Tile → Tile) : (d.modTile s f).freeCtr = d.freeCtr := rfl
@[simp] theorem Dev.modTile_readout (d : Dev) (s : SiteId) (f : Tile → Tile) : (d.modTile s f).readout = d.readout := rfl
@[simp] theorem Dev.modTile_tested (d : Dev) (s : SiteId) (f : Tile → Tile) : (d.modTile s f).tested = d.tested := rfl
@[simp] theorem Dev.modTile_entropyOk (d : Dev) (s : SiteId) (f : Tile → Tile) : (d.modTile s f).entropyOk = d.entropyOk := rfl
@[simp] theorem Dev.modTile_strap (d : Dev) (s : SiteId) (f : Tile → Tile) : (d.modTile s f).strap = d.strap := rfl
@[simp] theorem Dev.modTile_settings (d : Dev) (s : SiteId) (f : Tile → Tile) : (d.modTile s f).settings = d.settings := rfl
@[simp] theorem Dev.modTile_trustBad (d : Dev) (s : SiteId) (f : Tile → Tile) : (d.modTile s f).trustBad = d.trustBad := rfl
@[simp] theorem Dev.modTile_alerts (d : Dev) (s : SiteId) (f : Tile → Tile) : (d.modTile s f).alerts = d.alerts := rfl
@[simp] theorem Dev.modTile_replaceN (d : Dev) (s : SiteId) (f : Tile → Tile) : (d.modTile s f).replaceN = d.replaceN := rfl
@[simp] theorem Dev.modTile_i3cAddr (d : Dev) (s : SiteId) (f : Tile → Tile) : (d.modTile s f).i3cAddr = d.i3cAddr := rfl
@[simp] theorem Dev.modTile_kinds (d : Dev) (s : SiteId) (f : Tile → Tile) : (d.modTile s f).kinds = d.kinds := rfl
@[simp] theorem Dev.modTile_lofts (d : Dev) (s : SiteId) (f : Tile → Tile) : (d.modTile s f).lofts = d.lofts := rfl
@[simp] theorem Dev.modTile_mesh (d : Dev) (s : SiteId) (f : Tile → Tile) : (d.modTile s f).mesh = d.mesh := rfl
@[simp] theorem Dev.modTile_claims (d : Dev) (s : SiteId) (f : Tile → Tile) : (d.modTile s f).claims = d.claims := rfl
@[simp] theorem Dev.modTile_seam (d : Dev) (s : SiteId) (f : Tile → Tile) : (d.modTile s f).seam = d.seam := rfl
@[simp] theorem Dev.modTile_car (d : Dev) (s : SiteId) (f : Tile → Tile) : (d.modTile s f).car = d.car := rfl
@[simp] theorem Dev.modTile_links (d : Dev) (s : SiteId) (f : Tile → Tile) : (d.modTile s f).links = d.links := rfl
@[simp] theorem Dev.modTile_fab (d : Dev) (s : SiteId) (f : Tile → Tile) : (d.modTile s f).fab = d.fab := rfl
@[simp] theorem Dev.modTile_host (d : Dev) (s : SiteId) (f : Tile → Tile) : (d.modTile s f).host = d.host := rfl
@[simp] theorem Dev.modTile_mbs (d : Dev) (s : SiteId) (f : Tile → Tile) : (d.modTile s f).mbs = d.mbs := rfl
@[simp] theorem Dev.modTile_owner (d : Dev) (s : SiteId) (f : Tile → Tile) : (d.modTile s f).owner = d.owner := rfl
@[simp] theorem Dev.modTile_fabMbs (d : Dev) (s : SiteId) (f : Tile → Tile) : (d.modTile s f).fabMbs = d.fabMbs := rfl
@[simp] theorem Dev.modTile_rings (d : Dev) (s : SiteId) (f : Tile → Tile) : (d.modTile s f).rings = d.rings := rfl
@[simp] theorem Dev.modTile_ops (d : Dev) (s : SiteId) (f : Tile → Tile) : (d.modTile s f).ops = d.ops := rfl
@[simp] theorem Dev.modTile_copies (d : Dev) (s : SiteId) (f : Tile → Tile) : (d.modTile s f).copies = d.copies := rfl
@[simp] theorem Dev.modTile_pads (d : Dev) (s : SiteId) (f : Tile → Tile) : (d.modTile s f).pads = d.pads := rfl
@[simp] theorem Dev.modTile_seals (d : Dev) (s : SiteId) (f : Tile → Tile) : (d.modTile s f).seals = d.seals := rfl
@[simp] theorem Dev.modTile_sessions (d : Dev) (s : SiteId) (f : Tile → Tile) : (d.modTile s f).sessions = d.sessions := rfl
@[simp] theorem Dev.modTile_digests (d : Dev) (s : SiteId) (f : Tile → Tile) : (d.modTile s f).digests = d.digests := rfl
@[simp] theorem Dev.modTile_seqs (d : Dev) (s : SiteId) (f : Tile → Tile) : (d.modTile s f).seqs = d.seqs := rfl
@[simp] theorem Dev.modTile_accounts (d : Dev) (s : SiteId) (f : Tile → Tile) : (d.modTile s f).accounts = d.accounts := rfl
@[simp] theorem Dev.modTile_beats (d : Dev) (s : SiteId) (f : Tile → Tile) : (d.modTile s f).beats = d.beats := rfl
@[simp] theorem Dev.modTile_ym (d : Dev) (s : SiteId) (f : Tile → Tile) : (d.modTile s f).ym = d.ym := rfl
@[simp] theorem Dev.modTile_loads (d : Dev) (s : SiteId) (f : Tile → Tile) : (d.modTile s f).loads = d.loads := rfl
@[simp] theorem Dev.modTile_hitch (d : Dev) (s : SiteId) (f : Tile → Tile) : (d.modTile s f).hitch = d.hitch := rfl
@[simp] theorem Dev.modTile_hitchFormed (d : Dev) (s : SiteId) (f : Tile → Tile) : (d.modTile s f).hitchFormed = d.hitchFormed := rfl
@[simp] theorem Dev.modTile_hitchFailed (d : Dev) (s : SiteId) (f : Tile → Tile) : (d.modTile s f).hitchFailed = d.hitchFailed := rfl
@[simp] theorem Dev.modTile_staging (d : Dev) (s : SiteId) (f : Tile → Tile) : (d.modTile s f).staging = d.staging := rfl
@[simp] theorem Dev.modTile_staged (d : Dev) (s : SiteId) (f : Tile → Tile) : (d.modTile s f).staged = d.staged := rfl
@[simp] theorem Dev.modTile_rebuild (d : Dev) (s : SiteId) (f : Tile → Tile) : (d.modTile s f).rebuild = d.rebuild := rfl

@[simp] theorem Dev.modLoft_repairs (d : Dev) (l : SiteId) (f : Loft → Loft) : (d.modLoft l f).repairs = d.repairs := rfl
@[simp] theorem Dev.modLoft_rowSpares (d : Dev) (l : SiteId) (f : Loft → Loft) : (d.modLoft l f).rowSpares = d.rowSpares := rfl
@[simp] theorem Dev.modLoft_stage (d : Dev) (l : SiteId) (f : Loft → Loft) : (d.modLoft l f).stage = d.stage := rfl
@[simp] theorem Dev.modLoft_clk (d : Dev) (l : SiteId) (f : Loft → Loft) : (d.modLoft l f).clk = d.clk := rfl
@[simp] theorem Dev.modLoft_freeCtr (d : Dev) (l : SiteId) (f : Loft → Loft) : (d.modLoft l f).freeCtr = d.freeCtr := rfl
@[simp] theorem Dev.modLoft_readout (d : Dev) (l : SiteId) (f : Loft → Loft) : (d.modLoft l f).readout = d.readout := rfl
@[simp] theorem Dev.modLoft_tested (d : Dev) (l : SiteId) (f : Loft → Loft) : (d.modLoft l f).tested = d.tested := rfl
@[simp] theorem Dev.modLoft_entropyOk (d : Dev) (l : SiteId) (f : Loft → Loft) : (d.modLoft l f).entropyOk = d.entropyOk := rfl
@[simp] theorem Dev.modLoft_strap (d : Dev) (l : SiteId) (f : Loft → Loft) : (d.modLoft l f).strap = d.strap := rfl
@[simp] theorem Dev.modLoft_settings (d : Dev) (l : SiteId) (f : Loft → Loft) : (d.modLoft l f).settings = d.settings := rfl
@[simp] theorem Dev.modLoft_trustBad (d : Dev) (l : SiteId) (f : Loft → Loft) : (d.modLoft l f).trustBad = d.trustBad := rfl
@[simp] theorem Dev.modLoft_alerts (d : Dev) (l : SiteId) (f : Loft → Loft) : (d.modLoft l f).alerts = d.alerts := rfl
@[simp] theorem Dev.modLoft_replaceN (d : Dev) (l : SiteId) (f : Loft → Loft) : (d.modLoft l f).replaceN = d.replaceN := rfl
@[simp] theorem Dev.modLoft_i3cAddr (d : Dev) (l : SiteId) (f : Loft → Loft) : (d.modLoft l f).i3cAddr = d.i3cAddr := rfl
@[simp] theorem Dev.modLoft_kinds (d : Dev) (l : SiteId) (f : Loft → Loft) : (d.modLoft l f).kinds = d.kinds := rfl
@[simp] theorem Dev.modLoft_tiles (d : Dev) (l : SiteId) (f : Loft → Loft) : (d.modLoft l f).tiles = d.tiles := rfl
@[simp] theorem Dev.modLoft_mesh (d : Dev) (l : SiteId) (f : Loft → Loft) : (d.modLoft l f).mesh = d.mesh := rfl
@[simp] theorem Dev.modLoft_claims (d : Dev) (l : SiteId) (f : Loft → Loft) : (d.modLoft l f).claims = d.claims := rfl
@[simp] theorem Dev.modLoft_seam (d : Dev) (l : SiteId) (f : Loft → Loft) : (d.modLoft l f).seam = d.seam := rfl
@[simp] theorem Dev.modLoft_car (d : Dev) (l : SiteId) (f : Loft → Loft) : (d.modLoft l f).car = d.car := rfl
@[simp] theorem Dev.modLoft_links (d : Dev) (l : SiteId) (f : Loft → Loft) : (d.modLoft l f).links = d.links := rfl
@[simp] theorem Dev.modLoft_fab (d : Dev) (l : SiteId) (f : Loft → Loft) : (d.modLoft l f).fab = d.fab := rfl
@[simp] theorem Dev.modLoft_host (d : Dev) (l : SiteId) (f : Loft → Loft) : (d.modLoft l f).host = d.host := rfl
@[simp] theorem Dev.modLoft_mbs (d : Dev) (l : SiteId) (f : Loft → Loft) : (d.modLoft l f).mbs = d.mbs := rfl
@[simp] theorem Dev.modLoft_owner (d : Dev) (l : SiteId) (f : Loft → Loft) : (d.modLoft l f).owner = d.owner := rfl
@[simp] theorem Dev.modLoft_fabMbs (d : Dev) (l : SiteId) (f : Loft → Loft) : (d.modLoft l f).fabMbs = d.fabMbs := rfl
@[simp] theorem Dev.modLoft_rings (d : Dev) (l : SiteId) (f : Loft → Loft) : (d.modLoft l f).rings = d.rings := rfl
@[simp] theorem Dev.modLoft_ops (d : Dev) (l : SiteId) (f : Loft → Loft) : (d.modLoft l f).ops = d.ops := rfl
@[simp] theorem Dev.modLoft_copies (d : Dev) (l : SiteId) (f : Loft → Loft) : (d.modLoft l f).copies = d.copies := rfl
@[simp] theorem Dev.modLoft_pads (d : Dev) (l : SiteId) (f : Loft → Loft) : (d.modLoft l f).pads = d.pads := rfl
@[simp] theorem Dev.modLoft_seals (d : Dev) (l : SiteId) (f : Loft → Loft) : (d.modLoft l f).seals = d.seals := rfl
@[simp] theorem Dev.modLoft_sessions (d : Dev) (l : SiteId) (f : Loft → Loft) : (d.modLoft l f).sessions = d.sessions := rfl
@[simp] theorem Dev.modLoft_digests (d : Dev) (l : SiteId) (f : Loft → Loft) : (d.modLoft l f).digests = d.digests := rfl
@[simp] theorem Dev.modLoft_seqs (d : Dev) (l : SiteId) (f : Loft → Loft) : (d.modLoft l f).seqs = d.seqs := rfl
@[simp] theorem Dev.modLoft_accounts (d : Dev) (l : SiteId) (f : Loft → Loft) : (d.modLoft l f).accounts = d.accounts := rfl
@[simp] theorem Dev.modLoft_beats (d : Dev) (l : SiteId) (f : Loft → Loft) : (d.modLoft l f).beats = d.beats := rfl
@[simp] theorem Dev.modLoft_ym (d : Dev) (l : SiteId) (f : Loft → Loft) : (d.modLoft l f).ym = d.ym := rfl
@[simp] theorem Dev.modLoft_loads (d : Dev) (l : SiteId) (f : Loft → Loft) : (d.modLoft l f).loads = d.loads := rfl
@[simp] theorem Dev.modLoft_hitch (d : Dev) (l : SiteId) (f : Loft → Loft) : (d.modLoft l f).hitch = d.hitch := rfl
@[simp] theorem Dev.modLoft_hitchFormed (d : Dev) (l : SiteId) (f : Loft → Loft) : (d.modLoft l f).hitchFormed = d.hitchFormed := rfl
@[simp] theorem Dev.modLoft_hitchFailed (d : Dev) (l : SiteId) (f : Loft → Loft) : (d.modLoft l f).hitchFailed = d.hitchFailed := rfl
@[simp] theorem Dev.modLoft_staging (d : Dev) (l : SiteId) (f : Loft → Loft) : (d.modLoft l f).staging = d.staging := rfl
@[simp] theorem Dev.modLoft_staged (d : Dev) (l : SiteId) (f : Loft → Loft) : (d.modLoft l f).staged = d.staged := rfl
@[simp] theorem Dev.modLoft_rebuild (d : Dev) (l : SiteId) (f : Loft → Loft) : (d.modLoft l f).rebuild = d.rebuild := rfl

@[simp] theorem Dev.modLink_repairs (d : Dev) (n : LinkId) (f : Link → Link) : (d.modLink n f).repairs = d.repairs := rfl
@[simp] theorem Dev.modLink_rowSpares (d : Dev) (n : LinkId) (f : Link → Link) : (d.modLink n f).rowSpares = d.rowSpares := rfl
@[simp] theorem Dev.modLink_stage (d : Dev) (n : LinkId) (f : Link → Link) : (d.modLink n f).stage = d.stage := rfl
@[simp] theorem Dev.modLink_clk (d : Dev) (n : LinkId) (f : Link → Link) : (d.modLink n f).clk = d.clk := rfl
@[simp] theorem Dev.modLink_freeCtr (d : Dev) (n : LinkId) (f : Link → Link) : (d.modLink n f).freeCtr = d.freeCtr := rfl
@[simp] theorem Dev.modLink_readout (d : Dev) (n : LinkId) (f : Link → Link) : (d.modLink n f).readout = d.readout := rfl
@[simp] theorem Dev.modLink_tested (d : Dev) (n : LinkId) (f : Link → Link) : (d.modLink n f).tested = d.tested := rfl
@[simp] theorem Dev.modLink_entropyOk (d : Dev) (n : LinkId) (f : Link → Link) : (d.modLink n f).entropyOk = d.entropyOk := rfl
@[simp] theorem Dev.modLink_strap (d : Dev) (n : LinkId) (f : Link → Link) : (d.modLink n f).strap = d.strap := rfl
@[simp] theorem Dev.modLink_settings (d : Dev) (n : LinkId) (f : Link → Link) : (d.modLink n f).settings = d.settings := rfl
@[simp] theorem Dev.modLink_trustBad (d : Dev) (n : LinkId) (f : Link → Link) : (d.modLink n f).trustBad = d.trustBad := rfl
@[simp] theorem Dev.modLink_alerts (d : Dev) (n : LinkId) (f : Link → Link) : (d.modLink n f).alerts = d.alerts := rfl
@[simp] theorem Dev.modLink_replaceN (d : Dev) (n : LinkId) (f : Link → Link) : (d.modLink n f).replaceN = d.replaceN := rfl
@[simp] theorem Dev.modLink_i3cAddr (d : Dev) (n : LinkId) (f : Link → Link) : (d.modLink n f).i3cAddr = d.i3cAddr := rfl
@[simp] theorem Dev.modLink_kinds (d : Dev) (n : LinkId) (f : Link → Link) : (d.modLink n f).kinds = d.kinds := rfl
@[simp] theorem Dev.modLink_tiles (d : Dev) (n : LinkId) (f : Link → Link) : (d.modLink n f).tiles = d.tiles := rfl
@[simp] theorem Dev.modLink_lofts (d : Dev) (n : LinkId) (f : Link → Link) : (d.modLink n f).lofts = d.lofts := rfl
@[simp] theorem Dev.modLink_mesh (d : Dev) (n : LinkId) (f : Link → Link) : (d.modLink n f).mesh = d.mesh := rfl
@[simp] theorem Dev.modLink_claims (d : Dev) (n : LinkId) (f : Link → Link) : (d.modLink n f).claims = d.claims := rfl
@[simp] theorem Dev.modLink_seam (d : Dev) (n : LinkId) (f : Link → Link) : (d.modLink n f).seam = d.seam := rfl
@[simp] theorem Dev.modLink_car (d : Dev) (n : LinkId) (f : Link → Link) : (d.modLink n f).car = d.car := rfl
@[simp] theorem Dev.modLink_fab (d : Dev) (n : LinkId) (f : Link → Link) : (d.modLink n f).fab = d.fab := rfl
@[simp] theorem Dev.modLink_host (d : Dev) (n : LinkId) (f : Link → Link) : (d.modLink n f).host = d.host := rfl
@[simp] theorem Dev.modLink_mbs (d : Dev) (n : LinkId) (f : Link → Link) : (d.modLink n f).mbs = d.mbs := rfl
@[simp] theorem Dev.modLink_owner (d : Dev) (n : LinkId) (f : Link → Link) : (d.modLink n f).owner = d.owner := rfl
@[simp] theorem Dev.modLink_fabMbs (d : Dev) (n : LinkId) (f : Link → Link) : (d.modLink n f).fabMbs = d.fabMbs := rfl
@[simp] theorem Dev.modLink_rings (d : Dev) (n : LinkId) (f : Link → Link) : (d.modLink n f).rings = d.rings := rfl
@[simp] theorem Dev.modLink_ops (d : Dev) (n : LinkId) (f : Link → Link) : (d.modLink n f).ops = d.ops := rfl
@[simp] theorem Dev.modLink_copies (d : Dev) (n : LinkId) (f : Link → Link) : (d.modLink n f).copies = d.copies := rfl
@[simp] theorem Dev.modLink_pads (d : Dev) (n : LinkId) (f : Link → Link) : (d.modLink n f).pads = d.pads := rfl
@[simp] theorem Dev.modLink_seals (d : Dev) (n : LinkId) (f : Link → Link) : (d.modLink n f).seals = d.seals := rfl
@[simp] theorem Dev.modLink_sessions (d : Dev) (n : LinkId) (f : Link → Link) : (d.modLink n f).sessions = d.sessions := rfl
@[simp] theorem Dev.modLink_digests (d : Dev) (n : LinkId) (f : Link → Link) : (d.modLink n f).digests = d.digests := rfl
@[simp] theorem Dev.modLink_seqs (d : Dev) (n : LinkId) (f : Link → Link) : (d.modLink n f).seqs = d.seqs := rfl
@[simp] theorem Dev.modLink_accounts (d : Dev) (n : LinkId) (f : Link → Link) : (d.modLink n f).accounts = d.accounts := rfl
@[simp] theorem Dev.modLink_beats (d : Dev) (n : LinkId) (f : Link → Link) : (d.modLink n f).beats = d.beats := rfl
@[simp] theorem Dev.modLink_ym (d : Dev) (n : LinkId) (f : Link → Link) : (d.modLink n f).ym = d.ym := rfl
@[simp] theorem Dev.modLink_loads (d : Dev) (n : LinkId) (f : Link → Link) : (d.modLink n f).loads = d.loads := rfl
@[simp] theorem Dev.modLink_hitch (d : Dev) (n : LinkId) (f : Link → Link) : (d.modLink n f).hitch = d.hitch := rfl
@[simp] theorem Dev.modLink_hitchFormed (d : Dev) (n : LinkId) (f : Link → Link) : (d.modLink n f).hitchFormed = d.hitchFormed := rfl
@[simp] theorem Dev.modLink_hitchFailed (d : Dev) (n : LinkId) (f : Link → Link) : (d.modLink n f).hitchFailed = d.hitchFailed := rfl
@[simp] theorem Dev.modLink_staging (d : Dev) (n : LinkId) (f : Link → Link) : (d.modLink n f).staging = d.staging := rfl
@[simp] theorem Dev.modLink_staged (d : Dev) (n : LinkId) (f : Link → Link) : (d.modLink n f).staged = d.staged := rfl
@[simp] theorem Dev.modLink_rebuild (d : Dev) (n : LinkId) (f : Link → Link) : (d.modLink n f).rebuild = d.rebuild := rfl

@[simp] theorem Dev.modYm_repairs (d : Dev) (f : Yard → Yard) : (d.modYm f).repairs = d.repairs := rfl
@[simp] theorem Dev.modYm_rowSpares (d : Dev) (f : Yard → Yard) : (d.modYm f).rowSpares = d.rowSpares := rfl
@[simp] theorem Dev.modYm_stage (d : Dev) (f : Yard → Yard) : (d.modYm f).stage = d.stage := rfl
@[simp] theorem Dev.modYm_clk (d : Dev) (f : Yard → Yard) : (d.modYm f).clk = d.clk := rfl
@[simp] theorem Dev.modYm_freeCtr (d : Dev) (f : Yard → Yard) : (d.modYm f).freeCtr = d.freeCtr := rfl
@[simp] theorem Dev.modYm_readout (d : Dev) (f : Yard → Yard) : (d.modYm f).readout = d.readout := rfl
@[simp] theorem Dev.modYm_tested (d : Dev) (f : Yard → Yard) : (d.modYm f).tested = d.tested := rfl
@[simp] theorem Dev.modYm_entropyOk (d : Dev) (f : Yard → Yard) : (d.modYm f).entropyOk = d.entropyOk := rfl
@[simp] theorem Dev.modYm_strap (d : Dev) (f : Yard → Yard) : (d.modYm f).strap = d.strap := rfl
@[simp] theorem Dev.modYm_settings (d : Dev) (f : Yard → Yard) : (d.modYm f).settings = d.settings := rfl
@[simp] theorem Dev.modYm_trustBad (d : Dev) (f : Yard → Yard) : (d.modYm f).trustBad = d.trustBad := rfl
@[simp] theorem Dev.modYm_alerts (d : Dev) (f : Yard → Yard) : (d.modYm f).alerts = d.alerts := rfl
@[simp] theorem Dev.modYm_replaceN (d : Dev) (f : Yard → Yard) : (d.modYm f).replaceN = d.replaceN := rfl
@[simp] theorem Dev.modYm_i3cAddr (d : Dev) (f : Yard → Yard) : (d.modYm f).i3cAddr = d.i3cAddr := rfl
@[simp] theorem Dev.modYm_kinds (d : Dev) (f : Yard → Yard) : (d.modYm f).kinds = d.kinds := rfl
@[simp] theorem Dev.modYm_tiles (d : Dev) (f : Yard → Yard) : (d.modYm f).tiles = d.tiles := rfl
@[simp] theorem Dev.modYm_lofts (d : Dev) (f : Yard → Yard) : (d.modYm f).lofts = d.lofts := rfl
@[simp] theorem Dev.modYm_mesh (d : Dev) (f : Yard → Yard) : (d.modYm f).mesh = d.mesh := rfl
@[simp] theorem Dev.modYm_claims (d : Dev) (f : Yard → Yard) : (d.modYm f).claims = d.claims := rfl
@[simp] theorem Dev.modYm_seam (d : Dev) (f : Yard → Yard) : (d.modYm f).seam = d.seam := rfl
@[simp] theorem Dev.modYm_car (d : Dev) (f : Yard → Yard) : (d.modYm f).car = d.car := rfl
@[simp] theorem Dev.modYm_links (d : Dev) (f : Yard → Yard) : (d.modYm f).links = d.links := rfl
@[simp] theorem Dev.modYm_fab (d : Dev) (f : Yard → Yard) : (d.modYm f).fab = d.fab := rfl
@[simp] theorem Dev.modYm_host (d : Dev) (f : Yard → Yard) : (d.modYm f).host = d.host := rfl
@[simp] theorem Dev.modYm_mbs (d : Dev) (f : Yard → Yard) : (d.modYm f).mbs = d.mbs := rfl
@[simp] theorem Dev.modYm_owner (d : Dev) (f : Yard → Yard) : (d.modYm f).owner = d.owner := rfl
@[simp] theorem Dev.modYm_fabMbs (d : Dev) (f : Yard → Yard) : (d.modYm f).fabMbs = d.fabMbs := rfl
@[simp] theorem Dev.modYm_rings (d : Dev) (f : Yard → Yard) : (d.modYm f).rings = d.rings := rfl
@[simp] theorem Dev.modYm_ops (d : Dev) (f : Yard → Yard) : (d.modYm f).ops = d.ops := rfl
@[simp] theorem Dev.modYm_copies (d : Dev) (f : Yard → Yard) : (d.modYm f).copies = d.copies := rfl
@[simp] theorem Dev.modYm_pads (d : Dev) (f : Yard → Yard) : (d.modYm f).pads = d.pads := rfl
@[simp] theorem Dev.modYm_seals (d : Dev) (f : Yard → Yard) : (d.modYm f).seals = d.seals := rfl
@[simp] theorem Dev.modYm_sessions (d : Dev) (f : Yard → Yard) : (d.modYm f).sessions = d.sessions := rfl
@[simp] theorem Dev.modYm_digests (d : Dev) (f : Yard → Yard) : (d.modYm f).digests = d.digests := rfl
@[simp] theorem Dev.modYm_seqs (d : Dev) (f : Yard → Yard) : (d.modYm f).seqs = d.seqs := rfl
@[simp] theorem Dev.modYm_accounts (d : Dev) (f : Yard → Yard) : (d.modYm f).accounts = d.accounts := rfl
@[simp] theorem Dev.modYm_beats (d : Dev) (f : Yard → Yard) : (d.modYm f).beats = d.beats := rfl
@[simp] theorem Dev.modYm_loads (d : Dev) (f : Yard → Yard) : (d.modYm f).loads = d.loads := rfl
@[simp] theorem Dev.modYm_hitch (d : Dev) (f : Yard → Yard) : (d.modYm f).hitch = d.hitch := rfl
@[simp] theorem Dev.modYm_hitchFormed (d : Dev) (f : Yard → Yard) : (d.modYm f).hitchFormed = d.hitchFormed := rfl
@[simp] theorem Dev.modYm_hitchFailed (d : Dev) (f : Yard → Yard) : (d.modYm f).hitchFailed = d.hitchFailed := rfl
@[simp] theorem Dev.modYm_staging (d : Dev) (f : Yard → Yard) : (d.modYm f).staging = d.staging := rfl
@[simp] theorem Dev.modYm_staged (d : Dev) (f : Yard → Yard) : (d.modYm f).staged = d.staged := rfl
@[simp] theorem Dev.modYm_rebuild (d : Dev) (f : Yard → Yard) : (d.modYm f).rebuild = d.rebuild := rfl

@[simp] theorem Dev.modPad_repairs (d : Dev) (k : PadId) (f : Paddock → Paddock) : (d.modPad k f).repairs = d.repairs := rfl
@[simp] theorem Dev.modPad_rowSpares (d : Dev) (k : PadId) (f : Paddock → Paddock) : (d.modPad k f).rowSpares = d.rowSpares := rfl
@[simp] theorem Dev.modPad_stage (d : Dev) (k : PadId) (f : Paddock → Paddock) : (d.modPad k f).stage = d.stage := rfl
@[simp] theorem Dev.modPad_clk (d : Dev) (k : PadId) (f : Paddock → Paddock) : (d.modPad k f).clk = d.clk := rfl
@[simp] theorem Dev.modPad_freeCtr (d : Dev) (k : PadId) (f : Paddock → Paddock) : (d.modPad k f).freeCtr = d.freeCtr := rfl
@[simp] theorem Dev.modPad_readout (d : Dev) (k : PadId) (f : Paddock → Paddock) : (d.modPad k f).readout = d.readout := rfl
@[simp] theorem Dev.modPad_tested (d : Dev) (k : PadId) (f : Paddock → Paddock) : (d.modPad k f).tested = d.tested := rfl
@[simp] theorem Dev.modPad_entropyOk (d : Dev) (k : PadId) (f : Paddock → Paddock) : (d.modPad k f).entropyOk = d.entropyOk := rfl
@[simp] theorem Dev.modPad_strap (d : Dev) (k : PadId) (f : Paddock → Paddock) : (d.modPad k f).strap = d.strap := rfl
@[simp] theorem Dev.modPad_settings (d : Dev) (k : PadId) (f : Paddock → Paddock) : (d.modPad k f).settings = d.settings := rfl
@[simp] theorem Dev.modPad_trustBad (d : Dev) (k : PadId) (f : Paddock → Paddock) : (d.modPad k f).trustBad = d.trustBad := rfl
@[simp] theorem Dev.modPad_alerts (d : Dev) (k : PadId) (f : Paddock → Paddock) : (d.modPad k f).alerts = d.alerts := rfl
@[simp] theorem Dev.modPad_replaceN (d : Dev) (k : PadId) (f : Paddock → Paddock) : (d.modPad k f).replaceN = d.replaceN := rfl
@[simp] theorem Dev.modPad_i3cAddr (d : Dev) (k : PadId) (f : Paddock → Paddock) : (d.modPad k f).i3cAddr = d.i3cAddr := rfl
@[simp] theorem Dev.modPad_kinds (d : Dev) (k : PadId) (f : Paddock → Paddock) : (d.modPad k f).kinds = d.kinds := rfl
@[simp] theorem Dev.modPad_tiles (d : Dev) (k : PadId) (f : Paddock → Paddock) : (d.modPad k f).tiles = d.tiles := rfl
@[simp] theorem Dev.modPad_lofts (d : Dev) (k : PadId) (f : Paddock → Paddock) : (d.modPad k f).lofts = d.lofts := rfl
@[simp] theorem Dev.modPad_mesh (d : Dev) (k : PadId) (f : Paddock → Paddock) : (d.modPad k f).mesh = d.mesh := rfl
@[simp] theorem Dev.modPad_claims (d : Dev) (k : PadId) (f : Paddock → Paddock) : (d.modPad k f).claims = d.claims := rfl
@[simp] theorem Dev.modPad_seam (d : Dev) (k : PadId) (f : Paddock → Paddock) : (d.modPad k f).seam = d.seam := rfl
@[simp] theorem Dev.modPad_car (d : Dev) (k : PadId) (f : Paddock → Paddock) : (d.modPad k f).car = d.car := rfl
@[simp] theorem Dev.modPad_links (d : Dev) (k : PadId) (f : Paddock → Paddock) : (d.modPad k f).links = d.links := rfl
@[simp] theorem Dev.modPad_fab (d : Dev) (k : PadId) (f : Paddock → Paddock) : (d.modPad k f).fab = d.fab := rfl
@[simp] theorem Dev.modPad_host (d : Dev) (k : PadId) (f : Paddock → Paddock) : (d.modPad k f).host = d.host := rfl
@[simp] theorem Dev.modPad_mbs (d : Dev) (k : PadId) (f : Paddock → Paddock) : (d.modPad k f).mbs = d.mbs := rfl
@[simp] theorem Dev.modPad_owner (d : Dev) (k : PadId) (f : Paddock → Paddock) : (d.modPad k f).owner = d.owner := rfl
@[simp] theorem Dev.modPad_fabMbs (d : Dev) (k : PadId) (f : Paddock → Paddock) : (d.modPad k f).fabMbs = d.fabMbs := rfl
@[simp] theorem Dev.modPad_rings (d : Dev) (k : PadId) (f : Paddock → Paddock) : (d.modPad k f).rings = d.rings := rfl
@[simp] theorem Dev.modPad_ops (d : Dev) (k : PadId) (f : Paddock → Paddock) : (d.modPad k f).ops = d.ops := rfl
@[simp] theorem Dev.modPad_copies (d : Dev) (k : PadId) (f : Paddock → Paddock) : (d.modPad k f).copies = d.copies := rfl
@[simp] theorem Dev.modPad_seals (d : Dev) (k : PadId) (f : Paddock → Paddock) : (d.modPad k f).seals = d.seals := rfl
@[simp] theorem Dev.modPad_sessions (d : Dev) (k : PadId) (f : Paddock → Paddock) : (d.modPad k f).sessions = d.sessions := rfl
@[simp] theorem Dev.modPad_digests (d : Dev) (k : PadId) (f : Paddock → Paddock) : (d.modPad k f).digests = d.digests := rfl
@[simp] theorem Dev.modPad_seqs (d : Dev) (k : PadId) (f : Paddock → Paddock) : (d.modPad k f).seqs = d.seqs := rfl
@[simp] theorem Dev.modPad_accounts (d : Dev) (k : PadId) (f : Paddock → Paddock) : (d.modPad k f).accounts = d.accounts := rfl
@[simp] theorem Dev.modPad_beats (d : Dev) (k : PadId) (f : Paddock → Paddock) : (d.modPad k f).beats = d.beats := rfl
@[simp] theorem Dev.modPad_ym (d : Dev) (k : PadId) (f : Paddock → Paddock) : (d.modPad k f).ym = d.ym := rfl
@[simp] theorem Dev.modPad_loads (d : Dev) (k : PadId) (f : Paddock → Paddock) : (d.modPad k f).loads = d.loads := rfl
@[simp] theorem Dev.modPad_hitch (d : Dev) (k : PadId) (f : Paddock → Paddock) : (d.modPad k f).hitch = d.hitch := rfl
@[simp] theorem Dev.modPad_hitchFormed (d : Dev) (k : PadId) (f : Paddock → Paddock) : (d.modPad k f).hitchFormed = d.hitchFormed := rfl
@[simp] theorem Dev.modPad_hitchFailed (d : Dev) (k : PadId) (f : Paddock → Paddock) : (d.modPad k f).hitchFailed = d.hitchFailed := rfl
@[simp] theorem Dev.modPad_staging (d : Dev) (k : PadId) (f : Paddock → Paddock) : (d.modPad k f).staging = d.staging := rfl
@[simp] theorem Dev.modPad_staged (d : Dev) (k : PadId) (f : Paddock → Paddock) : (d.modPad k f).staged = d.staged := rfl
@[simp] theorem Dev.modPad_rebuild (d : Dev) (k : PadId) (f : Paddock → Paddock) : (d.modPad k f).rebuild = d.rebuild := rfl

@[simp] theorem Dev.modOp_repairs (d : Dev) (i : Fin 64) (f : Op → Op) : (d.modOp i f).repairs = d.repairs := rfl
@[simp] theorem Dev.modOp_rowSpares (d : Dev) (i : Fin 64) (f : Op → Op) : (d.modOp i f).rowSpares = d.rowSpares := rfl
@[simp] theorem Dev.modOp_stage (d : Dev) (i : Fin 64) (f : Op → Op) : (d.modOp i f).stage = d.stage := rfl
@[simp] theorem Dev.modOp_clk (d : Dev) (i : Fin 64) (f : Op → Op) : (d.modOp i f).clk = d.clk := rfl
@[simp] theorem Dev.modOp_freeCtr (d : Dev) (i : Fin 64) (f : Op → Op) : (d.modOp i f).freeCtr = d.freeCtr := rfl
@[simp] theorem Dev.modOp_readout (d : Dev) (i : Fin 64) (f : Op → Op) : (d.modOp i f).readout = d.readout := rfl
@[simp] theorem Dev.modOp_tested (d : Dev) (i : Fin 64) (f : Op → Op) : (d.modOp i f).tested = d.tested := rfl
@[simp] theorem Dev.modOp_entropyOk (d : Dev) (i : Fin 64) (f : Op → Op) : (d.modOp i f).entropyOk = d.entropyOk := rfl
@[simp] theorem Dev.modOp_strap (d : Dev) (i : Fin 64) (f : Op → Op) : (d.modOp i f).strap = d.strap := rfl
@[simp] theorem Dev.modOp_settings (d : Dev) (i : Fin 64) (f : Op → Op) : (d.modOp i f).settings = d.settings := rfl
@[simp] theorem Dev.modOp_trustBad (d : Dev) (i : Fin 64) (f : Op → Op) : (d.modOp i f).trustBad = d.trustBad := rfl
@[simp] theorem Dev.modOp_alerts (d : Dev) (i : Fin 64) (f : Op → Op) : (d.modOp i f).alerts = d.alerts := rfl
@[simp] theorem Dev.modOp_replaceN (d : Dev) (i : Fin 64) (f : Op → Op) : (d.modOp i f).replaceN = d.replaceN := rfl
@[simp] theorem Dev.modOp_i3cAddr (d : Dev) (i : Fin 64) (f : Op → Op) : (d.modOp i f).i3cAddr = d.i3cAddr := rfl
@[simp] theorem Dev.modOp_kinds (d : Dev) (i : Fin 64) (f : Op → Op) : (d.modOp i f).kinds = d.kinds := rfl
@[simp] theorem Dev.modOp_tiles (d : Dev) (i : Fin 64) (f : Op → Op) : (d.modOp i f).tiles = d.tiles := rfl
@[simp] theorem Dev.modOp_lofts (d : Dev) (i : Fin 64) (f : Op → Op) : (d.modOp i f).lofts = d.lofts := rfl
@[simp] theorem Dev.modOp_mesh (d : Dev) (i : Fin 64) (f : Op → Op) : (d.modOp i f).mesh = d.mesh := rfl
@[simp] theorem Dev.modOp_claims (d : Dev) (i : Fin 64) (f : Op → Op) : (d.modOp i f).claims = d.claims := rfl
@[simp] theorem Dev.modOp_seam (d : Dev) (i : Fin 64) (f : Op → Op) : (d.modOp i f).seam = d.seam := rfl
@[simp] theorem Dev.modOp_car (d : Dev) (i : Fin 64) (f : Op → Op) : (d.modOp i f).car = d.car := rfl
@[simp] theorem Dev.modOp_links (d : Dev) (i : Fin 64) (f : Op → Op) : (d.modOp i f).links = d.links := rfl
@[simp] theorem Dev.modOp_fab (d : Dev) (i : Fin 64) (f : Op → Op) : (d.modOp i f).fab = d.fab := rfl
@[simp] theorem Dev.modOp_host (d : Dev) (i : Fin 64) (f : Op → Op) : (d.modOp i f).host = d.host := rfl
@[simp] theorem Dev.modOp_mbs (d : Dev) (i : Fin 64) (f : Op → Op) : (d.modOp i f).mbs = d.mbs := rfl
@[simp] theorem Dev.modOp_owner (d : Dev) (i : Fin 64) (f : Op → Op) : (d.modOp i f).owner = d.owner := rfl
@[simp] theorem Dev.modOp_fabMbs (d : Dev) (i : Fin 64) (f : Op → Op) : (d.modOp i f).fabMbs = d.fabMbs := rfl
@[simp] theorem Dev.modOp_rings (d : Dev) (i : Fin 64) (f : Op → Op) : (d.modOp i f).rings = d.rings := rfl
@[simp] theorem Dev.modOp_copies (d : Dev) (i : Fin 64) (f : Op → Op) : (d.modOp i f).copies = d.copies := rfl
@[simp] theorem Dev.modOp_pads (d : Dev) (i : Fin 64) (f : Op → Op) : (d.modOp i f).pads = d.pads := rfl
@[simp] theorem Dev.modOp_seals (d : Dev) (i : Fin 64) (f : Op → Op) : (d.modOp i f).seals = d.seals := rfl
@[simp] theorem Dev.modOp_sessions (d : Dev) (i : Fin 64) (f : Op → Op) : (d.modOp i f).sessions = d.sessions := rfl
@[simp] theorem Dev.modOp_digests (d : Dev) (i : Fin 64) (f : Op → Op) : (d.modOp i f).digests = d.digests := rfl
@[simp] theorem Dev.modOp_seqs (d : Dev) (i : Fin 64) (f : Op → Op) : (d.modOp i f).seqs = d.seqs := rfl
@[simp] theorem Dev.modOp_accounts (d : Dev) (i : Fin 64) (f : Op → Op) : (d.modOp i f).accounts = d.accounts := rfl
@[simp] theorem Dev.modOp_beats (d : Dev) (i : Fin 64) (f : Op → Op) : (d.modOp i f).beats = d.beats := rfl
@[simp] theorem Dev.modOp_ym (d : Dev) (i : Fin 64) (f : Op → Op) : (d.modOp i f).ym = d.ym := rfl
@[simp] theorem Dev.modOp_loads (d : Dev) (i : Fin 64) (f : Op → Op) : (d.modOp i f).loads = d.loads := rfl
@[simp] theorem Dev.modOp_hitch (d : Dev) (i : Fin 64) (f : Op → Op) : (d.modOp i f).hitch = d.hitch := rfl
@[simp] theorem Dev.modOp_hitchFormed (d : Dev) (i : Fin 64) (f : Op → Op) : (d.modOp i f).hitchFormed = d.hitchFormed := rfl
@[simp] theorem Dev.modOp_hitchFailed (d : Dev) (i : Fin 64) (f : Op → Op) : (d.modOp i f).hitchFailed = d.hitchFailed := rfl
@[simp] theorem Dev.modOp_staging (d : Dev) (i : Fin 64) (f : Op → Op) : (d.modOp i f).staging = d.staging := rfl
@[simp] theorem Dev.modOp_staged (d : Dev) (i : Fin 64) (f : Op → Op) : (d.modOp i f).staged = d.staged := rfl
@[simp] theorem Dev.modOp_rebuild (d : Dev) (i : Fin 64) (f : Op → Op) : (d.modOp i f).rebuild = d.rebuild := rfl

@[simp] theorem Dev.modMb_repairs (d : Dev) (n : MbId) (f : Mailbox → Mailbox) : (d.modMb n f).repairs = d.repairs := rfl
@[simp] theorem Dev.modMb_rowSpares (d : Dev) (n : MbId) (f : Mailbox → Mailbox) : (d.modMb n f).rowSpares = d.rowSpares := rfl
@[simp] theorem Dev.modMb_stage (d : Dev) (n : MbId) (f : Mailbox → Mailbox) : (d.modMb n f).stage = d.stage := rfl
@[simp] theorem Dev.modMb_clk (d : Dev) (n : MbId) (f : Mailbox → Mailbox) : (d.modMb n f).clk = d.clk := rfl
@[simp] theorem Dev.modMb_freeCtr (d : Dev) (n : MbId) (f : Mailbox → Mailbox) : (d.modMb n f).freeCtr = d.freeCtr := rfl
@[simp] theorem Dev.modMb_readout (d : Dev) (n : MbId) (f : Mailbox → Mailbox) : (d.modMb n f).readout = d.readout := rfl
@[simp] theorem Dev.modMb_tested (d : Dev) (n : MbId) (f : Mailbox → Mailbox) : (d.modMb n f).tested = d.tested := rfl
@[simp] theorem Dev.modMb_entropyOk (d : Dev) (n : MbId) (f : Mailbox → Mailbox) : (d.modMb n f).entropyOk = d.entropyOk := rfl
@[simp] theorem Dev.modMb_strap (d : Dev) (n : MbId) (f : Mailbox → Mailbox) : (d.modMb n f).strap = d.strap := rfl
@[simp] theorem Dev.modMb_settings (d : Dev) (n : MbId) (f : Mailbox → Mailbox) : (d.modMb n f).settings = d.settings := rfl
@[simp] theorem Dev.modMb_trustBad (d : Dev) (n : MbId) (f : Mailbox → Mailbox) : (d.modMb n f).trustBad = d.trustBad := rfl
@[simp] theorem Dev.modMb_alerts (d : Dev) (n : MbId) (f : Mailbox → Mailbox) : (d.modMb n f).alerts = d.alerts := rfl
@[simp] theorem Dev.modMb_replaceN (d : Dev) (n : MbId) (f : Mailbox → Mailbox) : (d.modMb n f).replaceN = d.replaceN := rfl
@[simp] theorem Dev.modMb_i3cAddr (d : Dev) (n : MbId) (f : Mailbox → Mailbox) : (d.modMb n f).i3cAddr = d.i3cAddr := rfl
@[simp] theorem Dev.modMb_kinds (d : Dev) (n : MbId) (f : Mailbox → Mailbox) : (d.modMb n f).kinds = d.kinds := rfl
@[simp] theorem Dev.modMb_tiles (d : Dev) (n : MbId) (f : Mailbox → Mailbox) : (d.modMb n f).tiles = d.tiles := rfl
@[simp] theorem Dev.modMb_lofts (d : Dev) (n : MbId) (f : Mailbox → Mailbox) : (d.modMb n f).lofts = d.lofts := rfl
@[simp] theorem Dev.modMb_mesh (d : Dev) (n : MbId) (f : Mailbox → Mailbox) : (d.modMb n f).mesh = d.mesh := rfl
@[simp] theorem Dev.modMb_claims (d : Dev) (n : MbId) (f : Mailbox → Mailbox) : (d.modMb n f).claims = d.claims := rfl
@[simp] theorem Dev.modMb_seam (d : Dev) (n : MbId) (f : Mailbox → Mailbox) : (d.modMb n f).seam = d.seam := rfl
@[simp] theorem Dev.modMb_car (d : Dev) (n : MbId) (f : Mailbox → Mailbox) : (d.modMb n f).car = d.car := rfl
@[simp] theorem Dev.modMb_links (d : Dev) (n : MbId) (f : Mailbox → Mailbox) : (d.modMb n f).links = d.links := rfl
@[simp] theorem Dev.modMb_fab (d : Dev) (n : MbId) (f : Mailbox → Mailbox) : (d.modMb n f).fab = d.fab := rfl
@[simp] theorem Dev.modMb_host (d : Dev) (n : MbId) (f : Mailbox → Mailbox) : (d.modMb n f).host = d.host := rfl
@[simp] theorem Dev.modMb_owner (d : Dev) (n : MbId) (f : Mailbox → Mailbox) : (d.modMb n f).owner = d.owner := rfl
@[simp] theorem Dev.modMb_fabMbs (d : Dev) (n : MbId) (f : Mailbox → Mailbox) : (d.modMb n f).fabMbs = d.fabMbs := rfl
@[simp] theorem Dev.modMb_rings (d : Dev) (n : MbId) (f : Mailbox → Mailbox) : (d.modMb n f).rings = d.rings := rfl
@[simp] theorem Dev.modMb_ops (d : Dev) (n : MbId) (f : Mailbox → Mailbox) : (d.modMb n f).ops = d.ops := rfl
@[simp] theorem Dev.modMb_copies (d : Dev) (n : MbId) (f : Mailbox → Mailbox) : (d.modMb n f).copies = d.copies := rfl
@[simp] theorem Dev.modMb_pads (d : Dev) (n : MbId) (f : Mailbox → Mailbox) : (d.modMb n f).pads = d.pads := rfl
@[simp] theorem Dev.modMb_seals (d : Dev) (n : MbId) (f : Mailbox → Mailbox) : (d.modMb n f).seals = d.seals := rfl
@[simp] theorem Dev.modMb_sessions (d : Dev) (n : MbId) (f : Mailbox → Mailbox) : (d.modMb n f).sessions = d.sessions := rfl
@[simp] theorem Dev.modMb_digests (d : Dev) (n : MbId) (f : Mailbox → Mailbox) : (d.modMb n f).digests = d.digests := rfl
@[simp] theorem Dev.modMb_seqs (d : Dev) (n : MbId) (f : Mailbox → Mailbox) : (d.modMb n f).seqs = d.seqs := rfl
@[simp] theorem Dev.modMb_accounts (d : Dev) (n : MbId) (f : Mailbox → Mailbox) : (d.modMb n f).accounts = d.accounts := rfl
@[simp] theorem Dev.modMb_beats (d : Dev) (n : MbId) (f : Mailbox → Mailbox) : (d.modMb n f).beats = d.beats := rfl
@[simp] theorem Dev.modMb_ym (d : Dev) (n : MbId) (f : Mailbox → Mailbox) : (d.modMb n f).ym = d.ym := rfl
@[simp] theorem Dev.modMb_loads (d : Dev) (n : MbId) (f : Mailbox → Mailbox) : (d.modMb n f).loads = d.loads := rfl
@[simp] theorem Dev.modMb_hitch (d : Dev) (n : MbId) (f : Mailbox → Mailbox) : (d.modMb n f).hitch = d.hitch := rfl
@[simp] theorem Dev.modMb_hitchFormed (d : Dev) (n : MbId) (f : Mailbox → Mailbox) : (d.modMb n f).hitchFormed = d.hitchFormed := rfl
@[simp] theorem Dev.modMb_hitchFailed (d : Dev) (n : MbId) (f : Mailbox → Mailbox) : (d.modMb n f).hitchFailed = d.hitchFailed := rfl
@[simp] theorem Dev.modMb_staging (d : Dev) (n : MbId) (f : Mailbox → Mailbox) : (d.modMb n f).staging = d.staging := rfl
@[simp] theorem Dev.modMb_staged (d : Dev) (n : MbId) (f : Mailbox → Mailbox) : (d.modMb n f).staged = d.staged := rfl
@[simp] theorem Dev.modMb_rebuild (d : Dev) (n : MbId) (f : Mailbox → Mailbox) : (d.modMb n f).rebuild = d.rebuild := rfl

@[simp] theorem Dev.modCopy_repairs (d : Dev) (i : Fin 16) (f : Copy → Copy) : (d.modCopy i f).repairs = d.repairs := rfl
@[simp] theorem Dev.modCopy_rowSpares (d : Dev) (i : Fin 16) (f : Copy → Copy) : (d.modCopy i f).rowSpares = d.rowSpares := rfl
@[simp] theorem Dev.modCopy_stage (d : Dev) (i : Fin 16) (f : Copy → Copy) : (d.modCopy i f).stage = d.stage := rfl
@[simp] theorem Dev.modCopy_clk (d : Dev) (i : Fin 16) (f : Copy → Copy) : (d.modCopy i f).clk = d.clk := rfl
@[simp] theorem Dev.modCopy_freeCtr (d : Dev) (i : Fin 16) (f : Copy → Copy) : (d.modCopy i f).freeCtr = d.freeCtr := rfl
@[simp] theorem Dev.modCopy_readout (d : Dev) (i : Fin 16) (f : Copy → Copy) : (d.modCopy i f).readout = d.readout := rfl
@[simp] theorem Dev.modCopy_tested (d : Dev) (i : Fin 16) (f : Copy → Copy) : (d.modCopy i f).tested = d.tested := rfl
@[simp] theorem Dev.modCopy_entropyOk (d : Dev) (i : Fin 16) (f : Copy → Copy) : (d.modCopy i f).entropyOk = d.entropyOk := rfl
@[simp] theorem Dev.modCopy_strap (d : Dev) (i : Fin 16) (f : Copy → Copy) : (d.modCopy i f).strap = d.strap := rfl
@[simp] theorem Dev.modCopy_settings (d : Dev) (i : Fin 16) (f : Copy → Copy) : (d.modCopy i f).settings = d.settings := rfl
@[simp] theorem Dev.modCopy_trustBad (d : Dev) (i : Fin 16) (f : Copy → Copy) : (d.modCopy i f).trustBad = d.trustBad := rfl
@[simp] theorem Dev.modCopy_alerts (d : Dev) (i : Fin 16) (f : Copy → Copy) : (d.modCopy i f).alerts = d.alerts := rfl
@[simp] theorem Dev.modCopy_replaceN (d : Dev) (i : Fin 16) (f : Copy → Copy) : (d.modCopy i f).replaceN = d.replaceN := rfl
@[simp] theorem Dev.modCopy_i3cAddr (d : Dev) (i : Fin 16) (f : Copy → Copy) : (d.modCopy i f).i3cAddr = d.i3cAddr := rfl
@[simp] theorem Dev.modCopy_kinds (d : Dev) (i : Fin 16) (f : Copy → Copy) : (d.modCopy i f).kinds = d.kinds := rfl
@[simp] theorem Dev.modCopy_tiles (d : Dev) (i : Fin 16) (f : Copy → Copy) : (d.modCopy i f).tiles = d.tiles := rfl
@[simp] theorem Dev.modCopy_lofts (d : Dev) (i : Fin 16) (f : Copy → Copy) : (d.modCopy i f).lofts = d.lofts := rfl
@[simp] theorem Dev.modCopy_mesh (d : Dev) (i : Fin 16) (f : Copy → Copy) : (d.modCopy i f).mesh = d.mesh := rfl
@[simp] theorem Dev.modCopy_claims (d : Dev) (i : Fin 16) (f : Copy → Copy) : (d.modCopy i f).claims = d.claims := rfl
@[simp] theorem Dev.modCopy_seam (d : Dev) (i : Fin 16) (f : Copy → Copy) : (d.modCopy i f).seam = d.seam := rfl
@[simp] theorem Dev.modCopy_car (d : Dev) (i : Fin 16) (f : Copy → Copy) : (d.modCopy i f).car = d.car := rfl
@[simp] theorem Dev.modCopy_links (d : Dev) (i : Fin 16) (f : Copy → Copy) : (d.modCopy i f).links = d.links := rfl
@[simp] theorem Dev.modCopy_fab (d : Dev) (i : Fin 16) (f : Copy → Copy) : (d.modCopy i f).fab = d.fab := rfl
@[simp] theorem Dev.modCopy_host (d : Dev) (i : Fin 16) (f : Copy → Copy) : (d.modCopy i f).host = d.host := rfl
@[simp] theorem Dev.modCopy_mbs (d : Dev) (i : Fin 16) (f : Copy → Copy) : (d.modCopy i f).mbs = d.mbs := rfl
@[simp] theorem Dev.modCopy_owner (d : Dev) (i : Fin 16) (f : Copy → Copy) : (d.modCopy i f).owner = d.owner := rfl
@[simp] theorem Dev.modCopy_fabMbs (d : Dev) (i : Fin 16) (f : Copy → Copy) : (d.modCopy i f).fabMbs = d.fabMbs := rfl
@[simp] theorem Dev.modCopy_rings (d : Dev) (i : Fin 16) (f : Copy → Copy) : (d.modCopy i f).rings = d.rings := rfl
@[simp] theorem Dev.modCopy_ops (d : Dev) (i : Fin 16) (f : Copy → Copy) : (d.modCopy i f).ops = d.ops := rfl
@[simp] theorem Dev.modCopy_pads (d : Dev) (i : Fin 16) (f : Copy → Copy) : (d.modCopy i f).pads = d.pads := rfl
@[simp] theorem Dev.modCopy_seals (d : Dev) (i : Fin 16) (f : Copy → Copy) : (d.modCopy i f).seals = d.seals := rfl
@[simp] theorem Dev.modCopy_sessions (d : Dev) (i : Fin 16) (f : Copy → Copy) : (d.modCopy i f).sessions = d.sessions := rfl
@[simp] theorem Dev.modCopy_digests (d : Dev) (i : Fin 16) (f : Copy → Copy) : (d.modCopy i f).digests = d.digests := rfl
@[simp] theorem Dev.modCopy_seqs (d : Dev) (i : Fin 16) (f : Copy → Copy) : (d.modCopy i f).seqs = d.seqs := rfl
@[simp] theorem Dev.modCopy_accounts (d : Dev) (i : Fin 16) (f : Copy → Copy) : (d.modCopy i f).accounts = d.accounts := rfl
@[simp] theorem Dev.modCopy_beats (d : Dev) (i : Fin 16) (f : Copy → Copy) : (d.modCopy i f).beats = d.beats := rfl
@[simp] theorem Dev.modCopy_ym (d : Dev) (i : Fin 16) (f : Copy → Copy) : (d.modCopy i f).ym = d.ym := rfl
@[simp] theorem Dev.modCopy_loads (d : Dev) (i : Fin 16) (f : Copy → Copy) : (d.modCopy i f).loads = d.loads := rfl
@[simp] theorem Dev.modCopy_hitch (d : Dev) (i : Fin 16) (f : Copy → Copy) : (d.modCopy i f).hitch = d.hitch := rfl
@[simp] theorem Dev.modCopy_hitchFormed (d : Dev) (i : Fin 16) (f : Copy → Copy) : (d.modCopy i f).hitchFormed = d.hitchFormed := rfl
@[simp] theorem Dev.modCopy_hitchFailed (d : Dev) (i : Fin 16) (f : Copy → Copy) : (d.modCopy i f).hitchFailed = d.hitchFailed := rfl
@[simp] theorem Dev.modCopy_staging (d : Dev) (i : Fin 16) (f : Copy → Copy) : (d.modCopy i f).staging = d.staging := rfl
@[simp] theorem Dev.modCopy_staged (d : Dev) (i : Fin 16) (f : Copy → Copy) : (d.modCopy i f).staged = d.staged := rfl
@[simp] theorem Dev.modCopy_rebuild (d : Dev) (i : Fin 16) (f : Copy → Copy) : (d.modCopy i f).rebuild = d.rebuild := rfl

@[simp] theorem Dev.modModule_repairs (d : Dev) (m : ModId) (f : Module → Module) : (d.modModule m f).repairs = d.repairs := rfl
@[simp] theorem Dev.modModule_rowSpares (d : Dev) (m : ModId) (f : Module → Module) : (d.modModule m f).rowSpares = d.rowSpares := rfl
@[simp] theorem Dev.modModule_stage (d : Dev) (m : ModId) (f : Module → Module) : (d.modModule m f).stage = d.stage := rfl
@[simp] theorem Dev.modModule_clk (d : Dev) (m : ModId) (f : Module → Module) : (d.modModule m f).clk = d.clk := rfl
@[simp] theorem Dev.modModule_freeCtr (d : Dev) (m : ModId) (f : Module → Module) : (d.modModule m f).freeCtr = d.freeCtr := rfl
@[simp] theorem Dev.modModule_readout (d : Dev) (m : ModId) (f : Module → Module) : (d.modModule m f).readout = d.readout := rfl
@[simp] theorem Dev.modModule_tested (d : Dev) (m : ModId) (f : Module → Module) : (d.modModule m f).tested = d.tested := rfl
@[simp] theorem Dev.modModule_entropyOk (d : Dev) (m : ModId) (f : Module → Module) : (d.modModule m f).entropyOk = d.entropyOk := rfl
@[simp] theorem Dev.modModule_strap (d : Dev) (m : ModId) (f : Module → Module) : (d.modModule m f).strap = d.strap := rfl
@[simp] theorem Dev.modModule_settings (d : Dev) (m : ModId) (f : Module → Module) : (d.modModule m f).settings = d.settings := rfl
@[simp] theorem Dev.modModule_trustBad (d : Dev) (m : ModId) (f : Module → Module) : (d.modModule m f).trustBad = d.trustBad := rfl
@[simp] theorem Dev.modModule_alerts (d : Dev) (m : ModId) (f : Module → Module) : (d.modModule m f).alerts = d.alerts := rfl
@[simp] theorem Dev.modModule_replaceN (d : Dev) (m : ModId) (f : Module → Module) : (d.modModule m f).replaceN = d.replaceN := rfl
@[simp] theorem Dev.modModule_i3cAddr (d : Dev) (m : ModId) (f : Module → Module) : (d.modModule m f).i3cAddr = d.i3cAddr := rfl
@[simp] theorem Dev.modModule_kinds (d : Dev) (m : ModId) (f : Module → Module) : (d.modModule m f).kinds = d.kinds := rfl
@[simp] theorem Dev.modModule_tiles (d : Dev) (m : ModId) (f : Module → Module) : (d.modModule m f).tiles = d.tiles := rfl
@[simp] theorem Dev.modModule_lofts (d : Dev) (m : ModId) (f : Module → Module) : (d.modModule m f).lofts = d.lofts := rfl
@[simp] theorem Dev.modModule_mesh (d : Dev) (m : ModId) (f : Module → Module) : (d.modModule m f).mesh = d.mesh := rfl
@[simp] theorem Dev.modModule_claims (d : Dev) (m : ModId) (f : Module → Module) : (d.modModule m f).claims = d.claims := rfl
@[simp] theorem Dev.modModule_seam (d : Dev) (m : ModId) (f : Module → Module) : (d.modModule m f).seam = d.seam := rfl
@[simp] theorem Dev.modModule_car (d : Dev) (m : ModId) (f : Module → Module) : (d.modModule m f).car = d.car := rfl
@[simp] theorem Dev.modModule_links (d : Dev) (m : ModId) (f : Module → Module) : (d.modModule m f).links = d.links := rfl
@[simp] theorem Dev.modModule_fab (d : Dev) (m : ModId) (f : Module → Module) : (d.modModule m f).fab = d.fab := rfl
@[simp] theorem Dev.modModule_mbs (d : Dev) (m : ModId) (f : Module → Module) : (d.modModule m f).mbs = d.mbs := rfl
@[simp] theorem Dev.modModule_owner (d : Dev) (m : ModId) (f : Module → Module) : (d.modModule m f).owner = d.owner := rfl
@[simp] theorem Dev.modModule_fabMbs (d : Dev) (m : ModId) (f : Module → Module) : (d.modModule m f).fabMbs = d.fabMbs := rfl
@[simp] theorem Dev.modModule_rings (d : Dev) (m : ModId) (f : Module → Module) : (d.modModule m f).rings = d.rings := rfl
@[simp] theorem Dev.modModule_ops (d : Dev) (m : ModId) (f : Module → Module) : (d.modModule m f).ops = d.ops := rfl
@[simp] theorem Dev.modModule_copies (d : Dev) (m : ModId) (f : Module → Module) : (d.modModule m f).copies = d.copies := rfl
@[simp] theorem Dev.modModule_pads (d : Dev) (m : ModId) (f : Module → Module) : (d.modModule m f).pads = d.pads := rfl
@[simp] theorem Dev.modModule_seals (d : Dev) (m : ModId) (f : Module → Module) : (d.modModule m f).seals = d.seals := rfl
@[simp] theorem Dev.modModule_sessions (d : Dev) (m : ModId) (f : Module → Module) : (d.modModule m f).sessions = d.sessions := rfl
@[simp] theorem Dev.modModule_digests (d : Dev) (m : ModId) (f : Module → Module) : (d.modModule m f).digests = d.digests := rfl
@[simp] theorem Dev.modModule_seqs (d : Dev) (m : ModId) (f : Module → Module) : (d.modModule m f).seqs = d.seqs := rfl
@[simp] theorem Dev.modModule_accounts (d : Dev) (m : ModId) (f : Module → Module) : (d.modModule m f).accounts = d.accounts := rfl
@[simp] theorem Dev.modModule_beats (d : Dev) (m : ModId) (f : Module → Module) : (d.modModule m f).beats = d.beats := rfl
@[simp] theorem Dev.modModule_ym (d : Dev) (m : ModId) (f : Module → Module) : (d.modModule m f).ym = d.ym := rfl
@[simp] theorem Dev.modModule_loads (d : Dev) (m : ModId) (f : Module → Module) : (d.modModule m f).loads = d.loads := rfl
@[simp] theorem Dev.modModule_hitch (d : Dev) (m : ModId) (f : Module → Module) : (d.modModule m f).hitch = d.hitch := rfl
@[simp] theorem Dev.modModule_hitchFormed (d : Dev) (m : ModId) (f : Module → Module) : (d.modModule m f).hitchFormed = d.hitchFormed := rfl
@[simp] theorem Dev.modModule_hitchFailed (d : Dev) (m : ModId) (f : Module → Module) : (d.modModule m f).hitchFailed = d.hitchFailed := rfl
@[simp] theorem Dev.modModule_staging (d : Dev) (m : ModId) (f : Module → Module) : (d.modModule m f).staging = d.staging := rfl
@[simp] theorem Dev.modModule_staged (d : Dev) (m : ModId) (f : Module → Module) : (d.modModule m f).staged = d.staged := rfl
@[simp] theorem Dev.modModule_rebuild (d : Dev) (m : ModId) (f : Module → Module) : (d.modModule m f).rebuild = d.rebuild := rfl

@[simp] theorem Dev.modPos_repairs (d : Dev) (s : SiteId) (p : PosId) (f : Pos → Pos) : (d.modPos s p f).repairs = d.repairs := rfl
@[simp] theorem Dev.modPos_rowSpares (d : Dev) (s : SiteId) (p : PosId) (f : Pos → Pos) : (d.modPos s p f).rowSpares = d.rowSpares := rfl
@[simp] theorem Dev.modPos_stage (d : Dev) (s : SiteId) (p : PosId) (f : Pos → Pos) : (d.modPos s p f).stage = d.stage := rfl
@[simp] theorem Dev.modPos_clk (d : Dev) (s : SiteId) (p : PosId) (f : Pos → Pos) : (d.modPos s p f).clk = d.clk := rfl
@[simp] theorem Dev.modPos_freeCtr (d : Dev) (s : SiteId) (p : PosId) (f : Pos → Pos) : (d.modPos s p f).freeCtr = d.freeCtr := rfl
@[simp] theorem Dev.modPos_readout (d : Dev) (s : SiteId) (p : PosId) (f : Pos → Pos) : (d.modPos s p f).readout = d.readout := rfl
@[simp] theorem Dev.modPos_tested (d : Dev) (s : SiteId) (p : PosId) (f : Pos → Pos) : (d.modPos s p f).tested = d.tested := rfl
@[simp] theorem Dev.modPos_entropyOk (d : Dev) (s : SiteId) (p : PosId) (f : Pos → Pos) : (d.modPos s p f).entropyOk = d.entropyOk := rfl
@[simp] theorem Dev.modPos_strap (d : Dev) (s : SiteId) (p : PosId) (f : Pos → Pos) : (d.modPos s p f).strap = d.strap := rfl
@[simp] theorem Dev.modPos_settings (d : Dev) (s : SiteId) (p : PosId) (f : Pos → Pos) : (d.modPos s p f).settings = d.settings := rfl
@[simp] theorem Dev.modPos_trustBad (d : Dev) (s : SiteId) (p : PosId) (f : Pos → Pos) : (d.modPos s p f).trustBad = d.trustBad := rfl
@[simp] theorem Dev.modPos_alerts (d : Dev) (s : SiteId) (p : PosId) (f : Pos → Pos) : (d.modPos s p f).alerts = d.alerts := rfl
@[simp] theorem Dev.modPos_replaceN (d : Dev) (s : SiteId) (p : PosId) (f : Pos → Pos) : (d.modPos s p f).replaceN = d.replaceN := rfl
@[simp] theorem Dev.modPos_i3cAddr (d : Dev) (s : SiteId) (p : PosId) (f : Pos → Pos) : (d.modPos s p f).i3cAddr = d.i3cAddr := rfl
@[simp] theorem Dev.modPos_kinds (d : Dev) (s : SiteId) (p : PosId) (f : Pos → Pos) : (d.modPos s p f).kinds = d.kinds := rfl
@[simp] theorem Dev.modPos_lofts (d : Dev) (s : SiteId) (p : PosId) (f : Pos → Pos) : (d.modPos s p f).lofts = d.lofts := rfl
@[simp] theorem Dev.modPos_mesh (d : Dev) (s : SiteId) (p : PosId) (f : Pos → Pos) : (d.modPos s p f).mesh = d.mesh := rfl
@[simp] theorem Dev.modPos_claims (d : Dev) (s : SiteId) (p : PosId) (f : Pos → Pos) : (d.modPos s p f).claims = d.claims := rfl
@[simp] theorem Dev.modPos_seam (d : Dev) (s : SiteId) (p : PosId) (f : Pos → Pos) : (d.modPos s p f).seam = d.seam := rfl
@[simp] theorem Dev.modPos_car (d : Dev) (s : SiteId) (p : PosId) (f : Pos → Pos) : (d.modPos s p f).car = d.car := rfl
@[simp] theorem Dev.modPos_links (d : Dev) (s : SiteId) (p : PosId) (f : Pos → Pos) : (d.modPos s p f).links = d.links := rfl
@[simp] theorem Dev.modPos_fab (d : Dev) (s : SiteId) (p : PosId) (f : Pos → Pos) : (d.modPos s p f).fab = d.fab := rfl
@[simp] theorem Dev.modPos_host (d : Dev) (s : SiteId) (p : PosId) (f : Pos → Pos) : (d.modPos s p f).host = d.host := rfl
@[simp] theorem Dev.modPos_mbs (d : Dev) (s : SiteId) (p : PosId) (f : Pos → Pos) : (d.modPos s p f).mbs = d.mbs := rfl
@[simp] theorem Dev.modPos_owner (d : Dev) (s : SiteId) (p : PosId) (f : Pos → Pos) : (d.modPos s p f).owner = d.owner := rfl
@[simp] theorem Dev.modPos_fabMbs (d : Dev) (s : SiteId) (p : PosId) (f : Pos → Pos) : (d.modPos s p f).fabMbs = d.fabMbs := rfl
@[simp] theorem Dev.modPos_rings (d : Dev) (s : SiteId) (p : PosId) (f : Pos → Pos) : (d.modPos s p f).rings = d.rings := rfl
@[simp] theorem Dev.modPos_ops (d : Dev) (s : SiteId) (p : PosId) (f : Pos → Pos) : (d.modPos s p f).ops = d.ops := rfl
@[simp] theorem Dev.modPos_copies (d : Dev) (s : SiteId) (p : PosId) (f : Pos → Pos) : (d.modPos s p f).copies = d.copies := rfl
@[simp] theorem Dev.modPos_pads (d : Dev) (s : SiteId) (p : PosId) (f : Pos → Pos) : (d.modPos s p f).pads = d.pads := rfl
@[simp] theorem Dev.modPos_seals (d : Dev) (s : SiteId) (p : PosId) (f : Pos → Pos) : (d.modPos s p f).seals = d.seals := rfl
@[simp] theorem Dev.modPos_sessions (d : Dev) (s : SiteId) (p : PosId) (f : Pos → Pos) : (d.modPos s p f).sessions = d.sessions := rfl
@[simp] theorem Dev.modPos_digests (d : Dev) (s : SiteId) (p : PosId) (f : Pos → Pos) : (d.modPos s p f).digests = d.digests := rfl
@[simp] theorem Dev.modPos_seqs (d : Dev) (s : SiteId) (p : PosId) (f : Pos → Pos) : (d.modPos s p f).seqs = d.seqs := rfl
@[simp] theorem Dev.modPos_accounts (d : Dev) (s : SiteId) (p : PosId) (f : Pos → Pos) : (d.modPos s p f).accounts = d.accounts := rfl
@[simp] theorem Dev.modPos_beats (d : Dev) (s : SiteId) (p : PosId) (f : Pos → Pos) : (d.modPos s p f).beats = d.beats := rfl
@[simp] theorem Dev.modPos_ym (d : Dev) (s : SiteId) (p : PosId) (f : Pos → Pos) : (d.modPos s p f).ym = d.ym := rfl
@[simp] theorem Dev.modPos_loads (d : Dev) (s : SiteId) (p : PosId) (f : Pos → Pos) : (d.modPos s p f).loads = d.loads := rfl
@[simp] theorem Dev.modPos_hitch (d : Dev) (s : SiteId) (p : PosId) (f : Pos → Pos) : (d.modPos s p f).hitch = d.hitch := rfl
@[simp] theorem Dev.modPos_hitchFormed (d : Dev) (s : SiteId) (p : PosId) (f : Pos → Pos) : (d.modPos s p f).hitchFormed = d.hitchFormed := rfl
@[simp] theorem Dev.modPos_hitchFailed (d : Dev) (s : SiteId) (p : PosId) (f : Pos → Pos) : (d.modPos s p f).hitchFailed = d.hitchFailed := rfl
@[simp] theorem Dev.modPos_staging (d : Dev) (s : SiteId) (p : PosId) (f : Pos → Pos) : (d.modPos s p f).staging = d.staging := rfl
@[simp] theorem Dev.modPos_staged (d : Dev) (s : SiteId) (p : PosId) (f : Pos → Pos) : (d.modPos s p f).staged = d.staged := rfl
@[simp] theorem Dev.modPos_rebuild (d : Dev) (s : SiteId) (p : PosId) (f : Pos → Pos) : (d.modPos s p f).rebuild = d.rebuild := rfl

@[simp] theorem Dev.modCtx_repairs (d : Dev) (s : SiteId) (c : CtxId) (f : Ctx → Ctx) : (d.modCtx s c f).repairs = d.repairs := rfl
@[simp] theorem Dev.modCtx_rowSpares (d : Dev) (s : SiteId) (c : CtxId) (f : Ctx → Ctx) : (d.modCtx s c f).rowSpares = d.rowSpares := rfl
@[simp] theorem Dev.modCtx_stage (d : Dev) (s : SiteId) (c : CtxId) (f : Ctx → Ctx) : (d.modCtx s c f).stage = d.stage := rfl
@[simp] theorem Dev.modCtx_clk (d : Dev) (s : SiteId) (c : CtxId) (f : Ctx → Ctx) : (d.modCtx s c f).clk = d.clk := rfl
@[simp] theorem Dev.modCtx_freeCtr (d : Dev) (s : SiteId) (c : CtxId) (f : Ctx → Ctx) : (d.modCtx s c f).freeCtr = d.freeCtr := rfl
@[simp] theorem Dev.modCtx_readout (d : Dev) (s : SiteId) (c : CtxId) (f : Ctx → Ctx) : (d.modCtx s c f).readout = d.readout := rfl
@[simp] theorem Dev.modCtx_tested (d : Dev) (s : SiteId) (c : CtxId) (f : Ctx → Ctx) : (d.modCtx s c f).tested = d.tested := rfl
@[simp] theorem Dev.modCtx_entropyOk (d : Dev) (s : SiteId) (c : CtxId) (f : Ctx → Ctx) : (d.modCtx s c f).entropyOk = d.entropyOk := rfl
@[simp] theorem Dev.modCtx_strap (d : Dev) (s : SiteId) (c : CtxId) (f : Ctx → Ctx) : (d.modCtx s c f).strap = d.strap := rfl
@[simp] theorem Dev.modCtx_settings (d : Dev) (s : SiteId) (c : CtxId) (f : Ctx → Ctx) : (d.modCtx s c f).settings = d.settings := rfl
@[simp] theorem Dev.modCtx_trustBad (d : Dev) (s : SiteId) (c : CtxId) (f : Ctx → Ctx) : (d.modCtx s c f).trustBad = d.trustBad := rfl
@[simp] theorem Dev.modCtx_alerts (d : Dev) (s : SiteId) (c : CtxId) (f : Ctx → Ctx) : (d.modCtx s c f).alerts = d.alerts := rfl
@[simp] theorem Dev.modCtx_replaceN (d : Dev) (s : SiteId) (c : CtxId) (f : Ctx → Ctx) : (d.modCtx s c f).replaceN = d.replaceN := rfl
@[simp] theorem Dev.modCtx_i3cAddr (d : Dev) (s : SiteId) (c : CtxId) (f : Ctx → Ctx) : (d.modCtx s c f).i3cAddr = d.i3cAddr := rfl
@[simp] theorem Dev.modCtx_kinds (d : Dev) (s : SiteId) (c : CtxId) (f : Ctx → Ctx) : (d.modCtx s c f).kinds = d.kinds := rfl
@[simp] theorem Dev.modCtx_lofts (d : Dev) (s : SiteId) (c : CtxId) (f : Ctx → Ctx) : (d.modCtx s c f).lofts = d.lofts := rfl
@[simp] theorem Dev.modCtx_mesh (d : Dev) (s : SiteId) (c : CtxId) (f : Ctx → Ctx) : (d.modCtx s c f).mesh = d.mesh := rfl
@[simp] theorem Dev.modCtx_claims (d : Dev) (s : SiteId) (c : CtxId) (f : Ctx → Ctx) : (d.modCtx s c f).claims = d.claims := rfl
@[simp] theorem Dev.modCtx_seam (d : Dev) (s : SiteId) (c : CtxId) (f : Ctx → Ctx) : (d.modCtx s c f).seam = d.seam := rfl
@[simp] theorem Dev.modCtx_car (d : Dev) (s : SiteId) (c : CtxId) (f : Ctx → Ctx) : (d.modCtx s c f).car = d.car := rfl
@[simp] theorem Dev.modCtx_links (d : Dev) (s : SiteId) (c : CtxId) (f : Ctx → Ctx) : (d.modCtx s c f).links = d.links := rfl
@[simp] theorem Dev.modCtx_fab (d : Dev) (s : SiteId) (c : CtxId) (f : Ctx → Ctx) : (d.modCtx s c f).fab = d.fab := rfl
@[simp] theorem Dev.modCtx_host (d : Dev) (s : SiteId) (c : CtxId) (f : Ctx → Ctx) : (d.modCtx s c f).host = d.host := rfl
@[simp] theorem Dev.modCtx_mbs (d : Dev) (s : SiteId) (c : CtxId) (f : Ctx → Ctx) : (d.modCtx s c f).mbs = d.mbs := rfl
@[simp] theorem Dev.modCtx_owner (d : Dev) (s : SiteId) (c : CtxId) (f : Ctx → Ctx) : (d.modCtx s c f).owner = d.owner := rfl
@[simp] theorem Dev.modCtx_fabMbs (d : Dev) (s : SiteId) (c : CtxId) (f : Ctx → Ctx) : (d.modCtx s c f).fabMbs = d.fabMbs := rfl
@[simp] theorem Dev.modCtx_rings (d : Dev) (s : SiteId) (c : CtxId) (f : Ctx → Ctx) : (d.modCtx s c f).rings = d.rings := rfl
@[simp] theorem Dev.modCtx_ops (d : Dev) (s : SiteId) (c : CtxId) (f : Ctx → Ctx) : (d.modCtx s c f).ops = d.ops := rfl
@[simp] theorem Dev.modCtx_copies (d : Dev) (s : SiteId) (c : CtxId) (f : Ctx → Ctx) : (d.modCtx s c f).copies = d.copies := rfl
@[simp] theorem Dev.modCtx_pads (d : Dev) (s : SiteId) (c : CtxId) (f : Ctx → Ctx) : (d.modCtx s c f).pads = d.pads := rfl
@[simp] theorem Dev.modCtx_seals (d : Dev) (s : SiteId) (c : CtxId) (f : Ctx → Ctx) : (d.modCtx s c f).seals = d.seals := rfl
@[simp] theorem Dev.modCtx_sessions (d : Dev) (s : SiteId) (c : CtxId) (f : Ctx → Ctx) : (d.modCtx s c f).sessions = d.sessions := rfl
@[simp] theorem Dev.modCtx_digests (d : Dev) (s : SiteId) (c : CtxId) (f : Ctx → Ctx) : (d.modCtx s c f).digests = d.digests := rfl
@[simp] theorem Dev.modCtx_seqs (d : Dev) (s : SiteId) (c : CtxId) (f : Ctx → Ctx) : (d.modCtx s c f).seqs = d.seqs := rfl
@[simp] theorem Dev.modCtx_accounts (d : Dev) (s : SiteId) (c : CtxId) (f : Ctx → Ctx) : (d.modCtx s c f).accounts = d.accounts := rfl
@[simp] theorem Dev.modCtx_beats (d : Dev) (s : SiteId) (c : CtxId) (f : Ctx → Ctx) : (d.modCtx s c f).beats = d.beats := rfl
@[simp] theorem Dev.modCtx_ym (d : Dev) (s : SiteId) (c : CtxId) (f : Ctx → Ctx) : (d.modCtx s c f).ym = d.ym := rfl
@[simp] theorem Dev.modCtx_loads (d : Dev) (s : SiteId) (c : CtxId) (f : Ctx → Ctx) : (d.modCtx s c f).loads = d.loads := rfl
@[simp] theorem Dev.modCtx_hitch (d : Dev) (s : SiteId) (c : CtxId) (f : Ctx → Ctx) : (d.modCtx s c f).hitch = d.hitch := rfl
@[simp] theorem Dev.modCtx_hitchFormed (d : Dev) (s : SiteId) (c : CtxId) (f : Ctx → Ctx) : (d.modCtx s c f).hitchFormed = d.hitchFormed := rfl
@[simp] theorem Dev.modCtx_hitchFailed (d : Dev) (s : SiteId) (c : CtxId) (f : Ctx → Ctx) : (d.modCtx s c f).hitchFailed = d.hitchFailed := rfl
@[simp] theorem Dev.modCtx_staging (d : Dev) (s : SiteId) (c : CtxId) (f : Ctx → Ctx) : (d.modCtx s c f).staging = d.staging := rfl
@[simp] theorem Dev.modCtx_staged (d : Dev) (s : SiteId) (c : CtxId) (f : Ctx → Ctx) : (d.modCtx s c f).staged = d.staged := rfl
@[simp] theorem Dev.modCtx_rebuild (d : Dev) (s : SiteId) (c : CtxId) (f : Ctx → Ctx) : (d.modCtx s c f).rebuild = d.rebuild := rfl

@[simp] theorem Dev.modMxu_repairs (d : Dev) (s : SiteId) (f : Mxu → Mxu) : (d.modMxu s f).repairs = d.repairs := rfl
@[simp] theorem Dev.modMxu_rowSpares (d : Dev) (s : SiteId) (f : Mxu → Mxu) : (d.modMxu s f).rowSpares = d.rowSpares := rfl
@[simp] theorem Dev.modMxu_stage (d : Dev) (s : SiteId) (f : Mxu → Mxu) : (d.modMxu s f).stage = d.stage := rfl
@[simp] theorem Dev.modMxu_clk (d : Dev) (s : SiteId) (f : Mxu → Mxu) : (d.modMxu s f).clk = d.clk := rfl
@[simp] theorem Dev.modMxu_freeCtr (d : Dev) (s : SiteId) (f : Mxu → Mxu) : (d.modMxu s f).freeCtr = d.freeCtr := rfl
@[simp] theorem Dev.modMxu_readout (d : Dev) (s : SiteId) (f : Mxu → Mxu) : (d.modMxu s f).readout = d.readout := rfl
@[simp] theorem Dev.modMxu_tested (d : Dev) (s : SiteId) (f : Mxu → Mxu) : (d.modMxu s f).tested = d.tested := rfl
@[simp] theorem Dev.modMxu_entropyOk (d : Dev) (s : SiteId) (f : Mxu → Mxu) : (d.modMxu s f).entropyOk = d.entropyOk := rfl
@[simp] theorem Dev.modMxu_strap (d : Dev) (s : SiteId) (f : Mxu → Mxu) : (d.modMxu s f).strap = d.strap := rfl
@[simp] theorem Dev.modMxu_settings (d : Dev) (s : SiteId) (f : Mxu → Mxu) : (d.modMxu s f).settings = d.settings := rfl
@[simp] theorem Dev.modMxu_trustBad (d : Dev) (s : SiteId) (f : Mxu → Mxu) : (d.modMxu s f).trustBad = d.trustBad := rfl
@[simp] theorem Dev.modMxu_alerts (d : Dev) (s : SiteId) (f : Mxu → Mxu) : (d.modMxu s f).alerts = d.alerts := rfl
@[simp] theorem Dev.modMxu_replaceN (d : Dev) (s : SiteId) (f : Mxu → Mxu) : (d.modMxu s f).replaceN = d.replaceN := rfl
@[simp] theorem Dev.modMxu_i3cAddr (d : Dev) (s : SiteId) (f : Mxu → Mxu) : (d.modMxu s f).i3cAddr = d.i3cAddr := rfl
@[simp] theorem Dev.modMxu_kinds (d : Dev) (s : SiteId) (f : Mxu → Mxu) : (d.modMxu s f).kinds = d.kinds := rfl
@[simp] theorem Dev.modMxu_lofts (d : Dev) (s : SiteId) (f : Mxu → Mxu) : (d.modMxu s f).lofts = d.lofts := rfl
@[simp] theorem Dev.modMxu_mesh (d : Dev) (s : SiteId) (f : Mxu → Mxu) : (d.modMxu s f).mesh = d.mesh := rfl
@[simp] theorem Dev.modMxu_claims (d : Dev) (s : SiteId) (f : Mxu → Mxu) : (d.modMxu s f).claims = d.claims := rfl
@[simp] theorem Dev.modMxu_seam (d : Dev) (s : SiteId) (f : Mxu → Mxu) : (d.modMxu s f).seam = d.seam := rfl
@[simp] theorem Dev.modMxu_car (d : Dev) (s : SiteId) (f : Mxu → Mxu) : (d.modMxu s f).car = d.car := rfl
@[simp] theorem Dev.modMxu_links (d : Dev) (s : SiteId) (f : Mxu → Mxu) : (d.modMxu s f).links = d.links := rfl
@[simp] theorem Dev.modMxu_fab (d : Dev) (s : SiteId) (f : Mxu → Mxu) : (d.modMxu s f).fab = d.fab := rfl
@[simp] theorem Dev.modMxu_host (d : Dev) (s : SiteId) (f : Mxu → Mxu) : (d.modMxu s f).host = d.host := rfl
@[simp] theorem Dev.modMxu_mbs (d : Dev) (s : SiteId) (f : Mxu → Mxu) : (d.modMxu s f).mbs = d.mbs := rfl
@[simp] theorem Dev.modMxu_owner (d : Dev) (s : SiteId) (f : Mxu → Mxu) : (d.modMxu s f).owner = d.owner := rfl
@[simp] theorem Dev.modMxu_fabMbs (d : Dev) (s : SiteId) (f : Mxu → Mxu) : (d.modMxu s f).fabMbs = d.fabMbs := rfl
@[simp] theorem Dev.modMxu_rings (d : Dev) (s : SiteId) (f : Mxu → Mxu) : (d.modMxu s f).rings = d.rings := rfl
@[simp] theorem Dev.modMxu_ops (d : Dev) (s : SiteId) (f : Mxu → Mxu) : (d.modMxu s f).ops = d.ops := rfl
@[simp] theorem Dev.modMxu_copies (d : Dev) (s : SiteId) (f : Mxu → Mxu) : (d.modMxu s f).copies = d.copies := rfl
@[simp] theorem Dev.modMxu_pads (d : Dev) (s : SiteId) (f : Mxu → Mxu) : (d.modMxu s f).pads = d.pads := rfl
@[simp] theorem Dev.modMxu_seals (d : Dev) (s : SiteId) (f : Mxu → Mxu) : (d.modMxu s f).seals = d.seals := rfl
@[simp] theorem Dev.modMxu_sessions (d : Dev) (s : SiteId) (f : Mxu → Mxu) : (d.modMxu s f).sessions = d.sessions := rfl
@[simp] theorem Dev.modMxu_digests (d : Dev) (s : SiteId) (f : Mxu → Mxu) : (d.modMxu s f).digests = d.digests := rfl
@[simp] theorem Dev.modMxu_seqs (d : Dev) (s : SiteId) (f : Mxu → Mxu) : (d.modMxu s f).seqs = d.seqs := rfl
@[simp] theorem Dev.modMxu_accounts (d : Dev) (s : SiteId) (f : Mxu → Mxu) : (d.modMxu s f).accounts = d.accounts := rfl
@[simp] theorem Dev.modMxu_beats (d : Dev) (s : SiteId) (f : Mxu → Mxu) : (d.modMxu s f).beats = d.beats := rfl
@[simp] theorem Dev.modMxu_ym (d : Dev) (s : SiteId) (f : Mxu → Mxu) : (d.modMxu s f).ym = d.ym := rfl
@[simp] theorem Dev.modMxu_loads (d : Dev) (s : SiteId) (f : Mxu → Mxu) : (d.modMxu s f).loads = d.loads := rfl
@[simp] theorem Dev.modMxu_hitch (d : Dev) (s : SiteId) (f : Mxu → Mxu) : (d.modMxu s f).hitch = d.hitch := rfl
@[simp] theorem Dev.modMxu_hitchFormed (d : Dev) (s : SiteId) (f : Mxu → Mxu) : (d.modMxu s f).hitchFormed = d.hitchFormed := rfl
@[simp] theorem Dev.modMxu_hitchFailed (d : Dev) (s : SiteId) (f : Mxu → Mxu) : (d.modMxu s f).hitchFailed = d.hitchFailed := rfl
@[simp] theorem Dev.modMxu_staging (d : Dev) (s : SiteId) (f : Mxu → Mxu) : (d.modMxu s f).staging = d.staging := rfl
@[simp] theorem Dev.modMxu_staged (d : Dev) (s : SiteId) (f : Mxu → Mxu) : (d.modMxu s f).staged = d.staged := rfl
@[simp] theorem Dev.modMxu_rebuild (d : Dev) (s : SiteId) (f : Mxu → Mxu) : (d.modMxu s f).rebuild = d.rebuild := rfl

@[simp] theorem Dev.modMsu_repairs (d : Dev) (s : SiteId) (m : MsuId) (f : Msu → Msu) : (d.modMsu s m f).repairs = d.repairs := rfl
@[simp] theorem Dev.modMsu_rowSpares (d : Dev) (s : SiteId) (m : MsuId) (f : Msu → Msu) : (d.modMsu s m f).rowSpares = d.rowSpares := rfl
@[simp] theorem Dev.modMsu_stage (d : Dev) (s : SiteId) (m : MsuId) (f : Msu → Msu) : (d.modMsu s m f).stage = d.stage := rfl
@[simp] theorem Dev.modMsu_clk (d : Dev) (s : SiteId) (m : MsuId) (f : Msu → Msu) : (d.modMsu s m f).clk = d.clk := rfl
@[simp] theorem Dev.modMsu_freeCtr (d : Dev) (s : SiteId) (m : MsuId) (f : Msu → Msu) : (d.modMsu s m f).freeCtr = d.freeCtr := rfl
@[simp] theorem Dev.modMsu_readout (d : Dev) (s : SiteId) (m : MsuId) (f : Msu → Msu) : (d.modMsu s m f).readout = d.readout := rfl
@[simp] theorem Dev.modMsu_tested (d : Dev) (s : SiteId) (m : MsuId) (f : Msu → Msu) : (d.modMsu s m f).tested = d.tested := rfl
@[simp] theorem Dev.modMsu_entropyOk (d : Dev) (s : SiteId) (m : MsuId) (f : Msu → Msu) : (d.modMsu s m f).entropyOk = d.entropyOk := rfl
@[simp] theorem Dev.modMsu_strap (d : Dev) (s : SiteId) (m : MsuId) (f : Msu → Msu) : (d.modMsu s m f).strap = d.strap := rfl
@[simp] theorem Dev.modMsu_settings (d : Dev) (s : SiteId) (m : MsuId) (f : Msu → Msu) : (d.modMsu s m f).settings = d.settings := rfl
@[simp] theorem Dev.modMsu_trustBad (d : Dev) (s : SiteId) (m : MsuId) (f : Msu → Msu) : (d.modMsu s m f).trustBad = d.trustBad := rfl
@[simp] theorem Dev.modMsu_alerts (d : Dev) (s : SiteId) (m : MsuId) (f : Msu → Msu) : (d.modMsu s m f).alerts = d.alerts := rfl
@[simp] theorem Dev.modMsu_replaceN (d : Dev) (s : SiteId) (m : MsuId) (f : Msu → Msu) : (d.modMsu s m f).replaceN = d.replaceN := rfl
@[simp] theorem Dev.modMsu_i3cAddr (d : Dev) (s : SiteId) (m : MsuId) (f : Msu → Msu) : (d.modMsu s m f).i3cAddr = d.i3cAddr := rfl
@[simp] theorem Dev.modMsu_kinds (d : Dev) (s : SiteId) (m : MsuId) (f : Msu → Msu) : (d.modMsu s m f).kinds = d.kinds := rfl
@[simp] theorem Dev.modMsu_lofts (d : Dev) (s : SiteId) (m : MsuId) (f : Msu → Msu) : (d.modMsu s m f).lofts = d.lofts := rfl
@[simp] theorem Dev.modMsu_mesh (d : Dev) (s : SiteId) (m : MsuId) (f : Msu → Msu) : (d.modMsu s m f).mesh = d.mesh := rfl
@[simp] theorem Dev.modMsu_claims (d : Dev) (s : SiteId) (m : MsuId) (f : Msu → Msu) : (d.modMsu s m f).claims = d.claims := rfl
@[simp] theorem Dev.modMsu_seam (d : Dev) (s : SiteId) (m : MsuId) (f : Msu → Msu) : (d.modMsu s m f).seam = d.seam := rfl
@[simp] theorem Dev.modMsu_car (d : Dev) (s : SiteId) (m : MsuId) (f : Msu → Msu) : (d.modMsu s m f).car = d.car := rfl
@[simp] theorem Dev.modMsu_links (d : Dev) (s : SiteId) (m : MsuId) (f : Msu → Msu) : (d.modMsu s m f).links = d.links := rfl
@[simp] theorem Dev.modMsu_fab (d : Dev) (s : SiteId) (m : MsuId) (f : Msu → Msu) : (d.modMsu s m f).fab = d.fab := rfl
@[simp] theorem Dev.modMsu_host (d : Dev) (s : SiteId) (m : MsuId) (f : Msu → Msu) : (d.modMsu s m f).host = d.host := rfl
@[simp] theorem Dev.modMsu_mbs (d : Dev) (s : SiteId) (m : MsuId) (f : Msu → Msu) : (d.modMsu s m f).mbs = d.mbs := rfl
@[simp] theorem Dev.modMsu_owner (d : Dev) (s : SiteId) (m : MsuId) (f : Msu → Msu) : (d.modMsu s m f).owner = d.owner := rfl
@[simp] theorem Dev.modMsu_fabMbs (d : Dev) (s : SiteId) (m : MsuId) (f : Msu → Msu) : (d.modMsu s m f).fabMbs = d.fabMbs := rfl
@[simp] theorem Dev.modMsu_rings (d : Dev) (s : SiteId) (m : MsuId) (f : Msu → Msu) : (d.modMsu s m f).rings = d.rings := rfl
@[simp] theorem Dev.modMsu_ops (d : Dev) (s : SiteId) (m : MsuId) (f : Msu → Msu) : (d.modMsu s m f).ops = d.ops := rfl
@[simp] theorem Dev.modMsu_copies (d : Dev) (s : SiteId) (m : MsuId) (f : Msu → Msu) : (d.modMsu s m f).copies = d.copies := rfl
@[simp] theorem Dev.modMsu_pads (d : Dev) (s : SiteId) (m : MsuId) (f : Msu → Msu) : (d.modMsu s m f).pads = d.pads := rfl
@[simp] theorem Dev.modMsu_seals (d : Dev) (s : SiteId) (m : MsuId) (f : Msu → Msu) : (d.modMsu s m f).seals = d.seals := rfl
@[simp] theorem Dev.modMsu_sessions (d : Dev) (s : SiteId) (m : MsuId) (f : Msu → Msu) : (d.modMsu s m f).sessions = d.sessions := rfl
@[simp] theorem Dev.modMsu_digests (d : Dev) (s : SiteId) (m : MsuId) (f : Msu → Msu) : (d.modMsu s m f).digests = d.digests := rfl
@[simp] theorem Dev.modMsu_seqs (d : Dev) (s : SiteId) (m : MsuId) (f : Msu → Msu) : (d.modMsu s m f).seqs = d.seqs := rfl
@[simp] theorem Dev.modMsu_accounts (d : Dev) (s : SiteId) (m : MsuId) (f : Msu → Msu) : (d.modMsu s m f).accounts = d.accounts := rfl
@[simp] theorem Dev.modMsu_beats (d : Dev) (s : SiteId) (m : MsuId) (f : Msu → Msu) : (d.modMsu s m f).beats = d.beats := rfl
@[simp] theorem Dev.modMsu_ym (d : Dev) (s : SiteId) (m : MsuId) (f : Msu → Msu) : (d.modMsu s m f).ym = d.ym := rfl
@[simp] theorem Dev.modMsu_loads (d : Dev) (s : SiteId) (m : MsuId) (f : Msu → Msu) : (d.modMsu s m f).loads = d.loads := rfl
@[simp] theorem Dev.modMsu_hitch (d : Dev) (s : SiteId) (m : MsuId) (f : Msu → Msu) : (d.modMsu s m f).hitch = d.hitch := rfl
@[simp] theorem Dev.modMsu_hitchFormed (d : Dev) (s : SiteId) (m : MsuId) (f : Msu → Msu) : (d.modMsu s m f).hitchFormed = d.hitchFormed := rfl
@[simp] theorem Dev.modMsu_hitchFailed (d : Dev) (s : SiteId) (m : MsuId) (f : Msu → Msu) : (d.modMsu s m f).hitchFailed = d.hitchFailed := rfl
@[simp] theorem Dev.modMsu_staging (d : Dev) (s : SiteId) (m : MsuId) (f : Msu → Msu) : (d.modMsu s m f).staging = d.staging := rfl
@[simp] theorem Dev.modMsu_staged (d : Dev) (s : SiteId) (m : MsuId) (f : Msu → Msu) : (d.modMsu s m f).staged = d.staged := rfl
@[simp] theorem Dev.modMsu_rebuild (d : Dev) (s : SiteId) (m : MsuId) (f : Msu → Msu) : (d.modMsu s m f).rebuild = d.rebuild := rfl

@[simp] theorem Dev.modCtl_repairs (d : Dev) (s : SiteId) (f : TileCtl → TileCtl) : (d.modCtl s f).repairs = d.repairs := rfl
@[simp] theorem Dev.modCtl_rowSpares (d : Dev) (s : SiteId) (f : TileCtl → TileCtl) : (d.modCtl s f).rowSpares = d.rowSpares := rfl
@[simp] theorem Dev.modCtl_stage (d : Dev) (s : SiteId) (f : TileCtl → TileCtl) : (d.modCtl s f).stage = d.stage := rfl
@[simp] theorem Dev.modCtl_clk (d : Dev) (s : SiteId) (f : TileCtl → TileCtl) : (d.modCtl s f).clk = d.clk := rfl
@[simp] theorem Dev.modCtl_freeCtr (d : Dev) (s : SiteId) (f : TileCtl → TileCtl) : (d.modCtl s f).freeCtr = d.freeCtr := rfl
@[simp] theorem Dev.modCtl_readout (d : Dev) (s : SiteId) (f : TileCtl → TileCtl) : (d.modCtl s f).readout = d.readout := rfl
@[simp] theorem Dev.modCtl_tested (d : Dev) (s : SiteId) (f : TileCtl → TileCtl) : (d.modCtl s f).tested = d.tested := rfl
@[simp] theorem Dev.modCtl_entropyOk (d : Dev) (s : SiteId) (f : TileCtl → TileCtl) : (d.modCtl s f).entropyOk = d.entropyOk := rfl
@[simp] theorem Dev.modCtl_strap (d : Dev) (s : SiteId) (f : TileCtl → TileCtl) : (d.modCtl s f).strap = d.strap := rfl
@[simp] theorem Dev.modCtl_settings (d : Dev) (s : SiteId) (f : TileCtl → TileCtl) : (d.modCtl s f).settings = d.settings := rfl
@[simp] theorem Dev.modCtl_trustBad (d : Dev) (s : SiteId) (f : TileCtl → TileCtl) : (d.modCtl s f).trustBad = d.trustBad := rfl
@[simp] theorem Dev.modCtl_alerts (d : Dev) (s : SiteId) (f : TileCtl → TileCtl) : (d.modCtl s f).alerts = d.alerts := rfl
@[simp] theorem Dev.modCtl_replaceN (d : Dev) (s : SiteId) (f : TileCtl → TileCtl) : (d.modCtl s f).replaceN = d.replaceN := rfl
@[simp] theorem Dev.modCtl_i3cAddr (d : Dev) (s : SiteId) (f : TileCtl → TileCtl) : (d.modCtl s f).i3cAddr = d.i3cAddr := rfl
@[simp] theorem Dev.modCtl_kinds (d : Dev) (s : SiteId) (f : TileCtl → TileCtl) : (d.modCtl s f).kinds = d.kinds := rfl
@[simp] theorem Dev.modCtl_lofts (d : Dev) (s : SiteId) (f : TileCtl → TileCtl) : (d.modCtl s f).lofts = d.lofts := rfl
@[simp] theorem Dev.modCtl_mesh (d : Dev) (s : SiteId) (f : TileCtl → TileCtl) : (d.modCtl s f).mesh = d.mesh := rfl
@[simp] theorem Dev.modCtl_claims (d : Dev) (s : SiteId) (f : TileCtl → TileCtl) : (d.modCtl s f).claims = d.claims := rfl
@[simp] theorem Dev.modCtl_seam (d : Dev) (s : SiteId) (f : TileCtl → TileCtl) : (d.modCtl s f).seam = d.seam := rfl
@[simp] theorem Dev.modCtl_car (d : Dev) (s : SiteId) (f : TileCtl → TileCtl) : (d.modCtl s f).car = d.car := rfl
@[simp] theorem Dev.modCtl_links (d : Dev) (s : SiteId) (f : TileCtl → TileCtl) : (d.modCtl s f).links = d.links := rfl
@[simp] theorem Dev.modCtl_fab (d : Dev) (s : SiteId) (f : TileCtl → TileCtl) : (d.modCtl s f).fab = d.fab := rfl
@[simp] theorem Dev.modCtl_host (d : Dev) (s : SiteId) (f : TileCtl → TileCtl) : (d.modCtl s f).host = d.host := rfl
@[simp] theorem Dev.modCtl_mbs (d : Dev) (s : SiteId) (f : TileCtl → TileCtl) : (d.modCtl s f).mbs = d.mbs := rfl
@[simp] theorem Dev.modCtl_owner (d : Dev) (s : SiteId) (f : TileCtl → TileCtl) : (d.modCtl s f).owner = d.owner := rfl
@[simp] theorem Dev.modCtl_fabMbs (d : Dev) (s : SiteId) (f : TileCtl → TileCtl) : (d.modCtl s f).fabMbs = d.fabMbs := rfl
@[simp] theorem Dev.modCtl_rings (d : Dev) (s : SiteId) (f : TileCtl → TileCtl) : (d.modCtl s f).rings = d.rings := rfl
@[simp] theorem Dev.modCtl_ops (d : Dev) (s : SiteId) (f : TileCtl → TileCtl) : (d.modCtl s f).ops = d.ops := rfl
@[simp] theorem Dev.modCtl_copies (d : Dev) (s : SiteId) (f : TileCtl → TileCtl) : (d.modCtl s f).copies = d.copies := rfl
@[simp] theorem Dev.modCtl_pads (d : Dev) (s : SiteId) (f : TileCtl → TileCtl) : (d.modCtl s f).pads = d.pads := rfl
@[simp] theorem Dev.modCtl_seals (d : Dev) (s : SiteId) (f : TileCtl → TileCtl) : (d.modCtl s f).seals = d.seals := rfl
@[simp] theorem Dev.modCtl_sessions (d : Dev) (s : SiteId) (f : TileCtl → TileCtl) : (d.modCtl s f).sessions = d.sessions := rfl
@[simp] theorem Dev.modCtl_digests (d : Dev) (s : SiteId) (f : TileCtl → TileCtl) : (d.modCtl s f).digests = d.digests := rfl
@[simp] theorem Dev.modCtl_seqs (d : Dev) (s : SiteId) (f : TileCtl → TileCtl) : (d.modCtl s f).seqs = d.seqs := rfl
@[simp] theorem Dev.modCtl_accounts (d : Dev) (s : SiteId) (f : TileCtl → TileCtl) : (d.modCtl s f).accounts = d.accounts := rfl
@[simp] theorem Dev.modCtl_beats (d : Dev) (s : SiteId) (f : TileCtl → TileCtl) : (d.modCtl s f).beats = d.beats := rfl
@[simp] theorem Dev.modCtl_ym (d : Dev) (s : SiteId) (f : TileCtl → TileCtl) : (d.modCtl s f).ym = d.ym := rfl
@[simp] theorem Dev.modCtl_loads (d : Dev) (s : SiteId) (f : TileCtl → TileCtl) : (d.modCtl s f).loads = d.loads := rfl
@[simp] theorem Dev.modCtl_hitch (d : Dev) (s : SiteId) (f : TileCtl → TileCtl) : (d.modCtl s f).hitch = d.hitch := rfl
@[simp] theorem Dev.modCtl_hitchFormed (d : Dev) (s : SiteId) (f : TileCtl → TileCtl) : (d.modCtl s f).hitchFormed = d.hitchFormed := rfl
@[simp] theorem Dev.modCtl_hitchFailed (d : Dev) (s : SiteId) (f : TileCtl → TileCtl) : (d.modCtl s f).hitchFailed = d.hitchFailed := rfl
@[simp] theorem Dev.modCtl_staging (d : Dev) (s : SiteId) (f : TileCtl → TileCtl) : (d.modCtl s f).staging = d.staging := rfl
@[simp] theorem Dev.modCtl_staged (d : Dev) (s : SiteId) (f : TileCtl → TileCtl) : (d.modCtl s f).staged = d.staged := rfl
@[simp] theorem Dev.modCtl_rebuild (d : Dev) (s : SiteId) (f : TileCtl → TileCtl) : (d.modCtl s f).rebuild = d.rebuild := rfl

@[simp] theorem Dev.modSpad_repairs (d : Dev) (s : SiteId) (f : Spad → Spad) : (d.modSpad s f).repairs = d.repairs := rfl
@[simp] theorem Dev.modSpad_rowSpares (d : Dev) (s : SiteId) (f : Spad → Spad) : (d.modSpad s f).rowSpares = d.rowSpares := rfl
@[simp] theorem Dev.modSpad_stage (d : Dev) (s : SiteId) (f : Spad → Spad) : (d.modSpad s f).stage = d.stage := rfl
@[simp] theorem Dev.modSpad_clk (d : Dev) (s : SiteId) (f : Spad → Spad) : (d.modSpad s f).clk = d.clk := rfl
@[simp] theorem Dev.modSpad_freeCtr (d : Dev) (s : SiteId) (f : Spad → Spad) : (d.modSpad s f).freeCtr = d.freeCtr := rfl
@[simp] theorem Dev.modSpad_readout (d : Dev) (s : SiteId) (f : Spad → Spad) : (d.modSpad s f).readout = d.readout := rfl
@[simp] theorem Dev.modSpad_tested (d : Dev) (s : SiteId) (f : Spad → Spad) : (d.modSpad s f).tested = d.tested := rfl
@[simp] theorem Dev.modSpad_entropyOk (d : Dev) (s : SiteId) (f : Spad → Spad) : (d.modSpad s f).entropyOk = d.entropyOk := rfl
@[simp] theorem Dev.modSpad_strap (d : Dev) (s : SiteId) (f : Spad → Spad) : (d.modSpad s f).strap = d.strap := rfl
@[simp] theorem Dev.modSpad_settings (d : Dev) (s : SiteId) (f : Spad → Spad) : (d.modSpad s f).settings = d.settings := rfl
@[simp] theorem Dev.modSpad_trustBad (d : Dev) (s : SiteId) (f : Spad → Spad) : (d.modSpad s f).trustBad = d.trustBad := rfl
@[simp] theorem Dev.modSpad_alerts (d : Dev) (s : SiteId) (f : Spad → Spad) : (d.modSpad s f).alerts = d.alerts := rfl
@[simp] theorem Dev.modSpad_replaceN (d : Dev) (s : SiteId) (f : Spad → Spad) : (d.modSpad s f).replaceN = d.replaceN := rfl
@[simp] theorem Dev.modSpad_i3cAddr (d : Dev) (s : SiteId) (f : Spad → Spad) : (d.modSpad s f).i3cAddr = d.i3cAddr := rfl
@[simp] theorem Dev.modSpad_kinds (d : Dev) (s : SiteId) (f : Spad → Spad) : (d.modSpad s f).kinds = d.kinds := rfl
@[simp] theorem Dev.modSpad_lofts (d : Dev) (s : SiteId) (f : Spad → Spad) : (d.modSpad s f).lofts = d.lofts := rfl
@[simp] theorem Dev.modSpad_mesh (d : Dev) (s : SiteId) (f : Spad → Spad) : (d.modSpad s f).mesh = d.mesh := rfl
@[simp] theorem Dev.modSpad_claims (d : Dev) (s : SiteId) (f : Spad → Spad) : (d.modSpad s f).claims = d.claims := rfl
@[simp] theorem Dev.modSpad_seam (d : Dev) (s : SiteId) (f : Spad → Spad) : (d.modSpad s f).seam = d.seam := rfl
@[simp] theorem Dev.modSpad_car (d : Dev) (s : SiteId) (f : Spad → Spad) : (d.modSpad s f).car = d.car := rfl
@[simp] theorem Dev.modSpad_links (d : Dev) (s : SiteId) (f : Spad → Spad) : (d.modSpad s f).links = d.links := rfl
@[simp] theorem Dev.modSpad_fab (d : Dev) (s : SiteId) (f : Spad → Spad) : (d.modSpad s f).fab = d.fab := rfl
@[simp] theorem Dev.modSpad_host (d : Dev) (s : SiteId) (f : Spad → Spad) : (d.modSpad s f).host = d.host := rfl
@[simp] theorem Dev.modSpad_mbs (d : Dev) (s : SiteId) (f : Spad → Spad) : (d.modSpad s f).mbs = d.mbs := rfl
@[simp] theorem Dev.modSpad_owner (d : Dev) (s : SiteId) (f : Spad → Spad) : (d.modSpad s f).owner = d.owner := rfl
@[simp] theorem Dev.modSpad_fabMbs (d : Dev) (s : SiteId) (f : Spad → Spad) : (d.modSpad s f).fabMbs = d.fabMbs := rfl
@[simp] theorem Dev.modSpad_rings (d : Dev) (s : SiteId) (f : Spad → Spad) : (d.modSpad s f).rings = d.rings := rfl
@[simp] theorem Dev.modSpad_ops (d : Dev) (s : SiteId) (f : Spad → Spad) : (d.modSpad s f).ops = d.ops := rfl
@[simp] theorem Dev.modSpad_copies (d : Dev) (s : SiteId) (f : Spad → Spad) : (d.modSpad s f).copies = d.copies := rfl
@[simp] theorem Dev.modSpad_pads (d : Dev) (s : SiteId) (f : Spad → Spad) : (d.modSpad s f).pads = d.pads := rfl
@[simp] theorem Dev.modSpad_seals (d : Dev) (s : SiteId) (f : Spad → Spad) : (d.modSpad s f).seals = d.seals := rfl
@[simp] theorem Dev.modSpad_sessions (d : Dev) (s : SiteId) (f : Spad → Spad) : (d.modSpad s f).sessions = d.sessions := rfl
@[simp] theorem Dev.modSpad_digests (d : Dev) (s : SiteId) (f : Spad → Spad) : (d.modSpad s f).digests = d.digests := rfl
@[simp] theorem Dev.modSpad_seqs (d : Dev) (s : SiteId) (f : Spad → Spad) : (d.modSpad s f).seqs = d.seqs := rfl
@[simp] theorem Dev.modSpad_accounts (d : Dev) (s : SiteId) (f : Spad → Spad) : (d.modSpad s f).accounts = d.accounts := rfl
@[simp] theorem Dev.modSpad_beats (d : Dev) (s : SiteId) (f : Spad → Spad) : (d.modSpad s f).beats = d.beats := rfl
@[simp] theorem Dev.modSpad_ym (d : Dev) (s : SiteId) (f : Spad → Spad) : (d.modSpad s f).ym = d.ym := rfl
@[simp] theorem Dev.modSpad_loads (d : Dev) (s : SiteId) (f : Spad → Spad) : (d.modSpad s f).loads = d.loads := rfl
@[simp] theorem Dev.modSpad_hitch (d : Dev) (s : SiteId) (f : Spad → Spad) : (d.modSpad s f).hitch = d.hitch := rfl
@[simp] theorem Dev.modSpad_hitchFormed (d : Dev) (s : SiteId) (f : Spad → Spad) : (d.modSpad s f).hitchFormed = d.hitchFormed := rfl
@[simp] theorem Dev.modSpad_hitchFailed (d : Dev) (s : SiteId) (f : Spad → Spad) : (d.modSpad s f).hitchFailed = d.hitchFailed := rfl
@[simp] theorem Dev.modSpad_staging (d : Dev) (s : SiteId) (f : Spad → Spad) : (d.modSpad s f).staging = d.staging := rfl
@[simp] theorem Dev.modSpad_staged (d : Dev) (s : SiteId) (f : Spad → Spad) : (d.modSpad s f).staged = d.staged := rfl
@[simp] theorem Dev.modSpad_rebuild (d : Dev) (s : SiteId) (f : Spad → Spad) : (d.modSpad s f).rebuild = d.rebuild := rfl

/-! ### The element that an update changes -/

@[simp] theorem Dev.modTile_tile (d : Dev) (s : SiteId) (f : Tile → Tile) : (d.modTile s f).tile s = f (d.tile s) :=
  vmod_same d.tiles s f

theorem Dev.modTile_tile_ne (d : Dev) (s r : SiteId) (f : Tile → Tile) (h : r ≠ s) : (d.modTile s f).tile r = d.tile r :=
  vmod_other d.tiles s r f h

@[simp] theorem Dev.modLoft_loft (d : Dev) (l : SiteId) (f : Loft → Loft) : (d.modLoft l f).loft l = f (d.loft l) :=
  vmod_same d.lofts l f

theorem Dev.modLoft_loft_ne (d : Dev) (l r : SiteId) (f : Loft → Loft) (h : r ≠ l) : (d.modLoft l f).loft r = d.loft r :=
  vmod_other d.lofts l r f h

@[simp] theorem Dev.modLink_link (d : Dev) (n : LinkId) (f : Link → Link) : (d.modLink n f).link n = f (d.link n) :=
  vmod_same d.links n f

theorem Dev.modLink_link_ne (d : Dev) (n r : LinkId) (f : Link → Link) (h : r ≠ n) : (d.modLink n f).link r = d.link r :=
  vmod_other d.links n r f h

@[simp] theorem Dev.modOp_op (d : Dev) (i : Fin 64) (f : Op → Op) : (d.modOp i f).op i = f (d.op i) := vmod_same d.ops i f

theorem Dev.modOp_op_ne (d : Dev) (i j : Fin 64) (f : Op → Op) (h : j ≠ i) : (d.modOp i f).op j = d.op j :=
  vmod_other d.ops i j f h

@[simp] theorem Dev.modPad_pad (d : Dev) (k : PadId) (f : Paddock → Paddock) : (d.modPad k f).pad k = (d.pad k).map f :=
  vmod_same d.pads k _

theorem Dev.modPad_pad_ne (d : Dev) (k j : PadId) (f : Paddock → Paddock) (h : j ≠ k) : (d.modPad k f).pad j = d.pad j :=
  vmod_other d.pads k j _ h

@[simp] theorem Dev.modPos_pos (d : Dev) (s : SiteId) (p : PosId) (f : Pos → Pos) : (d.modPos s p f).pos s p = f (d.pos s p) := by
  simp [Dev.modPos, Dev.pos]

@[simp] theorem Dev.modCtx_ctx (d : Dev) (s : SiteId) (c : CtxId) (f : Ctx → Ctx) :
    ((d.modCtx s c f).tile s).ctxs[c] = f ((d.tile s).ctxs[c]) := by
  simp [Dev.modCtx]

@[simp] theorem Dev.modMsu_msu (d : Dev) (s : SiteId) (m : MsuId) (f : Msu → Msu) : (d.modMsu s m f).msu s m = f (d.msu s m) := by
  simp [Dev.modMsu, Dev.msu]

@[simp] theorem Dev.modMxu_mxu (d : Dev) (s : SiteId) (f : Mxu → Mxu) : ((d.modMxu s f).tile s).mxu = f (d.tile s).mxu := by
  simp [Dev.modMxu]

@[simp] theorem Dev.modCtl_ctl (d : Dev) (s : SiteId) (f : TileCtl → TileCtl) : ((d.modCtl s f).tile s).ctl = f (d.tile s).ctl := by
  simp [Dev.modCtl]

@[simp] theorem Dev.modSpad_spad (d : Dev) (s : SiteId) (f : Spad → Spad) : ((d.modSpad s f).tile s).spad = f (d.tile s).spad := by
  simp [Dev.modSpad]

@[simp] theorem Dev.modMb_mb (d : Dev) (n : MbId) (f : Mailbox → Mailbox) : (d.modMb n f).mbs[n] = f d.mbs[n] := vmod_same d.mbs n f

@[simp] theorem Dev.modCopy_copy (d : Dev) (i : Fin 16) (f : Copy → Copy) : (d.modCopy i f).copies[i] = f d.copies[i] :=
  vmod_same d.copies i f

end Sys2Proof.Machine
end

