-- ==== Sys2Proof/Laws/Ops.lean ====
section
/-!
SUPPORT. What the shared operations of the meanings do, said once: events, the device's updates composed, a step's
issue. A proof cites these and does not unfold the operation.
-/
namespace Sys2Proof.Machine

/-! ### Commands that act on the device alone -/

@[simp] theorem State.put_fuse (s : State) (d : Dev) : (s.put d).fuse = s.fuse := rfl
@[simp] theorem State.put_dev (s : State) (d : Dev) : (s.put d).dev = d := rfl
@[simp] theorem State.put_pending (s : State) (d : Dev) : (s.put d).pending = s.pending := rfl
@[simp] theorem State.put_self (s : State) : s.put s.dev = s := rfl

theorem onDev_next (s : State) (f : Fuse → Dev → Dev) : onDev s f = .next (s.put (f s.fuse s.dev)) := rfl

/-- An event whose condition holds has its effect. -/
theorem onEvent_holds {s : State} {en : Dev → Bool} (f : Fuse → Dev → Dev) (h : en s.dev = true) :
    onEvent s en f = .next (s.put (f s.fuse s.dev)) := by
  simp [onEvent, onDev, State.put, h]

/-- An event whose condition does not hold changes nothing. -/
theorem onEvent_fails {s : State} {en : Dev → Bool} (f : Fuse → Dev → Dev) (h : en s.dev = false) :
    onEvent s en f = .next s := by
  simp [onEvent, onDev, h]

/-- Whatever its condition, an event answers a next state with the fuses and the queue as before. -/
theorem onEvent_next (s : State) (en : Dev → Bool) (f : Fuse → Dev → Dev) :
    ∃ d, onEvent s en f = .next (s.put d) := ⟨_, rfl⟩

/-! ### Updates composed -/

theorem vmod_vmod {α : Type} {n : Nat} (v : Vector α n) (i : Fin n) (f g : α → α) :
    vmod (vmod v i f) i g = vmod v i fun x => g (f x) := by
  simp [vmod]

theorem Dev.modTile_modTile (d : Dev) (s : SiteId) (f g : Tile → Tile) :
    (d.modTile s f).modTile s g = d.modTile s fun t => g (f t) := by
  simp [Dev.modTile, vmod_vmod]

theorem Dev.modLoft_modLoft (d : Dev) (l : SiteId) (f g : Loft → Loft) :
    (d.modLoft l f).modLoft l g = d.modLoft l fun t => g (f t) := by
  simp [Dev.modLoft, vmod_vmod]

theorem Dev.modLink_modLink (d : Dev) (n : LinkId) (f g : Link → Link) :
    (d.modLink n f).modLink n g = d.modLink n fun t => g (f t) := by
  simp [Dev.modLink, vmod_vmod]

theorem Dev.modCtx_modCtx (d : Dev) (s : SiteId) (c : CtxId) (f g : Ctx → Ctx) :
    (d.modCtx s c f).modCtx s c g = d.modCtx s c fun x => g (f x) := by
  simp [Dev.modCtx, Dev.modTile_modTile, vmod_vmod]

/-- An update depends only on what it makes of the element that stands there. -/
theorem vmod_congr {α : Type} {n : Nat} (v : Vector α n) (i : Fin n) {f g : α → α} (h : f v[i] = g v[i]) :
    vmod v i f = vmod v i g := by
  simp only [vmod, h]

theorem vmod_keeps {α : Type} {n : Nat} (v : Vector α n) (i : Fin n) {f : α → α} (h : f v[i] = v[i]) :
    vmod v i f = v := by
  simp only [vmod, h]
  simp

theorem Dev.modTile_congr (d : Dev) (s : SiteId) {f g : Tile → Tile} (h : f (d.tile s) = g (d.tile s)) :
    d.modTile s f = d.modTile s g := by
  simp only [Dev.modTile]
  rw [vmod_congr _ _ (show f d.tiles[s] = g d.tiles[s] from h)]

theorem Dev.modTile_keeps (d : Dev) (s : SiteId) {f : Tile → Tile} (h : f (d.tile s) = d.tile s) :
    d.modTile s f = d := by
  simp only [Dev.modTile]
  rw [vmod_keeps _ _ (show f d.tiles[s] = d.tiles[s] from h)]

theorem Dev.modLoft_congr (d : Dev) (l : SiteId) {f g : Loft → Loft} (h : f (d.loft l) = g (d.loft l)) :
    d.modLoft l f = d.modLoft l g := by
  simp only [Dev.modLoft]
  rw [vmod_congr _ _ (show f d.lofts[l] = g d.lofts[l] from h)]

theorem Dev.modLink_congr (d : Dev) (n : LinkId) {f g : Link → Link} (h : f (d.link n) = g (d.link n)) :
    d.modLink n f = d.modLink n g := by
  simp only [Dev.modLink]
  rw [vmod_congr _ _ (show f d.links[n] = g d.links[n] from h)]

theorem Dev.modCtx_congr (d : Dev) (s : SiteId) (c : CtxId) {f g : Ctx → Ctx}
    (h : f ((d.tile s).ctxs[c]) = g ((d.tile s).ctxs[c])) : d.modCtx s c f = d.modCtx s c g := by
  refine Dev.modTile_congr d s ?_
  simp only [vmod_congr _ _ h]

/-! ### A step's issue slot -/

/-- Counting a fixed event touches the tile's counters only. -/
theorem Dev.countFixed_tile (d : Dev) (s : SiteId) (n v : Nat) :
    ∃ p, d.countFixed s n v = d.modTile s fun t => { t with pmc := p } := by
  unfold Dev.countFixed
  split
  · exact ⟨_, Dev.modTile_congr d s rfl⟩
  · exact ⟨(d.tile s).pmc, (Dev.modTile_keeps d s rfl).symm⟩

/-- The issue of a step touches, in its tile, the issue memory, the context's count of slots and the counters only. -/
theorem Dev.issued_only (d : Dev) (s : SiteId) (c : CtxId) :
    ∃ p, d.issued s c = d.modTile s fun t => { t with
      lastCtx := c.val, lastIssue := some d.now, ctxs := vmod t.ctxs c fun x => { x with slots := 0 }, pmc := p } := by
  obtain ⟨p, hp⟩ := Dev.countFixed_tile
    ((d.modTile s fun t => { t with lastCtx := c.val, lastIssue := some d.now }).modCtx s c fun x => { x with slots := 0 })
    s 6 (if 2 ≤ c.val then 1 else 0)
  exact ⟨p, by rw [Dev.issued, Dev.slotFor, hp, Dev.modCtx, Dev.modTile_modTile, Dev.modTile_modTile]⟩

/-- The tile as a step's effect finds it: all but the issue memory, the count of slots and the counters as before. -/
theorem Dev.issued_tile (d : Dev) (s : SiteId) (c : CtxId) :
    ∃ p, (d.issued s c).tile s = { d.tile s with
      lastCtx := c.val, lastIssue := some d.now, ctxs := vmod (d.tile s).ctxs c fun x => { x with slots := 0 }, pmc := p } := by
  obtain ⟨p, hp⟩ := Dev.issued_only d s c
  exact ⟨p, by rw [hp, Dev.modTile_tile]⟩

@[simp] theorem Dev.issued_ctxs (d : Dev) (s : SiteId) (c : CtxId) :
    ((d.issued s c).tile s).ctxs = vmod (d.tile s).ctxs c fun x => { x with slots := 0 } := by
  obtain ⟨p, hp⟩ := Dev.issued_tile d s c
  rw [hp]

/-- A step whose context issues has its effect on the device in which the issue slot is taken. -/
theorem onStep_holds {s : SiteId} {c : CtxId} {op : Nat} {st : State} (f : Nat → Dev → Dev)
    (h : stepEnabled s c op st.dev = true) :
    onStep s c op f st = .next (st.put (f ((st.dev.tile s).curStep c) (st.dev.issued s c))) :=
  onEvent_holds _ h

end Sys2Proof.Machine
end

