-- ==== Sys2Proof/Laws/Cmd.lean ====
section
/-!
SUPPORT. What a row of R427 does, said once: it waits for its command, and an accepted command is performed and answered.
-/
namespace Sys2Proof.Machine

theorem onBoth_holds {s : State} {en : Dev → Bool} (f : Fuse → Dev → Fuse × Dev) (h : en s.dev = true) :
    onBoth s en f = .next { s with fuse := (f s.fuse s.dev).1, dev := (f s.fuse s.dev).2 } := by
  simp [onBoth, h]

theorem onBoth_fails {s : State} {en : Dev → Bool} (f : Fuse → Dev → Fuse × Dev) (h : en s.dev = false) :
    onBoth s en f = .next s := by
  simp [onBoth, h]

/-- An event leaves the fuses alone. -/
theorem onEvent_fuse {s t : State} {en : Dev → Bool} {f : Fuse → Dev → Dev} (h : onEvent s en f = .next t) :
    t.fuse = s.fuse := by
  cases h; rfl

/-- No check fails where each of them holds. -/
theorem firstBad_none {l : List (Bool × Nat)} : firstBad l = none ↔ ∀ x ∈ l, x.1 = true := by
  simp [firstBad]

theorem firstBad_append (a b : List (Bool × Nat)) : firstBad (a ++ b) = (firstBad a).or (firstBad b) := by
  cases h : a.find? (fun x => !x.1) <;> simp [firstBad, List.find?_append, h]

/-- An accepted command without a hardware error is performed. -/
theorem Cmd.answer_accepted {c : Cmd} {port : Port} {s : State} (h : c.Accepted port s) :
    c.answer (s.env port) false = c.run (c.woken (s.env port)) := by
  have h1 : firstBad (c.entry (s.env port) ++ c.checks (s.env port) ++ [(!false, stDevice)]) = none := by
    rw [firstBad_none]
    intro x hx
    rcases List.mem_append.mp hx with hx | hx
    · exact h.2.1 x hx
    · simp at hx; simp [hx]
  have h2 : firstBad (c.checks (c.woken (s.env port))) = none := firstBad_none.mpr h.2.2
  simp only [Cmd.answer, h1, h2]

/-- An accepted command: fuses and device are those of its execution, once the tiles that it needs are awake, and its answer
leaves under the session's tag. -/
theorem Cmd.exec_accepted {c : Cmd} {port : Port} {s : State} (h : c.Accepted port s) :
    c.exec port false s = .next (s.answered port (c.run (c.woken (s.env port))).1 (c.run (c.woken (s.env port))).2.1
      (c.run (c.woken (s.env port))).2.2) := by
  have hn : firstBad (c.entry (s.env port)) = none :=
    firstBad_none.mpr fun x hx => h.2.1 x (List.mem_append_left _ hx)
  have hp : c.perform port false s.fuse s.dev =
      ((c.run (c.woken (s.env port))).1,
        (((c.run (c.woken (s.env port))).2.1.countCmd (s.env port).sess (c.run (c.woken (s.env port))).2.2.status).respond
          port ((s.env port).reply (c.run (c.woken (s.env port))).2.2 true))) := by
    have ha := Cmd.answer_accepted h
    unfold Cmd.perform
    simp only [State.env] at *
    rw [ha, hn]
    rfl
  unfold Cmd.exec
  rw [onBoth_holds _ h.1, hp]
  rfl

/-- A command that does not wait for the row leaves everything as it is. -/
theorem Cmd.exec_idle {c : Cmd} {port : Port} {hw : Bool} {s : State} (h : c.waits port s.dev = false) :
    c.exec port hw s = .next s :=
  onBoth_fails _ h

/-! ### Fuses -/

theorem Fuse.Onward.refl (a : Fuse) : a.Onward a := by simp [Fuse.Onward]

end Sys2Proof.Machine
end

