-- ==== Sys2Proof/Laws/Mesh.lean ====
section
/-!
SUPPORT. What entering the mesh leaves as it was: a packet that is launched changes the mesh and the input link of its first router;
whatever a launch keeps, the packets that carry traffic keep.
-/
namespace Sys2Proof.Machine

/-- A launch changes the mesh and the input link of the packet's first router. -/
theorem Dev.launch_only (d : Dev) (p : MeshPkt) : ∃ r m,
    d.launch p = { d with mesh := m, meshIn := r } :=
  ⟨_, _, rfl⟩

/-- What no launch changes, carrying does not change. -/
theorem Dev.carry_keeps {α : Type} (f : Dev → α) (h : ∀ d p, f (Dev.launch d p) = f d) (d : Dev) (a b : MeshEnd) (vc : Fin 4)
    (prio : Bool) (pad : Option PadId) (n : Nat) : f (d.carry a b vc prio pad n) = f d := by
  have fold (l : List Nat) (g : Nat → MeshPkt) (d : Dev) : f (l.foldl (fun d i => d.launch (g i)) d) = f d := by
    induction l generalizing d with
    | nil => rfl
    | cons i l ih => exact (ih _).trans (h _ _)
  unfold Dev.carry
  split
  · exact h _ _
  · exact fold _ _ _

@[simp] theorem Dev.carry_links (d : Dev) (a b : MeshEnd) (vc : Fin 4) (prio : Bool) (pad : Option PadId) (n : Nat) :
    (d.carry a b vc prio pad n).links = d.links := Dev.carry_keeps (·.links) (fun _ _ => rfl) d a b vc prio pad n

@[simp] theorem Dev.carry_fab (d : Dev) (a b : MeshEnd) (vc : Fin 4) (prio : Bool) (pad : Option PadId) (n : Nat) :
    (d.carry a b vc prio pad n).fab = d.fab := Dev.carry_keeps (·.fab) (fun _ _ => rfl) d a b vc prio pad n

@[simp] theorem Dev.carry_lofts (d : Dev) (a b : MeshEnd) (vc : Fin 4) (prio : Bool) (pad : Option PadId) (n : Nat) :
    (d.carry a b vc prio pad n).lofts = d.lofts := Dev.carry_keeps (·.lofts) (fun _ _ => rfl) d a b vc prio pad n

@[simp] theorem Dev.carry_tiles (d : Dev) (a b : MeshEnd) (vc : Fin 4) (prio : Bool) (pad : Option PadId) (n : Nat) :
    (d.carry a b vc prio pad n).tiles = d.tiles := Dev.carry_keeps (·.tiles) (fun _ _ => rfl) d a b vc prio pad n

@[simp] theorem Dev.carry_clk (d : Dev) (a b : MeshEnd) (vc : Fin 4) (prio : Bool) (pad : Option PadId) (n : Nat) :
    (d.carry a b vc prio pad n).clk = d.clk := Dev.carry_keeps (·.clk) (fun _ _ => rfl) d a b vc prio pad n

/-- Carrying changes nothing beside the mesh. -/
theorem Dev.carry_only (d : Dev) (a b : MeshEnd) (vc : Fin 4) (prio : Bool) (pad : Option PadId) (n : Nat) : ∃ r m,
    d.carry a b vc prio pad n = { d with mesh := m, meshIn := r } := by
  have h := Dev.carry_keeps (fun e => { e with mesh := [], meshIn := Vector.replicate 48 (Vector.replicate 8 0) }) (fun _ _ => rfl)
    d a b vc prio pad n
  refine ⟨(d.carry a b vc prio pad n).meshIn, (d.carry a b vc prio pad n).mesh, ?_⟩
  generalize d.carry a b vc prio pad n = e at *
  cases e
  cases d
  simp_all

/-- Sending on a link changes no link. -/
@[simp] theorem Dev.sendOn_links (d : Dev) (n : LinkId) (p : OutPkt) : (d.sendOn n p).links = d.links := by
  simp [Dev.sendOn]

end Sys2Proof.Machine
end

