-- ==== Sys2Proof/Laws/Links.lean ====
section
/-!
SUPPORT. What the operations of the fabric leave of the links: sending on links, the election and the reports change no
link; the changes of a link's state change that link only.
-/
namespace Sys2Proof.Machine

theorem vmod_eq {α : Type} {n : Nat} (v : Vector α n) (i : Fin n) (f : α → α) : (vmod v i f)[i] = f v[i] := by
  simp [vmod]

theorem vmod_ne {α : Type} {n : Nat} (v : Vector α n) (i j : Fin n) (f : α → α) (h : j ≠ i) : (vmod v i f)[j] = v[j] := by
  have : (i : Nat) ≠ j := fun e => h (Fin.ext e.symm)
  simp [vmod, this]

/-- Posting, alerts and the summary of health touch neither links nor fabric. -/
theorem Dev.health_links (d : Dev) : d.health.links = d.links := by
  have h (d : Dev) : (if d.replaceNow &&& ~~~ d.ym.replace == 0#32 then d
      else
        let e := d.modYm fun y => { y with replace := y.replace ||| (d.replaceNow &&& ~~~ d.ym.replace) }
        let e := { e with replaceN := true }.alert alertReplace
        e.postDevice 0xE00D (payloadE 0 0xFF 0xFF 0xFF 0xFF e.ym.replace.toNat 0)).links = d.links := by
    split <;> rfl
  unfold Dev.health
  refine (h _).trans ?_
  split <;> rfl

theorem Dev.foldl_sendOn_links {α : Type} (l : List α) (d : Dev) (f : α → LinkId) (g : α → OutPkt) :
    (l.foldl (fun d n => d.sendOn (f n) (g n)) d).links = d.links := by
  induction l generalizing d with
  | nil => rfl
  | cons a l ih => simp only [List.foldl_cons]; rw [ih, Dev.sendOn_links]

theorem Dev.restartElection_links (d : Dev) (x : BitVec 64) : (d.restartElection x).links = d.links := by
  unfold Dev.restartElection
  dsimp only
  split
  · rw [Dev.foldl_sendOn_links]
  · rfl

theorem Dev.reportUp_links (d : Dev) (x : BitVec 64) : (d.reportUp x).links = d.links := by
  unfold Dev.reportUp
  split
  · split <;> simp
  · rfl

theorem Dev.onLinkLost_links (d : Dev) (x : BitVec 64) (n : LinkId) : (d.onLinkLost x n).links = d.links := by
  unfold Dev.onLinkLost
  simp only [Dev.reportUp_links]
  split
  · rw [Dev.restartElection_links]
  · rfl

theorem Dev.onLinkUp_links (d : Dev) (x : BitVec 64) (n : LinkId) : (d.onLinkUp x n).links = d.links := by
  unfold Dev.onLinkUp
  simp only [Dev.reportUp_links]
  split
  · rw [Dev.restartElection_links]; simp
  · split
    · split <;> simp
    · simp

theorem Dev.linkLeft_links (d : Dev) (fz : Fuse) (n : LinkId) (o : LinkState) : (d.linkLeft fz n o).links = d.links := by
  unfold Dev.linkLeft
  split
  · rw [Dev.onLinkLost_links]
  · rw [Dev.reportUp_links]

theorem Link.SameButFreed.trans {a b c : Link} (h : a.SameButFreed b) (g : b.SameButFreed c) : a.SameButFreed c := by
  unfold Link.SameButFreed at *
  rw [g, h]

/-- A link that starts anew is the same whatever it counts as freed. -/
theorem Link.SameButFreed.fresh {a b : Link} (h : a.SameButFreed b) (st : LinkState) (now : Nat) :
    b.fresh st now = a.fresh st now := by
  rw [h]; rfl

theorem Dev.freeOne_link (d : Dev) (i v : Nat) (m : LinkId) : (d.link m).SameButFreed ((d.freeOne i v).link m) := by
  unfold Dev.freeOne
  split
  · rename_i k _
    by_cases h : m = k
    · subst h; simp only [Dev.link, Dev.modLink, vmod_eq]; rfl
    · simp only [Dev.link, Dev.modLink, vmod_ne _ _ _ _ h]; rfl
  · rfl

theorem Dev.freeOnes_link (l : List TxFlit) (d : Dev) (m : LinkId) :
    (d.link m).SameButFreed ((l.foldl (fun d f => d.freeOne f.input f.inVc) d).link m) := by
  induction l generalizing d with
  | nil => rfl
  | cons f l ih => exact (Dev.freeOne_link d f.input f.inVc m).trans (ih _)

/-- What a link loses with its flits frees places in the buffers of other links, and changes them in nothing else. -/
theorem Dev.loseFlits_link (d : Dev) (n m : LinkId) : (d.link m).SameButFreed ((d.loseFlits n).link m) :=
  Dev.freeOnes_link (d.link n).txFlits d m

/-- A link that goes DOWN starts anew; another link changes at most in what it counts as freed. -/
theorem Dev.linkDown_link (d : Dev) (fz : Fuse) (n m : LinkId) :
    (m = n → (d.linkDown fz n).link m = (d.link n).fresh .down d.now) ∧
      (m ≠ n → (d.link m).SameButFreed ((d.linkDown fz n).link m)) := by
  have h : (d.linkDown fz n).links = vmod (d.loseFlits n).links n fun l => l.fresh .down d.now := by
    unfold Dev.linkDown
    rw [Dev.linkLeft_links]
    rfl
  refine ⟨?_, fun hm => ?_⟩
  · rintro rfl
    exact (congrArg (·[m]) h).trans ((vmod_eq _ _ _).trans ((Dev.loseFlits_link d m m).fresh _ _))
  · have e : (d.linkDown fz n).link m = (d.loseFlits n).link m := (congrArg (·[m]) h).trans (vmod_ne _ _ _ _ hm)
    rw [e]
    exact Dev.loseFlits_link d n m

/-- A link that is QUARANTINED starts anew; another link changes at most in what it counts as freed. -/
theorem Dev.quarantine_link (d : Dev) (fz : Fuse) (n m : LinkId) (code : Nat) :
    (m = n → (d.quarantine fz n code).link m = (d.link n).fresh .quarantined d.now) ∧
      (m ≠ n → (d.link m).SameButFreed ((d.quarantine fz n code).link m)) := by
  have h : (d.quarantine fz n code).links = vmod (d.loseFlits n).links n fun l => l.fresh .quarantined d.now := by
    unfold Dev.quarantine Dev.alert
    dsimp only
    rw [Dev.linkLeft_links]
    rfl
  refine ⟨?_, fun hm => ?_⟩
  · rintro rfl
    exact (congrArg (·[m]) h).trans ((vmod_eq _ _ _).trans ((Dev.loseFlits_link d m m).fresh _ _))
  · have e : (d.quarantine fz n code).link m = (d.loseFlits n).link m := (congrArg (·[m]) h).trans (vmod_ne _ _ _ _ hm)
    rw [e]
    exact Dev.loseFlits_link d n m

/-- A link that retrains keeps its numbers, keys, credits and replay buffer; no other link changes. -/
theorem Dev.retrain_links (d : Dev) (fz : Fuse) (n : LinkId) :
    (d.retrain fz n).links = vmod d.links n fun l => l.retraining d.now := by
  unfold Dev.retrain
  simp only [Dev.linkLeft_links]
  rfl

end Sys2Proof.Machine
end

