-- ==== Sys2Proof/Laws/Mem.lean ====
section
/-!
SUPPORT. Laws of the byte memories (R4): every operation keeps the canonical form, a byte written is the byte read, and
a write leaves every other address alone.
-/
namespace Sys2Proof.Machine

/-- The canonical form as a proposition: addresses strictly rise and no cell is zero. -/
theorem Mem.wf_iff (m : Mem) : Mem.wf m = true ↔ (∀ c ∈ m, c.2 ≠ 0#8) ∧ m.Pairwise fun c d => c.1 < d.1 := by
  simp [Mem.wf]

@[simp] theorem Mem.wf_nil : Mem.wf [] = true := by decide

theorem Mem.wf_cons (c : Host.Cell) (m : Mem) :
    Mem.wf (c :: m) = true ↔ c.2 ≠ 0#8 ∧ (∀ d ∈ m, c.1 < d.1) ∧ Mem.wf m = true := by
  simp only [Mem.wf_iff, List.pairwise_cons, List.forall_mem_cons]
  tauto

theorem Mem.mem_place (m : Mem) (x d : Host.Cell) : d ∈ Mem.place m x ↔ d = x ∨ d ∈ m := by
  induction m with
  | nil => simp [Mem.place]
  | cons c cs ih =>
    simp only [Mem.place]
    split
    · simp
    · simp only [List.mem_cons, ih]
      tauto

/-- A cell of a new address takes its place among cells in canonical form. -/
theorem Mem.wf_place (m : Mem) (x : Host.Cell) (hx : x.2 ≠ 0#8) (hn : ∀ c ∈ m, c.1 ≠ x.1) (h : Mem.wf m = true) :
    Mem.wf (Mem.place m x) = true := by
  induction m with
  | nil => exact (Mem.wf_cons x []).mpr ⟨hx, by simp, h⟩
  | cons c cs ih =>
    obtain ⟨hc, hlt, hwf⟩ := (Mem.wf_cons c cs).mp h
    have hcx := hn c (List.mem_cons_self ..)
    simp only [Mem.place]
    split
    · refine (Mem.wf_cons _ _).mpr ⟨hx, fun d hd => ?_, h⟩
      rcases List.mem_cons.mp hd with rfl | hd
      · assumption
      · exact Nat.lt_trans ‹_› (hlt d hd)
    · refine (Mem.wf_cons _ _).mpr ⟨hc, fun d hd => ?_, ih (fun d hd => hn d (List.mem_cons_of_mem c hd)) hwf⟩
      rcases (Mem.mem_place cs x d).mp hd with rfl | hd
      · omega
      · exact hlt d hd

/-- Dropping cells keeps the canonical form. -/
theorem Mem.wf_filter (m : Mem) (p : Host.Cell → Bool) (h : Mem.wf m = true) : Mem.wf (m.filter p) = true := by
  rw [Mem.wf_iff] at h ⊢
  exact ⟨fun c hc => h.1 c (List.mem_filter.mp hc).1, h.2.filter p⟩

theorem Mem.wf_clear (m : Mem) (a e : Nat) (h : Mem.wf m = true) : Mem.wf (Mem.clear m a e) = true := Mem.wf_filter m _ h

/-- Writing one byte keeps the canonical form. -/
theorem Mem.wf_write (m : Mem) (a : Nat) (b : Byte) (h : Mem.wf m = true) : Mem.wf (Mem.write m a b) = true := by
  simp only [Mem.write]
  split
  · exact Mem.wf_filter m _ h
  · exact Mem.wf_place _ _ ‹_› (by simp) (Mem.wf_filter m _ h)

theorem Mem.wf_writeN (bs : Bytes) : ∀ (m : Mem) (a : Nat), Mem.wf m = true → Mem.wf (Mem.writeN m a bs) = true := by
  induction bs with
  | nil => exact fun m a h => h
  | cons b bs ih => exact fun m a h => ih _ _ (Mem.wf_write m a b h)

theorem Mem.wf_writeMask (bs : List (Byte × Bool)) :
    ∀ (m : Mem) (a : Nat), Mem.wf m = true → Mem.wf (Mem.writeMask m a bs) = true := by
  induction bs with
  | nil => exact fun m a h => h
  | cons b bs ih =>
    intro m a h
    obtain ⟨v, e⟩ := b
    cases e
    · exact ih _ _ h
    · exact ih _ _ (Mem.wf_write m a v h)

/-- Cells that fail a test are not read. -/
theorem Mem.read_filter (m : Mem) (p : Host.Cell → Bool) (x : Nat) (h : ∀ b, p (x, b) = true) :
    Mem.read (m.filter p) x = Mem.read m x := by
  induction m with
  | nil => rfl
  | cons c cs ih =>
    by_cases hp : p c = true
    · rw [List.filter_cons_of_pos hp]
      by_cases hc : c.1 = x
      · simp [Mem.read, hc]
      · simpa [Mem.read, hc] using ih
    · rw [List.filter_cons_of_neg hp, ih]
      have hc : c.1 ≠ x := fun e => hp (by simpa [← e] using h c.2)
      simp [Mem.read, hc]

theorem Mem.read_absent (m : Mem) (x : Nat) (h : ∀ c ∈ m, c.1 ≠ x) : Mem.read m x = 0#8 := by
  have : m.find? (fun c => c.1 == x) = none := by simpa using h
  simp [Mem.read, this]

/-- A read looks at the first cell, then at the others. -/
theorem Mem.read_cons (c : Host.Cell) (m : Mem) (x : Nat) :
    Mem.read (c :: m) x = if c.1 = x then c.2 else Mem.read m x := by
  by_cases h : c.1 = x <;> simp [Mem.read, h]

theorem Mem.read_place (m : Mem) (a x : Nat) (b : Byte) (h : ∀ c ∈ m, c.1 ≠ a) :
    Mem.read (Mem.place m (a, b)) x = if a = x then b else Mem.read m x := by
  induction m with
  | nil => rw [Mem.place, Mem.read_cons]
  | cons c cs ih =>
    have hc := h c (List.mem_cons_self ..)
    have ih := ih fun d hd => h d (List.mem_cons_of_mem c hd)
    simp only [Mem.place]
    split
    · rw [Mem.read_cons]
    · rw [Mem.read_cons, ih, Mem.read_cons]
      by_cases hcx : c.1 = x
      · have : a ≠ x := fun e => hc (hcx.trans e.symm)
        simp [hcx, this]
      · simp [hcx]

/-- A byte written is the byte read, and a write leaves every other address alone. -/
theorem Mem.read_write (m : Mem) (a x : Nat) (b : Byte) :
    Mem.read (Mem.write m a b) x = if a = x then b else Mem.read m x := by
  simp only [Mem.write]
  by_cases hx : a = x
  · subst hx
    rw [if_pos rfl]
    split
    · rw [Mem.read_absent _ _ (by simp)]
      exact Eq.symm ‹_›
    · rw [Mem.read_place _ _ _ _ (by simp), if_pos rfl]
  · have hf : Mem.read (m.filter fun c => c.1 != a) x = Mem.read m x :=
      Mem.read_filter m _ x (by simpa using fun e : x = a => hx e.symm)
    rw [if_neg hx]
    split
    · exact hf
    · rw [Mem.read_place _ _ _ _ (by simp), if_neg hx, hf]

/-- A range cleared reads as zero, and every address outside it as before. -/
theorem Mem.read_clear (m : Mem) (a e x : Nat) :
    Mem.read (Mem.clear m a e) x = if a ≤ x ∧ x < e then 0#8 else Mem.read m x := by
  split
  · refine Mem.read_absent _ _ fun c hc => ?_
    have := (List.mem_filter.mp hc).2
    simp only [Bool.or_eq_true, decide_eq_true_eq] at this
    omega
  · refine Mem.read_filter m _ x fun b => ?_
    simp only [Bool.or_eq_true, decide_eq_true_eq]
    omega

/-- A byte string written at an address leaves every address outside it alone. -/
theorem Mem.read_writeN_outside (bs : Bytes) :
    ∀ (m : Mem) (a x : Nat), (x < a ∨ a + bs.length ≤ x) → Mem.read (Mem.writeN m a bs) x = Mem.read m x := by
  induction bs with
  | nil => exact fun m a x _ => rfl
  | cons b bs ih =>
    intro m a x hx
    simp only [List.length_cons] at hx
    rw [Mem.writeN, ih _ _ x (by omega), Mem.read_write, if_neg (by omega)]

/-- A byte string written at an address is read back there. -/
theorem Mem.read_writeN_inside (bs : Bytes) :
    ∀ (m : Mem) (a i : Nat), (hi : i < bs.length) → Mem.read (Mem.writeN m a bs) (a + i) = bs[i] := by
  induction bs with
  | nil => exact fun m a i hi => absurd hi (Nat.not_lt_zero i)
  | cons b bs ih =>
    intro m a i hi
    rw [Mem.writeN]
    cases i with
    | zero =>
      show Mem.read (Mem.writeN (Mem.write m a b) (a + 1) bs) a = b
      rw [Mem.read_writeN_outside bs (Mem.write m a b) (a + 1) a (by omega), Mem.read_write, if_pos rfl]
    | succ i =>
      have hi' : i < bs.length := by simpa using hi
      have := ih (Mem.write m a b) (a + 1) i hi'
      rw [show a + (i + 1) = a + 1 + i by omega, this]
      rfl

theorem Mem.readN_length (m : Mem) (a n : Nat) : (Mem.readN m a n).length = n := by simp [Mem.readN]

/-- Reading back a byte string that has been written. -/
theorem Mem.readN_writeN (m : Mem) (a : Nat) (bs : Bytes) : Mem.readN (Mem.writeN m a bs) a bs.length = bs := by
  apply List.ext_getElem
  · simp [Mem.readN]
  · intro i h1 h2
    simp only [Mem.readN, List.getElem_map, List.getElem_range]
    exact Mem.read_writeN_inside bs m a i h2

end Sys2Proof.Machine
end

