-- ==== Sys2Proof/WellFormed.lean ====
section
/-!
DEFINITION. Well-formed commands: the lengths and ranges that a command's sender cannot break, because the interface
itself fixes them (a host message's slots R397, a frame R340, handshake messages R347, the release of R423, the
triplicated word of R312). What a sender CAN get wrong is no matter of form: the device checks it and answers.
-/
namespace Sys2Proof

/-- The payload of a host message fills the slots its header announces (R397). -/
def HostHdr.carries (h : HostHdr) (data : Bytes) : Bool := data.length == h.len.toNat

/-- A fabric packet's operand area is 32 bytes, and LEN payload flits of 64 bytes follow (R366). -/
def FabPkt.formed (p : FabPkt) : Bool := p.operand.length == 32 && p.payload.length == 64 * p.len.toNat

/-- A frame carries nine 64-byte slots, five credit counts and a 16-byte tag (R340). -/
def Frame.formed (f : Frame) : Bool := f.slots.length == 576 && f.credit.length == 5 && f.tag.length == 16

/-- The command is one that its interface can carry. -/
def Instr.wellFormed : Instr → Bool
  | .ownerCommandWrite data => data.length ≤ 4096
  | .ownerResponseRelease data => data.length == 4
  | .winWrite _ h data => h.carries data
  | .copyWrite _ h data => h.carries data
  | .idleFrame _ f => f.formed
  | .dataFrame _ f => f.formed
  | .nakFrame _ f => f.formed
  | .controlFrame _ f => f.formed
  | .alignCodeword _ _ _ _ payload => payload.length == 640
  | .hello _ h => h.nonce.length == 32
  | .kemKey _ key => key.length == 1568
  | .kemCt _ ct => ct.length == 1568
  | .sig _ signature => signature.length == 1280
  | .finished _ c => c.length == 32
  | .rekeyKey _ key => key.length == 1568
  | .rekeyCt _ ct => ct.length == 1568
  | .packetSwitch _ p => p.formed
  | .fabLoad _ p _ => p.formed
  | .fabStore _ p => p.formed
  | .fabAtomic _ p _ => p.formed
  | .fabTreduce _ p _ => p.formed
  | .fabMessage _ p => p.formed
  | .fabLoadRsp _ p => p.formed
  | .fabAck _ p => p.formed
  | .fabAtomicRsp _ p => p.formed
  | .governorCheck r => r.junction.length == 48
  | .scrubberVote _ a b c => a < 2 ^ 124 && b < 2 ^ 124 && c < 2 ^ 124
  | .hitchLoadBegin _ jobId => jobId.length == 32
  | .windowZeroingComplete _ base => base < 2097152
  | _ => true

end Sys2Proof
end

