-- ==== Sys2Proof/Tests/Slice0.lean ====
section
/-!
SUPPORT. Tests: ill-formed commands refused, single steps checked against values worked out from the rules, and for
every statement with hypotheses a state that meets them.
-/
namespace Sys2Proof.Tests
open Sys2Proof.Machine

set_option Elab.async false

theorem test_reset_pending : State.reset.pending = [] := rfl

/-! ### Small devices -/

/-- The device after a command. -/
def after (i : Instr) (d : Dev) : Dev :=
  match exec i { dev := d } with
  | .next t => t.dev
  | _ => d

/-- A running paddock of one tile at site 0, with 64 KiB of loft 0. -/
def pad0 : Paddock :=
  { state := .running, owner := 1, tiles := [some 0], run := some 0, image := some {}, brand := 7#16,
    windows := [{ loft := 0, base4k := 0, size4k := 16 }] }

/-- Its tile: phase runs, bank 0 is active, context 2 is ready and has taken all but the last slot of its step. -/
def tile0 : Tile :=
  { ctl := { bound := some (0, 0), phaseState := 2#8, cfgBank := 0x08#8 }, power := 0#8,
    ctxs := (Vector.replicate 16 {}).set 2 { state := .ready, x := Vector.replicate 8 1#64, slots := 63 } }

/-- A device that is ready, with the paddock and its run. -/
def live : Dev :=
  { stage := .ready, clk := { nclk := 100, aclk := 200 }, tiles := (Vector.replicate 48 {}).set 0 tile0,
    pads := (Vector.replicate 16 none).set 0 (some pad0),
    ops := (Vector.replicate 64 {}).set 0 { held := true, mailbox := 1, typ := .run, state := .running, paddock := some 0 } }

/-- The tile's program is one step. -/
def withStep (w : BitVec 128) : Dev :=
  live.modTile 0 fun t => { t with banks := (Vector.replicate 2 {}).set 0 { steps := [w] } }

/-- Tile 1 of the paddock is at site 1. -/
def two (d : Dev) : Dev :=
  (d.modPad 0 fun p => { p with tiles := [some 0, some 1] }).modTile 1 fun _ =>
    { tile0 with ctl := { bound := some (0, 1), phaseState := 2#8, cfgBank := 0x08#8 } }

/-! ### Witnesses: steps of a program -/

theorem witness_RegisterStepsExact :
    stepEnabled 0 2 0x00 (withStep 0#128) = true ∧ stepEnabled 0 2 0x0B (withStep 0x0B#128) = true ∧
      stepEnabled 0 2 0x0C (withStep 0x0C#128) = true ∧ stepEnabled 0 2 0x0D (withStep 0x0D#128) = true ∧
      stepEnabled 0 2 0x0E (withStep 0x0E#128) = true := by decide

/-- A device whose program adds X[0] = 1 to the length of slot 0. -/
def seqDev (b : Option PadId) (n : Nat) : Dev :=
  { withStep 0x10#128 with seqs := (Vector.replicate 16 {}).set 0 { bound := b, length := n } }

theorem witness_RegisterStepsExact_seq :
    stepEnabled 0 2 0x10 (seqDev (some 0) 16777215) = true ∧ (seqDev (some 0) 16777215).padOf 0 = some 0 ∧
      stepEnabled 0 2 0x10 (seqDev (some 0) 16777216) = true ∧ stepEnabled 0 2 0x10 (seqDev (some 1) 0) = true ∧
      stepEnabled 0 2 0x10 (seqDev none 0) = true := by decide

theorem test_seq_advance_sum : ((after (.stepSeqAdvance 0 2) (seqDev (some 0) 16777215)).seqs[0]).length = 16777216 := by
  decide
theorem test_seq_advance_over : ((after (.stepSeqAdvance 0 2) (seqDev (some 0) 16777216)).seqs[0]).length = 16777216 := by
  decide

/-- A bell of the tile holds a count. -/
def bellDev (w : BitVec 128) (n : Word) : Dev := (withStep w).modTile 0 fun t => { t with bells := t.bells.set 0 n }

theorem witness_StepsThatWait_bell :
    stepEnabled 0 2 0x04 (bellDev (0x04#128 ||| 5#128 <<< 32) 5#32) = true ∧
      stepEnabled 0 2 0x04 (bellDev (0x04#128 ||| 5#128 <<< 32) 4#32) = true := by decide

theorem test_wait_bell_takes :
    ((after (.stepWaitBell 0 2) (bellDev (0x04#128 ||| 5#128 <<< 32) 6#32)).tile 0).bells[0] = 1#32 := by decide

/-- A queue of the tile holds one entry. -/
def queueDev (w : BitVec 128) : Dev :=
  (withStep w).modTile 0 fun t => { t with queues := t.queues.set 0 { entries := [[1#8, 2#8]] } }

theorem witness_StepsThatWait_recv :
    (stepEnabled 0 2 0x07 (withStep 0x07#128) = true ∧ (((withStep 0x07#128).tile 0).queues[0]).entries.length = 0) ∧
      (stepEnabled 0 2 0x07 (queueDev 0x07#128) = true ∧ (((queueDev 0x07#128).tile 0).queues[0]).entries[0]? = some [1#8, 2#8]) := by
  decide

theorem test_recv_fills :
    ((after (.stepRecv 0 2) (queueDev 0x07#128)).tile 0).core.map (fun j => (j.bytes.take 3, j.len)) = [([1#8, 2#8, 0#8], 64)] := by
  decide

/-- Channel 0 stands in a state. -/
def chanDev (c : ChanState) : Dev :=
  (withStep 0x06#128).modTile 0 fun t => { t with chans := t.chans.set 0 { cfg := 0x01#64, state := c } }

theorem witness_StepsThatWait_send :
    stepEnabled 0 2 0x06 (chanDev .stuck) = true ∧ ((chanDev .stuck).tile 0).chanFree 0 = false ∧
      stepEnabled 0 2 0x06 (chanDev .idle) = true ∧ ((chanDev .idle).tile 0).chanFree 0 = true := by decide

theorem witness_StepsThatWait_end :
    stepEnabled 0 2 0x1F (withStep 0x1F#128) = true ∧
      stepEnabled 0 2 0x1F ((withStep 0x1F#128).modCtx 0 2 fun x => { x with msgs := 1 }) = true := by decide

theorem test_end_owes :
    (((after (.stepEnd 0 2) ((withStep 0x1F#128).modCtx 0 2 fun x => { x with msgs := 1 })).tile 0).ctxs[2]).wait = .acks := by
  decide

/-! ### Witnesses: what leaves a tile, ISSUE, PLAN, the matrix unit's queue -/

theorem witness_StepsThatSend :
    stepEnabled 0 2 0x05 (two (withStep (0x05#128 ||| 1#128 <<< 127 ||| 1#128 <<< 64))) = true ∧
      (two (withStep 0#128)).padOf 0 = some 0 ∧ (two (withStep 0#128)).tileSite 0 1 = some 1 ∧
      stepEnabled 0 2 0x08 (withStep 0x08#128) = true ∧ stepEnabled 0 2 0x09 (withStep 0x09#128) = true := by decide

theorem test_bell_add_mesh :
    ((after (.stepBellAdd 0 2) (two (withStep (0x05#128 ||| 1#128 <<< 127 ||| 1#128 <<< 64)))).mesh.map (·.dests)) =
      [[1]] := by decide

theorem witness_StepsThatSend_local :
    stepEnabled 0 2 0x05 (bellDev (0x05#128 ||| 1#128 <<< 32) 0xFFFFFFFE#32) = true ∧
      stepEnabled 0 2 0x05 (bellDev (0x05#128 ||| 1#128 <<< 32) 0xFFFFFFFF#32) = true := by decide

theorem test_bell_add_sum :
    ((after (.stepBellAdd 0 2) (bellDev (0x05#128 ||| 1#128 <<< 32) 0xFFFFFFFE#32)).tile 0).bellNext = [(0, 1)] := by
  decide

/-- What a cycle adds to a bell of the tile. -/
def settleDev (n : Word) (k : Nat) : Dev := (bellDev 0#128 n).modTile 0 fun t => { t with bellNow := [(0, k)] }

/-- The net of a cycle fits in 32 bits, or does not. -/
theorem witness_StepsThatSend_bell_net :
    (vgetN ((settleDev 0xFFFFFFFE#32 1).tile 0).bells 0 0#32).toNat + bellSum ((settleDev 0xFFFFFFFE#32 1).tile 0).bellNow 0 = 2 ^ 32 - 1 ∧
      (vgetN ((settleDev 0xFFFFFFFE#32 2).tile 0).bells 0 0#32).toNat + bellSum ((settleDev 0xFFFFFFFE#32 2).tile 0).bellNow 0 = 2 ^ 32 := by
  decide

theorem test_bell_overflow : (((settleDev 0xFFFFFFFE#32 2).settleBell 0 0).tile 0).ctl.faultCode = 0x4001#16 := by decide +kernel

/-- A tile that commits work with the grant in X[0], whose claim table lies at the first parameter. -/
def commitDev (gen : BitVec 64) (base : BitVec 64) : Dev :=
  (withStep 0x0A#128).modTile 0 fun t => { t with
    ctl := { t.ctl with param := t.ctl.param.set 0 base },
    ctxs := t.ctxs.set 2 { state := .ready, x := Vector.replicate 8 (gen <<< 32), slots := 63 } }

theorem witness_StepsThatSend_commit :
    stepEnabled 0 2 0x0A (commitDev 1 0) = true ∧ stepEnabled 0 2 0x0A (commitDev 0 0) = true ∧
      linearValid (((48 * 2 ^ 33 : Nat)) : Int) = false ∧ linearValid ((48 * 2 ^ 33 - 8 : Nat) : Int) = true ∧
      finOf 48 (dramLoft (48 * 2 ^ 33 - 8)) = some (47 : SiteId) ∧ finOf 48 (dramLoft 0) = some (0 : SiteId) := by decide

theorem test_commit_stale : (((after (.stepCommit 0 2) (commitDev 1 0)).tile 0).ctxs[2]).x[0] = 2#64 := by decide

theorem witness_IssueAndPlan_issue :
    (stepEnabled 0 2 0x01 (withStep 0x01#128) = true ∧ isTarget 0x01 = 0) ∧
      (stepEnabled 0 2 0x01 (withStep (0x01#128 ||| 0x31#128 <<< 32)) = true ∧ isTarget (0x01 + 0x31 * 2 ^ 32) = 1 ∧
        isUnit (0x01 + 0x31 * 2 ^ 32) = 17) ∧
      (stepEnabled 0 2 0x01 (withStep (0x01#128 ||| 0x58#128 <<< 32)) = true ∧ isTarget (0x01 + 0x58 * 2 ^ 32) = 2 ∧
        isUnit (0x01 + 0x58 * 2 ^ 32) = 24) ∧
      (stepEnabled 0 2 0x01 (withStep (0x01#128 ||| 0x71#128 <<< 32)) = true ∧ isTarget (0x01 + 0x71 * 2 ^ 32) = 3) ∧
      isTarget (0x01 + 0x7F * 2 ^ 32) = 3 ∧ isUnit (0x01 + 0x7F * 2 ^ 32) = 31 := by decide

/-- What PLAN derives for the one plan entry. -/
def planned (d : Dev) : Except Nat (Writes × Nat × Nat) :=
  let t := d.tile 0
  planWrites t.active t.pool (d.sourceOf 0 2 0) 0

/-- A program of one PLAN, PATCH or PARTIAL step with one plan entry. -/
def planDev (op : BitVec 128) (plan : BitVec 256) : Dev :=
  live.modTile 0 fun t => { t with
    banks := (Vector.replicate 2 {}).set 0 { steps := [op], plans := [plan] },
    pool := [0x808000#1024] }

theorem witness_IssueAndPlan_plan :
    stepEnabled 0 2 0x02 (planDev 0x02#128 0#256) = true ∧ (planned (planDev 0x02#128 0#256)).toBool = false ∧
      stepEnabled 0 2 0x02 (planDev 0x02#128 0x100#256) = true ∧ (planned (planDev 0x02#128 0x100#256)).toBool = true ∧
      stepEnabled 0 2 0x03 (planDev 0x03#128 0#256) = true ∧ stepEnabled 0 2 0x0F (planDev 0x0F#128 0#256) = true := by
  decide +kernel

/-- What a PATCH of the first record, if there is one, writes: none out of range, or one with 2 above the bound 1. -/
def patched (l : List (BitVec 128)) : Except Nat Writes := patchWrites { patches := l } (fun _ => 2) 0 l.length

theorem witness_IssueAndPlan_patch :
    (patched []).toBool = true ∧ (patched [BitVec.ofNat 128 (0x80 * 2 ^ 16 + 1 * 2 ^ 64)]).toBool = false := by decide +kernel

/-- The matrix unit holds `n` descriptors. -/
def mxuDev (n : Nat) (fold : BitVec 2) (desc : BitVec 1024) : Dev :=
  (withStep 0x01#128).modTile 0 fun t => { t with
    pool := [desc],
    mxu := { running := if n = 0 then none else some { desc := 0#256, ctx := 2 },
             pending := if n = 2 then some { desc := 0#256, ctx := 2 } else none, heldFold := fold } }

theorem witness_MatrixUnitHoldsTwoDescriptors :
    (stepEnabled 0 2 0x01 (mxuDev 0 0#2 0) = true ∧ ((mxuDev 0 0#2 0).tile 0).mxu.foldMismatch 0 = false) ∧
      (stepEnabled 0 2 0x01 (mxuDev 1 0#2 0) = true ∧ ((mxuDev 1 0#2 0).tile 0).mxu.pending = none) ∧
      (stepEnabled 0 2 0x01 (mxuDev 2 0#2 0) = true ∧ ((mxuDev 2 0#2 0).tile 0).mxu.pending.isSome = true) ∧
      (stepEnabled 0 2 0x01 (mxuDev 0 2#2 0x400000#1024) = true ∧
        ((mxuDev 0 2#2 0).tile 0).mxu.foldMismatch (2 ^ 22) = true) := by decide +kernel

theorem test_mxu_queue_full :
    (((after (.stepIssue 0 2) (mxuDev 2 0#2 0)).tile 0).ctl.faultCode) = 0x4010#16 := by decide +kernel

/-! ### Witnesses: contexts, the configuration port, phases -/

theorem witness_ContextsWakeAndPortServes_wake :
    wakeEnabled 0 3 (live.modCtx 0 3 fun _ => { state := .waitBell, wait := .bell 0 0, met := true }) = true ∧
      ((live.tile 0).ctxs[3]).met = false ∧ ((live.tile 0).ctxs[3]).state = .idle ∧
      ((live.modCtx 0 3 fun _ => { state := .waitBell, wait := .bell 0 0 }).tile 0).wakes 3 = true := by decide

/-- A FIRE_COUNT of 1 for unit 3. -/
def lowFire : FireSet := { unit := 3, value := 1, record := 0 }

/-- A request waits for the configuration port; a unit with a fire count to reach cannot be rewritten by PARTIAL. -/
def portDev (r : PortReq) (fires : BitVec 1024) : Dev :=
  live.modTile 0 fun t => { t with
    portQ := [r], banks := (Vector.replicate 2 {}).set 0 { partials := [(0, [])] },
    grid := t.grid.set 0 { cfg := fires, fired := 1 } }

theorem witness_ContextsWakeAndPortServes_port :
    portEnabled 0 (portDev (.writes 2 0 [] [] none) 0) = true ∧
      (((portDev (.writes 2 0 [] [] none) 0).tile 0).serve true (.writes 2 0 [] [] none)).toBool = true ∧
      (((portDev (.writes 2 0 [] [lowFire] none) 0).tile 0).serve true (.writes 2 0 [] [lowFire] none)).toBool = false := by
  decide

theorem test_port_busy :
    ((after (.configPortServe 0) (portDev (.writes 2 0 [] [lowFire] none) 0)).tile 0).ctl.faultCode = 0x1004#16 := by decide

/-- The tile has a full commit to perform. -/
def dueDev : Dev := live.modTile 0 fun t => { t with commitDue := true }

theorem witness_PhasesStartAndEnd_commit : fullCommitEnabled 0 dueDev = true := by decide

theorem test_full_commit_generation : ((after (.fullCommit 0) dueDev).tile 0).ctl.cfgGen = 1#16 := by decide +kernel

/-- The run's parameters wait for the reload. -/
def reloadDev : Dev := live.modPad 0 fun p => { p with reloading := true, params := [5#64] }

theorem witness_PhasesStartAndEnd_reload : reloadDone 0 reloadDev = true ∧ (reloadDev.pad 0).isSome = true := by decide

theorem test_reload_params : ((after (.reloadComplete 0) reloadDev).tile 0).ctl.param[0] = 5#64 := by decide +kernel

/-- A phase at its end: its last step is done, `last` is its LAST bit, and a token may be left in an input queue. -/
def endDev (last : Bool) (left : Bool) (susp : Bool) : Dev :=
  (live.modPad 0 fun p => { p with suspendDue := susp }).modTile 0 fun t => { t with
    ctl := { t.ctl with phaseState := 3#8 },
    banks := (Vector.replicate 2 {}).set 0 { phases := [if last then 0x100000000#512 else 0#512] },
    grid := if left then t.grid.set 0 { inQ := (Vector.replicate 4 []).set 0 [Token.zero] } else t.grid }

theorem witness_PhasesStartAndEnd_end :
    (phaseEndEnabled 0 (endDev true true false) = true ∧ leftOver (endDev true true false) pad0 = some (0, 3)) ∧
      (phaseEndEnabled 0 (endDev true false false) = true ∧ leftOver (endDev true false false) pad0 = none ∧
        phLast ((((endDev true false false).tile 0).active.phase 0)) = true) ∧
      (phaseEndEnabled 0 (endDev false false false) = true ∧ leftOver (endDev false false false) pad0 = none ∧
        phLast ((((endDev false false false).tile 0).active.phase 0)) = false) ∧
      phaseEndEnabled 0 (endDev false false true) = true ∧ pad0.sites = [0] := by decide +kernel

/-! ### Witnesses: the grid -/

/-- A position of the tile as given; the others take tokens from every side. -/
def posDev (p : PosId) (q : Pos) : Dev :=
  (live.modTile 0 fun t => { t with grid := Vector.replicate 25 { switch := 0xF000#16 } }).modPos 0 p fun _ => q

def tok0 : LinkTok := { tok := Token.zero, avail := 0 }

theorem witness_TokensMoveInOrder :
    (transferEnabled 0 0 .e (posDev 0 { cfg := 0x100000001#1024, linkQ := (Vector.replicate 4 []).set 1 [tok0] }) = true ∧
        Pos.inputOf { cfg := 0x100000001#1024 } 1 = some 0) ∧
      (passEnabled 0 0 .e .intoReg
          (posDev 0 { switch := 0x28#16, linkQ := (Vector.replicate 4 []).set 3 [tok0] }) = true ∧
        Pos.passFrom { switch := 0x28#16 } 1 = some 3) ∧
      (passEnabled 0 0 .e .ontoLink (posDev 0 { passReg := (Vector.replicate 4 none).set 1 (some tok0) }) = true ∧
        neighbour 0 0 1 = some (0, 1, false)) ∧
      [mxuPos, msuPos 0, (0 : PosId)].all (fun p => emitEnabled 0 p 0
        (posDev p { switch := 0x8#16, cfg := 0x10000000000#1024, outQ := (Vector.replicate 4 []).set 0 [(200, Token.zero)] })) =
        true := by decide +kernel

theorem test_parity_error_held :
    ((after (.passThroughForward 0 0 .e .ontoLink true)
      (posDev 0 { passReg := (Vector.replicate 4 none).set 1 (some tok0) })).pos 0 1).parityErrs = 1 := by decide +kernel

/-- The matrix unit runs a blocked step of one row, one column and one k over INT4 operands. -/
def mxDev (u : Mxu) : Dev :=
  (posDev mxuPos { cfg := 0x10000000000000010#1024, inQ := (Vector.replicate 4 []).set 1 [Token.zero] }).modMxu 0
    fun _ => { u with running := some { desc := BitVec.ofNat 256 (0x808000 + 2 ^ 64 + 2 ^ 96 + 2 ^ 128), ctx := 2 } }

/-- MSU 0 is elastic and has a token at its input. -/
def elasticDev : Dev :=
  posDev (msuPos 0) { cfg := BitVec.ofNat 1024 (2 ^ 129 + 2 ^ 64 + 1), inQ := (Vector.replicate 4 []).set 0 [Token.zero] }

theorem witness_UnitsFireWhenReady :
    fireEnabled 0 1 .whole live = false ∧ fireEnabled 0 1 .whole (posDev 13 { cfg := 0x10000000000000000#1024 }) = true ∧
      fireEnabled 0 0 (.inp 1) (mxDev {}) = true ∧
      fireEnabled 0 17 (.inp 0) elasticDev = true := by decide +kernel

theorem witness_UnitsFireWhenReady_idle :
    live.padLive 0 = true ∧ (live.modPad 0 fun p => { p with idle := 65536 }).padLive 0 = true := by decide

theorem test_grid_deadlock :
    ((after (.gridDeadlock 0) (live.modPad 0 fun p => { p with idle := 65536 })).pad 0).map (·.stopAt) =
      some (some 100) := by decide +kernel
theorem test_no_grid_deadlock :
    ((after (.gridDeadlock 0) (live.modPad 0 fun p => { p with idle := 65535 })).pad 0).map (·.stopAt) =
      some none := by decide +kernel

/-! ### Witnesses: the matrix unit, completion FIFOs, the streaming units -/

/-- The matrix unit runs a step of descriptor `x`. -/
def mxRun (x : Nat) (u : Mxu) : Dev :=
  live.modMxu 0 fun _ => { u with running := some { desc := BitVec.ofNat 256 x, ctx := 2 } }

/-- One row, one column and one k over INT4 operands: blocked, and held at accumulator row 1,024. -/
def mxBlocked : Nat := 0x808000 + 2 ^ 64 + 2 ^ 96 + 2 ^ 128
def mxHeld : Nat := 0x8000 + 2 ^ 64 + 2 ^ 96 + 2 ^ 128 + 1024 * 2 ^ 160

theorem witness_MatrixUnitWorksRowByRow :
    (rowSlotEnabled 0 (mxRun mxHeld { active := 1, aToks := [Token.zero] }) = true ∧
        ((mxRun mxHeld { active := 1, aToks := [Token.zero] }).tile 0).mxu.overflows = true) ∧
      (rowSlotEnabled 0 (mxRun mxBlocked { active := 1, aToks := [Token.zero] }) = true ∧
        ((mxRun mxBlocked { active := 1, aToks := [Token.zero] }).tile 0).mxu.overflows = false) ∧
      swapEnabled 0 (mxRun mxBlocked { shadow := (List.range 256).map fun i => (i, Token.zero) }) = true ∧
      (stepCompleteEnabled 0 (mxRun 0x808000 {}) = true ∧ mdBellEn 0x808000 = false) ∧
      stepCompleteEnabled 0 (mxRun (0x808000 + 2 ^ 30) {}) = true ∧ mdBellEn (0x808000 + 2 ^ 30) = true := by
  decide +kernel

theorem test_acc_overflow :
    ((after (.rowSlotStart 0) (mxRun mxHeld { active := 1, aToks := [Token.zero] })).tile 0).ctl.faultCode = 0x3003#16 := by
  decide +kernel

theorem witness_DoneReadsRemoveOldestRecord :
    live.running = true ∧ live.hasTile 0 = true ∧
      [[], [7#64], [1#64, 2#64, 3#64, 4#64]].all (fun l => decide (({ recs := l } : DoneFifo).at_ ≠ 100) && decide (l.length ≤ 4)) = true := by
  decide

theorem test_mxu_done_read :
    (after (.mxuDoneRead 0) (live.modMxu 0 fun u => { u with done := { recs := [7#64, 8#64], lost := true } })).readout =
      7 + 2 ^ 28 := by decide +kernel

/-- An inbound write of MSU 0's mover waits for panel 0, which may be queued for zeroing. -/
def grantDev (queued : Bool) : Dev :=
  (live.modMsu 0 0 fun u => { u with mv := { u.mv with inBuf := [{ seq := 0, at_ := 0, bytes := [1#8, 2#8] }] } }).modSpad 0 fun p =>
    { p with valid := 1#768, zeroQ := if queued then p.zeroQ.set 0 [(0, 0)] else p.zeroQ }

/-- What section 0 of the tile's scratchpad picks. -/
def picked (d : Dev) : Option Ask :=
  let t := (fins 8).foldl (fun t m => t.settle m (d.tileLive 0) d.anow 64) (d.tile 0)
  if t.askFault 0 (d.tileLive 0) (d.tileUp 0) d.anow = none then t.pick 0 (d.tileLive 0) (d.tileUp 0) d.anow else none

/-- No port presents an access that faults. -/
def faultless (d : Dev) : Bool :=
  let t := (fins 8).foldl (fun t m => t.settle m (d.tileLive 0) d.anow 64) (d.tile 0)
  (t.askFault 0 (d.tileLive 0) (d.tileUp 0) d.anow).isNone

theorem witness_StreamingUnitsMoveBytes_grant :
    (grantEnabled 0 0 live = true ∧ faultless live = true ∧ picked live = none) ∧
      (grantEnabled 0 0 (grantDev true) = true ∧ (picked (grantDev true)).isSome = true ∧
        ((grantDev true).tile 0).spad.queued 0 = true) ∧
      (grantEnabled 0 0 (grantDev false) = true ∧ (picked (grantDev false)).isSome = true ∧
        ((grantDev false).tile 0).spad.queued 0 = false) := by decide +kernel

/-- The control core has read all but the last word of a SEND of 16 bytes for channel 0, or has written a RECV's last but one. -/
def portJob (recv : Bool) (done : Nat) : Dev :=
  live.modTile 0 fun t => { t with
    core := [{ ctx := 2, recv := recv, no := 0, addr := 0, len := 16, done := done, bytes := List.replicate (if recv then 16 else done) 7#8,
               entry := [7#8] }],
    queues := t.queues.set 0 { entries := [[7#8]], taking := 1 },
    spad := { t.spad with valid := 1#768 } }

theorem witness_StreamingUnitsMoveBytes_port :
    [true, false].all (fun r => grantEnabled 0 0 (portJob r 8) && faultless (portJob r 8) &&
        ((picked (portJob r 8)).map fun k => (k.req, k.write)) == some (16, r) &&
        (((portJob r 8).tile 0).spad.badWords).isEmpty) = true ∧
      [true, false].all (fun r => (((portJob r 16).tile 0).core.find? (fun j => decide (j.len ≤ j.done))).map (·.recv) == some r) = true := by
  decide +kernel

theorem test_port_recv_done : ((after (.scratchpadGrant 0 0 .clean) (portJob true 8)).tile 0).queues[0].entries = [] := by
  decide +kernel
theorem test_port_send_done : (((after (.scratchpadGrant 0 0 .clean) (portJob false 8)).tile 0).ctxs[2]).msgs = 1 := by decide +kernel

theorem test_grant_writes : ((after (.scratchpadGrant 0 0 .clean) (grantDev false)).tile 0).spad.mem.readN 0 2 = [1#8, 2#8] := by
  decide +kernel
theorem test_grant_zeroes_first : ((after (.scratchpadGrant 0 0 .clean) (grantDev true)).tile 0).spad.mem.readN 0 2 = [0#8, 0#8] := by
  decide +kernel

/-- Bytes in flight to MSU 0, of which the Bool says the stream, and its mode. -/
def flightDev (secondary : Bool) (mode : Nat) : Dev :=
  (live.modPos 0 (msuPos 0) fun p => { p with cfg := BitVec.ofNat 1024 (mode * 2 ^ 128) }).modMsu 0 0 fun u =>
    { u with flight := [(200, secondary, [1#8])] }

theorem witness_StreamingUnitsMoveBytes_delivery :
    (deliveryEnabled 0 0 (flightDev false 1) = true ∧ ((flightDev false 1).tile 0).msuCfgMode 0 = 1) ∧
      deliveryEnabled 0 0 (flightDev true 1) = true ∧
      (deliveryEnabled 0 0 (flightDev true 2) = true ∧ ((flightDev true 2).tile 0).msuCfgMode 0 = 2) := by decide +kernel

theorem witness_StreamingUnitsMoveBytes_zero :
    panelZeroEnabled 0 0 (live.modSpad 0 fun p => { p with zeroQ := p.zeroQ.set 0 [(4, 63)] }) = true := by decide +kernel

theorem witness_StreamingUnitsMoveBytes_pattern :
    patternEnabled 0 0 true (live.modMsu 0 0 fun u => { u with wr := { running := some { desc := 0, ctx := 2 } } }) = true ∧
      patternEnabled 0 0 false (live.modMsu 0 0 fun u => { u with rd := { running := some { desc := 0, ctx := 2 } } }) = true := by
  decide +kernel

/-! ### Witnesses: lofts, movers, updates -/

/-- A request for 64 bytes of loft 0 waits on the direct path. -/
def reqDev (write clear : Bool) (addr : Nat) (dead : Bool) : Dev :=
  live.modLoft 0 fun l => { l with
    trained := true, deadChans := if dead then [0] else [],
    direct := [{ who := .mover 0 0 0, pad := 0, write := write, clear := clear, addr := addr, len := 64,
                 data := if write then List.replicate 64 7#8 else [] }] }

/-- The request can be accepted, and its window is granted or not. -/
def acceptedBy (d : Dev) (ok : Bool) (router : Bool := false) : Bool :=
  acceptEnabled 0 router d && match (d.loft 0).acceptable router d.now with
    | some r => d.windowOk 0 r == ok
    | none => false

/-- The same request has come through the router. -/
def routed (d : Dev) : Dev := d.modLoft 0 fun l => { l with router := l.direct, direct := [] }

theorem witness_LoftPerformsGrantedRequests :
    acceptedBy (reqDev false false (64 * 1024 - 64) false) true = true ∧
      acceptedBy (reqDev false false (64 * 1024) false) false = true ∧
      acceptedBy (reqDev false true 0 false) true = true ∧ acceptedBy (reqDev true false 0 false) true = true ∧
      acceptedBy (reqDev true false 0 true) true = true ∧
      [(true, 0, true), (false, 0, true), (true, 65536, false)].all (fun x =>
        acceptedBy (routed (reqDev x.1 false x.2.1 false)) x.2.2 true) = true ∧
      ((reqDev true false 0 true).loft 0).deadChans.contains (offChannel 0) = true := by decide +kernel

theorem test_loft_write : ((after (.loftRequestAccept 0 false) (reqDev true false 0 false)).loft 0).mem.readN 0 2 = [7#8, 7#8] := by
  decide +kernel
theorem test_loft_denied :
    ((after (.loftRequestAccept 0 false) (reqDev true false 65536 false)).loft 0).mem.readN 65536 2 = [0#8, 0#8] := by
  decide +kernel

/-- A tag and a write entry of block 3, their windows open until cycle 100 or closed. -/
def tagDev (open_ : Option Nat) : Dev :=
  live.modLoft 0 fun l => { l with
    tags := [{ block := 3, openUntil := open_, reqs := [], accepted := 0 }], writes := [{ block := 3, openUntil := open_, units := [0] }] }

/-- A tag of block 0 with one read of 64 bytes, which met uncorrectable codewords, or of which such have been found since. -/
def readDev (met found : List Nat) : Dev :=
  live.modLoft 0 fun l => { l with
    badWords := found,
    tags := [{ block := 0, openUntil := none, accepted := 0,
               reqs := [{ who := .mover 0 0 0, pad := 0, write := false, addr := 0, len := 64, data := List.replicate 64 5#8, bad := met }] }] }

/-- The codewords that a closed tag's requests met as uncorrectable. -/
def knownOf (d : Dev) : List Nat :=
  match (d.loft 0).readyTag d.now with
  | some t => (t.reqs.flatMap fun r => (d.loft 0).badNow t r).dedup
  | none => []

theorem test_read_returns :
    ((after (.loftReadReturn 0 []) (readDev [] [])).loft 0).back.map (·.1) = [104] := by decide +kernel
theorem test_read_counts_bad : ((after (.loftReadReturn 0 []) (readDev [0] [])).loft 0).ue.val = 1#32 := by decide +kernel

/-- MSU 0 in a mode, with a transfer or an update of descriptor `x` that has finished. -/
def jobDev (mode x : Nat) : Dev :=
  (live.modPos 0 (msuPos 0) fun p => { p with cfg := BitVec.ofNat 1024 (mode * 2 ^ 128) }).modMsu 0 0 fun u =>
    let j : MvJob := { issued := { desc := x, ctx := 2 }, seq := 0, since := 0, sent := true }
    { u with mv := { u.mv with jobs := [j] }, upd := { u.upd with jobs := [j] } }

theorem witness_ControllersAndMoversComplete :
    mergeCloseEnabled 0 3 (tagDev (some 100)) = true ∧ writeBurstEnabled 0 (tagDev none) = true ∧
      ([tagDev none, readDev [] [], readDev [0] [], readDev [] [0]].all (fun d => readReturnEnabled 0 d && ((d.loft 0).readyTag d.now).isSome) =
        true) ∧
      (knownOf (readDev [] []) = [] ∧ knownOf (readDev [0] []) = [0] ∧ knownOf (readDev [] [0]) = [0]) ∧
      (moverIssueEnabled 0 0 (jobDev 3 0) = true ∧ ((jobDev 3 0).tile 0).msuCfgMode 0 = 3) ∧
      (moverIssueEnabled 0 0 (jobDev 1 0) = true ∧ ((jobDev 1 0).tile 0).msuCfgMode 0 = 1) ∧
      (moverCompleteEnabled 0 0 (jobDev 1 0) = true ∧ (((jobDev 1 0).msu 0 0).mv.finished 100).isSome = true) ∧
      (updateCompleteEnabled 0 0 (jobDev 3 0) = true ∧ (((jobDev 3 0).msu 0 0).upd.finished 100).isSome = true) := by
  decide +kernel

/-- Loft 0 after training, with a history of corrected codewords in row 0 of bank 0 of channel 0 and of uncorrectable ones in four of
its banks, and a window returned. -/
def loftDev : Dev :=
  live.modLoft 0 fun l => { l with
    trained := true, ceHist := [(0, 0, 50), (0, 1, 50), (0, 2, 50), (0, 3, 50)], zeroing := [(2, 1)], mem := [⟨8192, 9#8⟩, ⟨12288, 9#8⟩],
    ueHist := [(0, 60), (4096, 60), (8192, 60), (12288, 60)] }

theorem witness_LoftUpkeepKeepsData :
    loftDev.running = true ∧ (loftDev.loft 0).trained = true ∧ (loftDev.loft 0).badWords.contains 0 = false ∧
      (hottestOf (Vector.replicate 8 840#16)).toInt ≤ 105 * 8 ∧ patrolEnabled 0 16#33 loftDev = true ∧
      (loftDev.loft 0).badOf 16 1 = [] ∧ (loftDev.loft 0).zeroing.find? (fun z => z.1 == 2) = some (2, 1) ∧
      rowSparedEnabled 0 0 0 0 loftDev = true ∧
      (channelSparedEnabled 0 0 .sound loftDev = true ∧ (loftDev.loft 0).layerSpent 0 = false) ∧
      (channelSparedEnabled 0 0 .parity loftDev = true ∧ (loftDev.loft 0).pathErrs = []) := by decide +kernel

theorem test_window_zeroed :
    ((after (.windowZeroingComplete 0 2) loftDev).loft 0).mem = [⟨12288, 9#8⟩] := by decide +kernel
theorem test_refresh_boundaries : (refreshOf 0 (85 * 8), refreshOf 0 (95 * 8), refreshOf 2 (93 * 8), refreshOf 1 (83 * 8)) = (1, 2, 2, 1) := by
  decide

/-! ### Witnesses: the carillon, bells, messages, claims -/

/-- Barrier 0 of paddock 0 expects `target` arrivals of episode 0; one arrival stands in the inbox. -/
def barDev (target : Nat) (enabled : Bool) (tag : BitVec 2) : Dev :=
  { live with car := { live.car with
      bars := live.car.bars.set 0 { cfg := BitVec.ofNat 128 (target + (if enabled then 2 ^ 68 else 0)) },
      inbox := [(90, .arrive 0 tag 0)] } }

/-- A release of barrier 240 is due at site 0, whose context 0 waits at the commit barrier or not. -/
def relDev (wait : Bool) : Dev :=
  let d := live.modTile 0 fun t => { t with commitWait := wait }
  { d with car := { d.car with releases := [(0, 240, 1#2, 100)] } }

theorem witness_BarriersCountAndRelease :
    (arrivalEnabled 0 (barDev 1 true 0#2) = true ∧ ((barDev 1 true 0#2).bar 0).enabled = true ∧
        ((barDev 1 true 0#2).bar 0).pad = 0) ∧
      arrivalEnabled 0 (barDev 0 true 0#2) = true ∧ arrivalEnabled 0 (barDev 1 true 3#2) = true ∧
      (arrivalEnabled 0 ((barDev 1 true 0#2).modBar 0 fun q => { q with stuck := true }) = true ∧
        ((barDev 1 true 0#2).bar 0).stuck = false) ∧
      (arrivalEnabled 0 (barDev 1 false 0#2) = true ∧ ((barDev 1 false 0#2).bar 0).enabled = false ∧
        ((barDev 1 false 0#2).car.arrivals 0).filterMap (fun a => (barDev 1 false 0#2).padOf a.2) = [0]) ∧
      [false, true].all (fun w => releaseEnabled 0 (relDev w) && (relDev w).tileUp 0 &&
        (relDev w).car.releases.find? ((relDev w).releaseDue 0) == some (0, 240, 1#2, 100)) = true := by decide +kernel

theorem test_barrier_complete : ((after (.barrierArrival 0) (barDev 1 true 0#2)).bar 0).episode = 1#2 := by decide +kernel
theorem test_barrier_overrun :
    ((after (.barrierArrival 0) (barDev 0 true 0#2)).pad 0).map (·.stopAt) = some (some 100) := by decide +kernel

/-- A claim of generation 1 for a word of loft 0 that is DONE in generation `done`. -/
def claimDev (src : SiteId) (done : Byte) : Dev :=
  let d := ((two live).modLoft 0 fun l => { l with mem := [⟨0, done⟩, ⟨2, 1#8⟩] })
  { d with claims := d.claims.set 0 [.claimReq 0 1#16 5 src 2] }

/-- A packet stands in the tile's inbox. -/
def inDev (m : MeshMsg) : Dev := live.modTile 0 fun t => { t with inbox := [m] }

/-- A request for work counter 3 stands at the carillon. -/
def workDev : Dev := { live with car := { live.car with inbox := [(90, .workReq 3 0 2)] } }

theorem witness_CountersClaimsAndBells :
    (workEnabled 3 workDev = true ∧
        workDev.car.nextWork 3 = some (90, .workReq 3 0 2)) ∧
      [(0 : SiteId), 1].all (fun src => claimEnabled 0 (claimDev src 1#8) &&
        (((claimDev src 1#8).padOf src).bind (claimDev src 1#8).pad).any (fun p => p.granted 0 (dramOff 0) 8) &&
        ((claimDev src 1#8).loft 0).badIn (dramOff 0) 8 == none) = true ∧
      (bellArrivalEnabled 0 (inDev (.bellAdd 3 4 1 2)) = true ∧
        ((inDev (.bellAdd 3 4 1 2)).tile 0).firstMsg MeshMsg.isBellAdd = some (.bellAdd 3 4 1 2)) ∧
      (bellAckEnabled 0 (inDev (.bellAck 2)) = true ∧
        ((inDev (.bellAck 2)).tile 0).firstMsg MeshMsg.isBellAck = some (.bellAck 2)) ∧
      live.running = true ∧ live.hasTile 0 = true := by decide +kernel

theorem test_claim_taken : ((after (.claimWordUpdate 0 .clean) (claimDev 0 0#8)).loft 0).mem.readN 0 8 =
    [1#8, 0#8, 1#8, 0#8, 5#8, 0#8, 0#8, 0#8] := by decide +kernel
theorem test_claim_done : ((after (.claimWordUpdate 0 .clean) (claimDev 0 1#8)).loft 0).mem.readN 0 8 =
    [1#8, 0#8, 1#8, 0#8, 0#8, 0#8, 0#8, 0#8] := by decide +kernel

/-- A message of rank 5 for queue 0; the tile's rank, the queue and its entries, and the USABLE bit are given. -/
def msgDev (usable : Bool) (rank : BitVec 16) (cfg : BitVec 16) (n : Nat) : Dev :=
  (inDev (.message 0 5#16 [1#8] 1 0 false)).modTile 0 fun t => { t with
    ctl := { t.ctl with rank := rank, cfgBank := if usable then 0x08#8 else 0#8 },
    queues := t.queues.set 0 { cfg := cfg, entries := List.replicate n [] } }

theorem witness_MessagesDecidedAndRetried_message :
    [msgDev false 6#16 1#16 0, msgDev true 5#16 1#16 0, msgDev true 6#16 0#16 0, msgDev true 6#16 1#16 16,
        msgDev true 6#16 1#16 15].all (fun d => messageEnabled 0 d &&
      (d.tile 0).firstMsg MeshMsg.isMessage == some (.message 0 5#16 [1#8] 1 0 false) && !((d.tile 0).queues[0]).ring &&
      d.runOpen (d.padOf 0)) = true := by decide +kernel

/-- The queue is a RING into region 0, which has room for a record or has not. -/
def ringMsg (head : Word) : Dev :=
  (msgDev true 6#16 3#16 0).modTile 0 fun t => { t with
    regions := t.regions.set 0 { desc := BitVec.ofNat 128 (8 * 2 ^ 32), head := head } }

/-- A message that met a full queue stands at the end of its cycle, with `n` entries in the queue. -/
def fullDev (n : Nat) : Dev :=
  (msgDev true 6#16 1#16 n).modTile 0 fun t => { t with fullMsg := some { queue := 0, bytes := [1#8], sender := (1, 0, false) } }

theorem witness_MessagesDecidedAndRetried_room :
    [(ringMsg 0#32, true), (ringMsg 4096#32, false)].all (fun x => messageEnabled 0 x.1 && ((x.1.tile 0).queues[0]).ring &&
        ((x.1.takeMsg 0 (.message 0 5#16 [1#8] 1 0 false)).tile 0 |>.placeRing ((x.1.tile 0).queues[0]).region
          ((x.1.tile 0).queues[0]).msu x.1.anow [1#8]).isSome == x.2) = true ∧
      [16, 15].all (fun n => (((fullDev n).tile 0).fullMsg == some { queue := 0, bytes := [1#8], sender := (1, 0, false) }) &&
        (((fullDev n).tile 0).queues[0]).entries.length == n) = true := by decide +kernel

theorem test_full_message_waits : ((after (.messageDelivery 0) (msgDev true 6#16 1#16 16)).tile 0).fullMsg.isSome = true := by
  decide +kernel
theorem test_full_message_room : (((fullDev 15).settleMsg 0).tile 0).queues[0].entries.length = 16 := by decide +kernel

theorem test_message_taken : ((after (.messageDelivery 0) (msgDev true 6#16 1#16 15)).tile 0).queues[0].entries.length = 16 := by
  decide +kernel
theorem test_message_rank : ((after (.messageDelivery 0) (msgDev true 5#16 1#16 0)).tile 0).drops.val = 1#32 := by
  decide +kernel

/-- Channel 0 after a transmission, with a response in the inbox. -/
def sentDev (st : ChanState) (tries : Nat) (r : MsgResp) : Dev :=
  (inDev (.msgResp 0 r)).modChan 0 0 fun h => { h with
    state := st, tries := tries, current := some { ctx := 2, bytes := [] }, sentAt := 0, resendAt := 100 }

/-- The cycle in which a transmission of cycle 0 is given up. -/
def lateDev : Dev := { sentDev .inFlight 0 .ack with clk := { nclk := 1048576 } }

/-- A sample record waits for room in region 0. -/
def sampleDev : Dev :=
  live.modTile 0 fun t => { t with
    pmc := { t.pmc with smpHeld := some (List.replicate 24 0#8) }, regions := t.regions.set 0 { desc := BitVec.ofNat 128 (4096 * 2 ^ 32) } }

theorem witness_MessagesDecidedAndRetried_response :
    (respEnabled 0 (sentDev .inFlight 254 .nakFull) = true ∧ respEnabled 0 (sentDev .inFlight 0 .nakRank) = true ∧
        respEnabled 0 (sentDev .inFlight 0 .nakNoQueue) = true ∧
        ((sentDev .inFlight 0 .nakRank).tile 0).firstMsg MeshMsg.isMsgResp = some (.msgResp 0 .nakRank)) ∧
      resendEnabled 0 0 (sentDev .backoff 0 .ack) = true ∧ stuckEnabled 0 0 lateDev = true ∧
      sampleEnabled 0 sampleDev = true ∧
      (((sampleDev.tile 0).regionAt (sampleDev.tile 0).pmc.sampleRegion).place sampleDev.anow (recLen 24)) = some 0 ∧
      ({ pmc := { smpWrites := [(0, [], 32)] } } : Tile).pmc.smpWrites = [(0, [], 32)] := by decide +kernel

theorem test_backoff_wait : ((after (.messageResponse 0) (sentDev .inFlight 254 .nakFull)).chan 0 0).resendAt = 100 + 4096 := by
  decide +kernel

/-! ### Witnesses: beats, power, the scrubber, the mesh -/

/-- Two beats of 100 timestamps, of which the first is paddock 0's. -/
def beats0 (t0 : Nat) : Beats := { entries := [(some 0, 100), (none, 100)], t0 := t0 }

theorem witness_BeatsHoldAndTilesSleep :
    ({ live with beats := some (beats0 0) } : Dev).worvis = true ∧ live.now < (beats0 1000).ends ∧ (beats0 0).ends ≤ 10 ^ 6 := by
  decide +kernel

/-- The tile's power state and the state of its paddock's run. -/
def powerDev (power : Byte) (st : OpState) : Dev :=
  (live.modTile 0 fun t => { t with power := power }).modOp 0 fun o => { o with state := st }

theorem witness_BeatsHoldAndTilesSleep_power :
    ((powerDev 0#8 .suspended).power 0 < (powerDev 0#8 .suspended).powerFor 0) ∧
      ((powerDev 0#8 .running).powerFor 0 ≤ (powerDev 0#8 .running).power 0) ∧
      ((powerDev 1#8 .running).powerFor 0 < (powerDev 1#8 .running).power 0) ∧
      ((powerDev 2#8 .running).powerFor 0 < (powerDev 2#8 .running).power 0 ∧ 2 ≤ (powerDev 2#8 .running).power 0 ∧
        ((powerDev 2#8 .running).tile 0).scrub.works = true) ∧
      (((powerDev 2#8 .running).modTile 0 fun t => { t with scrub := { t.scrub with halted := true } }).tile 0).scrub.works = false := by
  decide +kernel

theorem test_tile_sleeps : ((after (.tilePowerChange 0) (powerDev 0#8 .suspended)).power 0) = 1 := by decide +kernel
theorem test_tile_wakes : ((after (.tileWake 0 true) (powerDev 1#8 .running)).power 0) = 0 := by decide +kernel

theorem witness_ScrubberWalksVotesAndIsChecked :
    (live.running = true ∧ live.hasTile 0 = true ∧ live.walks 0 .live 0 = true ∧
        (live.modTile 0 fun t => { t with scrub := { t.scrub with lastLive := true } }).walks 0 .bank0 0 = true) ∧
      (live.power 0 < 2 ∧ (live.tile 0).scrub.halted = false) ∧ (2 ^ scrubBits - 1 < 2 ^ scrubBits) ∧ (live.tile 0).scrub.works = true ∧
      (live.worvis = true ∧ live.ym.handover = []) ∧
      ({ live with clk := { nclk := msN 1 } } : Dev).now = (live.tile 0).scrub.checkedAt + msN 1 ∧
      BitVec.ofNat 32 (live.tile 0).scrub.beat = (live.tile 0).scrub.lastBeat ∧
      ({ live with kinds := live.kinds.set 5 .darkRemount } : Dev).kinds[5] = .darkRemount ∧
      (live.ym.hist[5]).testedAt + day ≤ day := by decide +kernel

theorem test_vote_majority : ((after (.scrubberVote 0 5 5 6) live).tile 0).scrub.copyC = 5 := by decide +kernel
theorem test_vote_halts : ((after (.scrubberVote 0 5 7 6) live).tile 0).scrub.halted = true := by decide +kernel

/-- A packet of one flit from site 0 to site 1 stands at site 0's router. -/
def meshDev : Dev := { two live with mesh := [{ at_ := 0, dests := [1], vc := 2, prio := true, src := 0, body := .bellAck 2 }] }

/-- No run is in progress. -/
def stopped : Dev := live.modPad 0 fun p => { p with state := .suspended }

/-- The last link of a crossing of the seam. -/
def seamDev : Dev := { stopped with seam := live.seam.set 5 8#4 }

theorem witness_RouterForwardsOrDiscards :
    forwardEnabled 0 0 meshDev = true ∧ ((meshDev.atRouter 0)[0]?).isSome = true ∧ ((0 : SiteId) ∉ [(1 : SiteId)] ∧ (1 : SiteId) ∈ [1]) ∧
      (seamEnabled 5 3 stopped = true ∧ seamEnabled 5 3 seamDev = true) ∧ ((after (.seamLinkRetired 5 3) seamDev).seam[5] = 0#4) := by
  decide +kernel

/-- Its copy reaches the head of site 1's buffer 4 cycles on; in site 0's buffer it stands until its flit has left. -/
theorem test_router_moves : ((after (.routerForward 0 0 (.fine 0)) meshDev).mesh.map (fun p => (p.at_, p.since, p.left))) =
    [(0, 0, some 100), (1, 104, none)] := by decide +kernel
theorem test_seam_link_out :
    (after (.seamLinkRetired 5 3) stopped).seam[5] = 7#4 := by decide +kernel

/-! ### Witnesses: the host port -/

/-- Module 0 is trained, with what it has received. -/
def hostDev (x : Module) : Dev :=
  { live with host := { live.host with mods := live.host.mods.set 0 { x with width := 2 } } }

/-- Mailbox 1 in a state, its response's SEQ 7. -/
def mbDev (st : MbState) : Dev := (hostDev {}).modMb 1 fun b => { b with state := st, seq := 7#16 }

/-- Ring 1 of two records, with `n` of them not yet consumed. -/
def ringDev (n : Word) : Dev :=
  { hostDev {} with rings := (hostDev {}).rings.set 1 { cfg := 3#32, prod := n } }

theorem witness_MailboxHandshake :
    windowUp (mbDev .empty) = true ∧ (mbDev .empty).mailboxReady = true ∧ ((mbDev .empty).mb 1).state = .empty ∧
      ((mbDev .ready).mb 1).state = .ready ∧ ((mbDev .ready).mb 1).seq = 7#16 ∧ ((mbDev .pending).mb 1).state ≠ .empty ∧
      ((ringDev 2#32).rings[1].prod - 0#32).toNat ≤ (ringDev 2#32).rings[1].records ∧
      (ringDev 2#32).rings[1].records < ((ringDev 2#32).rings[1].prod - 0xFFFFFFFF#32).toNat := by decide +kernel

theorem test_ack_wrong_seq : ((after (.mailboxAck 1 8#16) (mbDev .ready)).mb 1).refused.val = 1#32 := by decide +kernel
theorem test_ack_right_seq : ((after (.mailboxAck 1 7#16) (mbDev .ready)).mb 1).state = .empty := by decide +kernel

/-- Host message headers: MTYPE in byte 0, LEN from bit 16, HANDLE from bit 48 and ADDR from bit 64 (R397). -/
def hdr (mtype len handle addr : Nat) : HostHdr :=
  { bits := BitVec.ofNat 128 (mtype + len * 2 ^ 16 + handle * 2 ^ 48 + addr * 2 ^ 64) }

theorem witness_HostMessagesAndCopies_messages :
    receives 0 (hostDev {}) = true ∧ (hdrKnown (hdr 4 0 0 0) = false ∧ (hdr 4 0 0 0).mtype ≠ 0#8) ∧
      [1, 2].all (fun t => (hdr t 4 0 0).mtype == BitVec.ofNat 8 t && !(hostDev {}).windowBad 0 (hdr t 4 0 0xFFFFC) &&
        (hostDev {}).windowBad 0 (hdr t 5 0 0) && (hostDev {}).windowBad 0 (hdr t 4 0 0x100000)) = true ∧
      (hdr 3 16 1 0).mtype = 3#8 ∧ copyWriteBad (hdr 3 16 1 0) (List.replicate 16 0#8) = false ∧
      copyWriteBad (hdr 3 16 1 0) (List.replicate 15 0#8) = true ∧ (hostDev {}).copyOf 1 = none ∧
      ((hdr 15 0 0 0).mtype = 0x0F#8 ∧ creditBad (hdr 15 0 0 0xFFFFFFFFFFFF) = false ∧ creditBad (hdr 15 0 0 0x1000000000000) = true) ∧
      receives 0 (hostDev { rcvdNp := 64 }) = true ∧ receives 0 (hostDev { rcvdP := 4096 }) = true := by decide +kernel

theorem test_window_credit_last :
    ((after (.winRead 0 (hdr 1 4 0 0)) (hostDev { rcvdNp := 63 })).host.refused.val) = 0#32 := by decide +kernel
theorem test_window_credit_beyond :
    ((after (.winRead 0 (hdr 1 4 0 0)) (hostDev { rcvdNp := 64 })).host.refused.val) = 1#32 := by decide +kernel
/-- The credit of the other class does not count (R400). -/
theorem test_window_own_class :
    ((after (.winRead 0 (hdr 1 4 0 0)) (hostDev { rcvdP := 5000 })).host.refused.val) = 0#32 := by decide +kernel

/-- An open copy of 16 bytes at linear address 0 and handle 9. -/
def copyDev (k : CopyKind) : Dev :=
  { hostDev { gotCredit := true, hostP := 100#16 } with
    copies := live.copies.set 3 { id := 9, open_ := true, mailbox := 1, kind := k, bytes := 16, ranges := [(0x1000#64, 16)] } }

theorem witness_HostMessagesAndCopies_copies :
    [CopyKind.copyIn, .stream].all (fun k => receives 0 (copyDev k) && (copyDev k).copyOf 9 == some 3) = true ∧
      ((copyDev .copyIn).copyIn 0 3 0 (List.replicate 16 1#8)).2 = true ∧
      ((copyDev .stream).streamIn 0 3 0 (List.replicate 16 1#8)).2 = true ∧
      (outEnabled 3 0 (copyDev .copyOut) = true ∧ (copyDev .copyOut).copies[3].nextOut = some (0x1000#64, 16)) ∧
      ((copyDev .copyOut).copies[3].reads = true ∧ 0 < ((copyDev .copyOut).copies[3].outRange 16).2 ∧
        (copyDev .copyOut).badLinear 0 16 = false) := by decide +kernel

/-- A sealed OUT copy of which half a unit is out: the rest comes from the unit that is encrypted already (R472). -/
theorem witness_HostMessagesAndCopies_unit :
    let c : Copy := { id := 9, open_ := true, kind := .copyOut, bytes := 64, session := some 1, moved := 16, unitBuf := List.replicate 64 0#8 }
    c.reads = false ∧ 0 < (c.outRange 16).2 := by decide +kernel

theorem test_copy_in_stores :
    ((after (.copyWrite 0 (hdr 3 16 9 0) (List.replicate 16 1#8)) (copyDev .copyIn)).loft 0).mem.readN 14 3 =
      [1#8, 1#8, 0#8] := by decide +kernel

/-- A record waits for ring 1, or a vector of it is due. -/
def eventDev : Dev :=
  { hostDev {} with
    mbs := live.mbs.set 1 { cfg := 3#32 },
    rings := live.rings.set 1 { cfg := 3#32, vectorDue := true, waiting := [{ kind := 0, index := 0, seq := 0#32, time := 0#64, typ := 1#16, payload := [] }] } }

theorem witness_RingsAndModules :
    ringEnabled 1 eventDev = true ∧ (windowUp eventDev = true ∧ eventDev.rings[1].vectorDue = true ∧
      eventDev.rings[1].vectorFree eventDev.now = true ∧ (eventDev.mb 1).cfg.getLsbD 1 = true) ∧
      (live.running = true ∧ (live.module 0).trained = false ∧ (live.module 0).stayDown = false ∧ (live.module 0).fails < 2) ∧
      receives 0 (hostDev {}) = true := by decide +kernel

theorem test_module_down :
    ((after (.ucieTraining 0 false false) { live with host := { live.host with mods := live.host.mods.set 0 { fails := 2 } } }).module 0).stayDown =
      true := by decide +kernel

/-! ### Witnesses: long operations -/

/-- Operation 3 of a type and state, on paddock 0. -/
def opDev (t : OpType) (st : OpState) (args : List Nat) (progress : Nat) : Dev :=
  { live with ops := live.ops.set 3 { held := true, mailbox := 1, typ := t, state := st, paddock := some 0, args := args, progress := progress } }

/-- Work by points: the loft masks or sizes that give each type more to do. -/
def workArgs : OpType → List Nat
  | .checkpoint => [0, 0, 0, 0, 64]
  | _ => [1]

theorem witness_OperationsStart :
    [OpType.scrub, .dramTest, .checkpoint, .fwStage, .imageLoad, .run, .routeRebuild].all (fun t =>
      startEnabled 3 { opDev t .queued (workArgs t) 0 with clk := { nclk := usN 64 } }) = true ∧
      startEnabled 3 (opDev .checkpoint .queued [1, 0, 0, 0, 64] 0) = true ∧
      ((opDev .checkpoint .queued (workArgs .checkpoint) 0).setOp 3 .running 0).pad 0 = some pad0 := by decide +kernel

theorem witness_OperationsStopAtPoints :
    [OpType.scrub, .dramTest, .checkpoint].all (fun t => [OpState.running, .suspending, .cancelling].all fun st =>
        pointEnabled 3 (opDev t st (workArgs t) 0)) = true ∧
      pointEnabled 0 ((endDev false false true).modOp 0 fun o => { o with state := .suspending }) = true ∧
      pointEnabled 3 (opDev .run .cancelling [] 0) = true ∧
      [OpState.suspending, .cancelling].all (fun st => pointEnabled 3 { opDev .imageLoad st [] 0 with
        loads := [{ op := 3, copy := 0, pad := 0, bytes := 64, bodies := [(0, [])] }] }) = true ∧
      pointEnabled 3 { opDev .routeRebuild .cancelling [] 0 with rebuild := some { op := 3, full := true } } = true ∧
      pointEnabled 3 (opDev .fwStage .cancelling [0, 64] 0) = true := by decide +kernel

/-- A SAVE whose first panel holds a word that cannot be read. -/
def badSave (st : OpState) : Dev :=
  (opDev .checkpoint st [0, 0, 0, 0, 64] 0).modOp 3 fun o => { o with bad := some (0, 8) }

theorem witness_OperationsStopAtPoints_failed :
    pointEnabled 3 (badSave .suspending) = true ∧ (((badSave .suspending).workStep 3).op 3).state = .failed ∧
      [OpState.suspending, .cancelling].all (fun st =>
        !(((opDev .checkpoint st [0, 0, 0, 0, 64] 0).workStep 3).op 3).state.final) = true := by decide +kernel

theorem test_save_fails_on_bad_word : ((after (.opPointReached 3) (badSave .cancelling)).op 3).code = 0xE001#16 := by decide +kernel

theorem test_run_suspends :
    ((after (.opPointReached 0) ((endDev false false true).modOp 0 fun o => { o with state := .suspending })).pad 0).map (·.state) =
      some .suspended := by decide +kernel

/-- Firmware staged whole. -/
def stageDev : Dev :=
  { opDev .fwStage .running [1, 2] 2 with staging := some { slot := 1, bytes := 2, data := [1#8, 2#8], op := 3 } }

/-- What the checks of the firmware say is one of the four cases. -/
theorem witness_OperationsComplete_firmware :
    completeEnabled 3 0#16 stageDev = true ∧ stageDev.staging.isSome = true ∧
      (255 < Config.fwSecurityVersion [1#8, 2#8] ∨ Config.fwSignatureValid [1#8, 2#8] = false ∨
        ∃ floor, (Config.fwSecurityVersion [1#8, 2#8] < floor ∨ floor ≤ Config.fwSecurityVersion [1#8, 2#8])) :=
  ⟨by decide +kernel, by decide +kernel, .inr (.inr ⟨_, .inr (Nat.le_refl _)⟩)⟩

theorem witness_OperationsComplete_others :
    [OpType.scrub, .dramTest, .checkpoint].all (fun t => completeEnabled 3 0xE001#16 (opDev t .running (workArgs t) 0)) = true ∧
      completeEnabled 3 0#16 (opDev .scrub .running [1] 64) = true ∧ completeEnabled 3 0#16 (opDev .dramTest .running [1] 64) = true ∧
      completeEnabled 3 0#16 (opDev .checkpoint .running [0, 0, 0, 0, 64] 64) = true ∧
      completeEnabled 3 0#16 (opDev .checkpoint .running [1, 0, 0, 0, 64] 64) = true := by decide +kernel

theorem test_operation_fails : ((after (.opComplete 3 0xE001#16) (opDev .scrub .running [1] 0)).op 3).code = 0xE001#16 := by
  decide +kernel

/-! ### Witnesses: image load -/

/-- The first 44 bytes of an image header for one tile, with its flags, sections and hitch count. -/
def imgHead (flags secs hc : Nat) : Bytes :=
  [0x46#8, 0x4C#8, 0x45#8, 0x56#8] ++ leBytes 2 1 ++ leBytes 2 0 ++ leBytes 8 256 ++ leBytes 2 0x9840 ++ [0xA1#8, 1#8] ++
    leBytes 8 0 ++ [1#8, BitVec.ofNat 8 flags] ++ leBytes 2 secs ++ leBytes 4 0 ++ [BitVec.ofNat 8 hc, 0#8, 0#8, 0#8] ++ leBytes 4 0

/-- An image load under way in operation 3, with what has arrived and which checks have passed. -/
def loadDev (data : Bytes) (passed : List Nat) (f : ImageLoad → ImageLoad) : Dev :=
  { opDev .imageLoad .running [] 0 with
    loads := [f { op := 3, copy := 0, pad := 0, bytes := 256, data := data, passed := passed }] }

/-- A load of a hitch lead, its container's header valid. -/
def leadHead : Dev :=
  { loadDev ([0x46#8, 0x4C#8, 0x48#8, 0x54#8] ++ leBytes 2 1 ++ [2#8, 0#8] ++ leBytes 4 64 ++ leBytes 4 256 ++ leBytes 4 320 ++
      leBytes 4 256 ++ List.replicate 40 0#8 ++ padTo 256 (imgHead 2 5 2)) [] (fun l => { l with bytes := 576, hitch := true }) with
    settings := [(1, 2#64), (2, 2#64)] }

/-- The load in the table passes as a lead. -/
def passesAsLead (d : Dev) : Bool :=
  match d.loadOf 3 with
  | some l => l.hitch && (lowest (containerFails d.hitchSize l.bytes l.data ++
      headerFails (d.headerEnv State.reset.fuse l.pad l.imgBytes) l.img ++
      failAt (subHeaderOk d.hitchSize 0 (imJob l.img) l.img) 36 0x5009)).isNone
  | none => false

theorem witness_LoadChecks_header :
    (loadEnabled 3 (fun _ => (1, 0)) (loadDev (padTo 256 (imgHead 0 5 0)) [] id) = true ∧
        passesAsLead (loadDev (padTo 256 (imgHead 0 5 0)) [] id) = false) ∧
      (loadEnabled 3 (fun _ => (1, 0)) leadHead = true ∧ passesAsLead leadHead = true) ∧
      loadEnabled 3 (fun _ => (1, 0)) (loadDev (imgHead 0 5 0) [] id) = false := by decide +kernel

theorem test_header_magic :
    ((after (.loadHeaderCheck 3) (loadDev (List.replicate 256 0#8) [] id)).op 3).code = 0x5003#16 := by decide +kernel

theorem witness_LoadChecks_stages :
    loadEnabled 3 (fun _ => (2, 256)) (loadDev (padTo 576 (imgHead 0 5 0)) [1] id) = true ∧
      loadEnabled 3 (fun l => (3, keyOff l.img)) (loadDev (padTo 2240 (imgHead 1 5 0)) [1] id) = true ∧
      loadEnabled 3 (fun _ => (1, 32)) (loadDev (padTo 1984 (imgHead 0 5 0)) [1] id) = true ∧
      loadEnabled 3 (fun l => (5, if 0 < imSections l.img then (secOf l.img 0).off else 0))
        (loadDev (padTo 1984 (imgHead 0 5 0)) [1, 2] id) = true ∧
      (loadEnabled 3 (fun _ => (6, 0)) (loadDev (padTo 256 (imgHead 0 0 0)) [1, 2] fun l => { l with bodies := [(1, [])] }) = true ∧
        (loadDev (padTo 256 (imgHead 0 0 0)) [1, 2] fun l => { l with bodies := [(1, [])] }).tileSite 0 0 = some 0) ∧
      loadEnabled 3 (fun _ => (7, 0)) (loadDev (padTo 256 (imgHead 0 0 0)) [1, 2, 4] fun l => { l with tiles := [0] }) = true := by
  decide +kernel

/-- A section's body passes its check or names a code, and an image that fits gives its pass sites, or a code. -/
theorem witness_LoadChecks_bodies :
    (∀ img key i, (∃ c, bodyCheckOf img key i = .error c) ∨ ∃ b, bodyCheckOf img key i = .ok b) ∧
      (live.imageFits 0 (imgHead 0 0 0) [(0, List.replicate 12 0#8)]).toBool = true ∧
      (live.imageFits 0 (imgHead 0 0 0) []).toBool = false := by
  refine ⟨fun img key i => ?_, by decide +kernel, by decide +kernel⟩
  cases h : bodyCheckOf img key i with
  | error c => exact .inl ⟨c, rfl⟩
  | ok b => exact .inr ⟨b, rfl⟩

/-- A load whose every check has passed, of one device or of a lead whose member has verified. -/
def doneDev (hitch : Bool) : Dev :=
  { loadDev (padTo 256 (imgHead 0 0 0)) [1, 2, 4, 7] (fun l => { l with tiles := [0], hitch := hitch, bodies := [(0, List.replicate 12 0#8)] }) with
    settings := if hitch then [(1, 2#64), (2, 2#64)] else [],
    hitch := if hitch then some { jobId := List.replicate 32 0#8, verified := true, peersVerified := [1] } else none }

theorem witness_LoadCommits :
    (endsEarly 3 (loadDev [] [] fun l => { l with ended := true }) = true) ∧ commitEnabled 3 (doneDev false) = true ∧
      commitEnabled 3 (doneDev true) = true ∧
      ((doneDev false).loadOf 3).map (fun l => ((doneDev false).imageFits l.pad l.img l.bodies).toBool) = some true := by
  decide +kernel

theorem test_load_ends_early :
    ((after (.imageDeliveryEnd 3) (loadDev [] [] fun l => { l with ended := true })).op 3).code = 0x5001#16 := by decide +kernel

/-! ### Witnesses: hitches -/

/-- A member of a formed hitch of two, its link to the lead up, with what it has staged. -/
def memberDev (h : Option HitchLoad) : Dev :=
  { live with
    settings := [(1, 3#64), (2, 2#64), (3, 1#64)], hitchFormed := true, links := live.links.set 0 { state := .up, cfg := 8#32 },
    fab := { live.fab with hitchOk := [0] }, hitch := h,
    pads := live.pads.set 0 (some { pad0 with state := .ready, run := none }) }

theorem witness_HitchMembersFollowTheLead_member :
    [none, some { pad := some 0, data := [] }, some { pad := some 0, verified := true, ended := true },
        some ({ pad := some 0, verified := true, ended := true, committed := true } : HitchLoad)].all (fun h =>
      memberEnabled (memberDev h) && ((memberDev h).tookFrom 0).hitch == h && ((memberDev h).tookFrom 0).dropMember.loadPad == some 0) =
        true ∧
      (((memberDev none).tookFrom 0).checkWhole {} 0 256 []).toBool = false := by decide +kernel

/-- A sub-image that is staged whole passes or names its failure. -/
theorem witness_HitchMembersFollowTheLead_checks :
    ∀ (d : Dev) (fz : Fuse) (k : PadId) (n : Nat) (img : Bytes),
      (∃ c, d.checkWhole fz k n img = .error c) ∨ ∃ r, d.checkWhole fz k n img = .ok r := by
  intro d fz k n img
  cases d.checkWhole fz k n img with
  | error c => exact .inl ⟨c, rfl⟩
  | ok r => exact .inr ⟨r, rfl⟩

theorem test_member_answers_failure :
    (after .hitchLoadEnd (memberDev (some { pad := some 0, data := [] }))).hitch.map (·.verified) = some false := by decide +kernel
theorem test_member_stages : ((after (.hitchLoadBegin 256 []) (memberDev none)).pad 0).map (·.state) = some .loading := by
  decide +kernel

/-- A lead whose load waits for its member's VERIFIED or COMMITTED, in a cycle. -/
def leadDev (committing : Bool) (cycle : Nat) : Dev :=
  { loadDev [] [] (fun l => { l with hitch := true, committing := committing }) with
    settings := [(1, 2#64), (2, 2#64)], clk := { nclk := cycle }, hitch := some { jobId := [], ends := [(1, 0)], since := 0 },
    hitchFormed := true, links := live.links.set 0 { state := .up, cfg := 8#32 }, fab := { live.fab with hitchOk := [0] },
    tiles := live.tiles.set 0 { tile0 with ctl := tile0.ctl.setShadow 1 } }

theorem witness_HitchMembersFollowTheLead_lead :
    leadWaits false (leadDev false 100) = true ∧ leadWaits true (leadDev true 100) = true ∧
      (leadDev false 100).members.contains 1 = true ∧ (leadDev false 100).members.all (insertNat 1 []).contains = true ∧
      verifiedLate (leadDev false (msN 50)) = true ∧ verifiedLate (leadDev false (msN 50 - 1)) = false ∧
      committedLate (leadDev true (msN 10)) = true ∧ committedLate (leadDev true (msN 10 - 1)) = false ∧
      ((leadDev false 100).tookFrom 1).leadLoad.isSome = true ∧ ((leadDev true 100).tookFrom 1).leadLoad.isSome = true ∧
      (leadDev false 100).role = 2 ∧ (leadDev false 100).hitchOpen 1 = true ∧ (leadDev false 100).hitchTrusts 1 = true := by decide +kernel

/-- A hitch link that is not trusted. -/
def strange (d : Dev) : Dev := d.modLink 0 fun l => { l with cfg := 0#32 }

theorem witness_HitchMembersFollowTheLead_untrusted :
    ((strange (memberDev none)).hitchLink 0 = some 0 ∧ (strange (memberDev none)).hitchOpen 0 = true ∧
        (strange (memberDev none)).trusted 0 = false ∧ (strange (memberDev none)).role = 3) ∧
      ((strange (leadDev false 100)).hitchLink 1 = some 0 ∧ (strange (leadDev false 100)).hitchOpen 1 = true ∧
        (strange (leadDev false 100)).trusted 0 = false ∧ (strange (leadDev false 100)).role = 2 ∧
        (strange (leadDev false 100)).members.contains 1 = true) := by decide +kernel

theorem test_verified_other_job :
    ((after (.hitchVerified 1 [1#8] 0#16) (leadDev false 100)).op 3).code = 0x5009#16 := by decide +kernel
theorem test_hitch_position :
    ((after (.hitchVerified 1 [1#8] 0#16) (leadDev false 100)).op 3).position = some 1 := by decide +kernel

/-! ### Witnesses: fabric links -/

/-- Link 0 of a device with a fabric role. -/
def linkDev (l : Link) : Dev :=
  { live with links := live.links.set 0 { l with cfg := 0x9#32 }, settings := [(1, 1#64)] }

/-- A good lane of link 0 in a state of the link; lanes 1 to 7 are as at the start. -/
def laneDev (st : LinkState) (locked : Bool) : Dev :=
  linkDev { state := st, pmdDone := true, lanes := (Vector.replicate 8 {}).set 0 { locked := locked } }

theorem witness_LinksAlignGoodLanes :
    pmdEnabled 0 (linkDev { state := .training }) = true ∧
      ((laneDev .training false).running = true ∧ ((laneDev .training false).link 0).hears = true ∧
        ((laneDev .training false).link 0).aligning = true ∧ (0 : Fin 8).val < (laneDev .training false).linkLanes 0) ∧
      (cwSync (cwHdrOf 7#8 0 1) = true ∧ cwMark (cwHdrOf 7#8 0 1) = 1 ∧ allZero ((List.replicate 640 0#8).drop 2) = true ∧
        (((laneDev .training false).link 0).lanes[(0 : Fin 8)]).good = true ∧ cwMark (cwHdrOf 7#8 0 3) = 3) ∧
      (((laneDev .up true).link 0).hears = true ∧ ((laneDev .up true).link 0).aligning = false ∧ ((laneDev .up true).link 0).rxSlot = none ∧
        ({ state := .up, rxSlot := some 0#8 } : Link).rxSlot.isSome = true) ∧
      lockLate 0 7 { laneDev .training false with clk := { nclk := msN 100 } } = true ∧
      lockLate 0 7 { laneDev .training false with clk := { nclk := msN 100 - 1 } } = false ∧
      retireLaneEnabled 0 0 .lostSync (laneDev .up true) = true ∧ retireLaneEnabled 0 0 .lostSync (laneDev .handshake true) = true ∧
      downRetryEnabled 0 { linkDev { state := .down, backoff := 64 } with clk := { nclk := msN 64000 } } = true ∧
      downRetryEnabled 0 { linkDev { state := .down, backoff := 64 } with clk := { nclk := msN 64000 - 1 } } = false := by
  decide +kernel

theorem test_align_locks :
    (((after (.alignCodeword 0 0 (some 3) (cwHdrOf 7#8 0 1) (List.replicate 640 0#8)) (laneDev .training false)).link 0).lanes[0]).locked =
      true := by decide +kernel
theorem test_align_counts_symbols :
    (((after (.alignCodeword 0 0 (some 3) (cwHdrOf 7#8 0 2) (List.replicate 640 0#8)) (laneDev .training false)).link 0).lanes[0]).symCorr.val = 3#64 := by
  decide +kernel

theorem test_lane_retire_state :
    ((after (.laneRetire 0 0 .lostSync) (laneDev .up true)).link 0).state = .retrain := by decide +kernel

/-- A frame that waits for its acknowledgement. -/
def sentFrame (seq : BitVec 32) : SentFrame := { ftype := .data, seq := seq, flits := [], times := 1 }

theorem witness_LinksSendByPriority :
    ((linkDev { state := .down }).link 0).aligning = false ∧ ((laneDev .retrain true).link 0).aligning = true ∧
      Link.nakNow { state := .up, nakDue := true } = true ∧ Link.nakNow { state := .up } = false ∧
      (∀ e, (Link.emitReplay { state := .up, replay := [sentFrame 1#32], nextSeq := 2#32 } 1#32 100).replay.head? = some e → e.times < 8) ∧
      (List.replicate 256 (sentFrame 1#32)).length = 256 ∧
      replayLate 0 { linkDev { state := .up, replay := [sentFrame 1#32] } with clk := { nclk := usN 2 } } = true ∧
      replayLate 0 { linkDev { state := .up, replay := [sentFrame 1#32] } with clk := { nclk := usN 2 - 1 } } = false := by
  refine ⟨by decide +kernel, by decide +kernel, by decide +kernel, by decide +kernel, ?_, by decide +kernel, by decide +kernel,
    by decide +kernel⟩
  intro e h
  have : e = { sentFrame 1#32 with times := 2 } := by
    have g : (Link.emitReplay { state := .up, replay := [sentFrame 1#32], nextSeq := 2#32 } 1#32 100).replay.head? =
      some { sentFrame 1#32 with times := 2 } := by decide +kernel
    rw [g] at h; exact (Option.some.inj h).symm
  rw [this]; decide

/-- A link that is up at the start of a slot or within one, with a replay asked for, and flits or fragments to send. -/
def sendLink (no : Nat) : Link := { state := .up, width := 2, frameNo := no, replay := [sentFrame 1#32], nextSeq := 2#32, replayWait := true }

theorem witness_LinksSendByPriority_work :
    ((sendLink 4).slotStart = true ∧ (sendLink 5).slotStart = false) ∧
      ((sendLink 4).enterReplay 100).replayFrom = some 1#32 ∧ ((sendLink 5).enterReplay 100) = sendLink 5 ∧
      ({ state := .handshake, txFrags := [[1#8]] } : Link).txFrags = [[1#8]] ∧ ({ state := .handshake } : Link).txFrags = [] ∧
      (Dev.takeFlits 0 9 (linkDev { state := .up })).2 = [] := by decide +kernel

theorem test_replay_starts :
    ((after (.frameTransmit 0) (linkDev (sendLink 4))).link 0).replays.val = 1#32 := by decide +kernel
theorem test_replay_waits_for_slot :
    ((after (.frameTransmit 0) (linkDev (sendLink 5))).link 0).replayWait = true := by decide +kernel

theorem test_nak_sent_once : ((after (.frameTransmit 0) (linkDev { state := .up, nakDue := true })).link 0).nakDue = false := by
  decide +kernel

/-- A frame of a type that is well formed, with its flags, SEQ and ACK, on lane 0 in slot 7. -/
def frame (ft : FrameType) (flags : Byte) (seq ack : BitVec 32) : Frame :=
  let f : Frame :=
    { lane := 0, fec := some 0, hdr := cwHdrOf 7#8 0 0, ftype := BitVec.ofNat 8 ft.code, flags := flags, flitMask := 0#16, flitVc := 0#32,
      seq := seq, ack := ack, credit := [], txCount := 0#64, reserved := 0#80, slots := [], tag := [], crc := 0#32 }
  { f with crc := crc32 (frameHeadOf f ++ f.slots ++ f.tag) }

/-- A link in HANDSHAKE on one lane that expects SEQ 5 and has had nothing of its own acknowledged. -/
def hsLink : Link := { state := .handshake, expected := 5#32, mask := 1#8, peerMask := some 1#8, width := 1 }

theorem witness_FramesCheckedInOrder :
    [FrameType.idle, .data, .nak, .control].all (fun ft => receiveEnabled 0 ft (frame ft 0#8 0#32 0#32) (linkDev hsLink) &&
        frameFormed ft (frame ft 0#8 0#32 0#32) && frameCrcOk (frame ft 0#8 0#32 0#32)) = true ∧
      (hsLink.takes = true ∧ hsLink.logical 0 = some 0 ∧ cwSync (frame .idle 0#8 0#32 0#32).hdr = true ∧
        cwLane (frame .idle 0#8 0#32 0#32).hdr = 0 ∧ hsLink.frameIndex (frame .idle 0#8 0#32 0#32) = some hsLink.rxNo ∧ hsLink.rxHeld = []) ∧
      hsLink.ackBad 0#32 = false ∧ hsLink.ackBad 0x80000000#32 = true ∧
      hsLink.notAdmitted .data (frame .data 0#8 5#32 0#32) = true ∧
      [FrameType.idle, .nak, .control].all (fun ft => !(hsLink.notAdmitted ft (frame ft 0#8 0#32 0#32)) &&
        hsLink.openFrame (frame ft 0#8 0#32 0#32) == some []) = true ∧
      (∀ k iv aad ct tag, Config.gcmOpen k iv aad ct tag = none ∨ ∃ pt, Config.gcmOpen k iv aad ct tag = some pt) ∧
      seqDist 0xFFFFFF05#32 5#32 ≤ 2 ^ 32 ∧ seqDist 4#32 5#32 ≤ 256 ∧ 256 < seqDist 6#32 5#32 := by
  refine ⟨by decide +kernel, by decide +kernel, by decide +kernel, by decide +kernel, by decide +kernel, by decide +kernel,
    fun k iv aad ct tag => ?_, by decide +kernel, by decide +kernel, by decide +kernel⟩
  cases Config.gcmOpen k iv aad ct tag with
  | none => exact .inl rfl
  | some pt => exact .inr ⟨pt, rfl⟩

/-- A codeword that no link takes, on a lane that is not in use, of another SYNC, with no place, and ahead of its turn: the link's
next frame stands in slot 7, and slots up to 16 on have their place (R338, R339). -/
theorem witness_FramesCheckedInOrder_places :
    let l : Link := { hsLink with rxSlot := some 7#8, rxNo := 4 }
    let at_ (count : Byte) : Frame := { frame .idle 0#8 0#32 0#32 with hdr := cwHdrOf count 0 0 }
    ((linkDev { state := .retrain }).link 0).takes = false ∧ hsLink.logical 1 = none ∧ cwSync 0#20 = false ∧
      l.frameIndex (at_ 24#8) = none ∧ l.frameIndex (at_ 6#8) = none ∧ l.frameIndex (at_ 23#8) = some 20 ∧ l.frameIndex (at_ 7#8) = some 4 := by
  decide +kernel

/-- A frame ahead of its turn waits for the one before it. -/
theorem test_frame_waits :
    (((after (.controlFrame 0 { frame .control 0#8 5#32 0#32 with hdr := cwHdrOf 8#8 0 0 }) (linkDev { hsLink with rxSlot := some 7#8 })).link
      0).rxHeld.map (·.1)) = [1] := by decide +kernel
theorem test_frame_gap_asks : ((after (.controlFrame 0 (frame .control 0#8 6#32 0#32)) (linkDev hsLink)).link 0).nakDue = true := by
  decide +kernel
theorem test_frame_duplicate_silent :
    ((after (.controlFrame 0 (frame .control 0#8 4#32 0#32)) (linkDev hsLink)).link 0).nakDue = false := by decide +kernel
/-- The check value of CRC-32. -/
theorem test_crc32 : crc32 [0x31#8, 0x32#8, 0x33#8, 0x34#8, 0x35#8, 0x36#8, 0x37#8, 0x38#8, 0x39#8] = 0xCBF43926#32 := by decide +kernel

/-- The same link after tag failures in the cycles named. -/
def failedLink (at_ : List Nat) : Link := { hsLink with tagFailAt := at_ }

theorem witness_ThirdTagFailureQuarantines :
    let f := frame .control 2#8 5#32 0#32
    receiveEnabled 0 .control f (linkDev (failedLink [50])) = true ∧
      ((failedLink [50]).takes = true ∧ (failedLink [50]).logical 0 = some 0 ∧ (failedLink [50]).frameIndex f = some (failedLink [50]).rxNo) ∧
      frameFormed .control f = true ∧ frameCrcOk f = true ∧
      (failedLink [50]).ackBad 0#32 = false ∧ (failedLink [50]).notAdmitted .control f = false ∧
      (failedLink [50]).openFrame f = none ∧ (within 100 (msN 1000) [50]).length < 2 ∧
      2 ≤ (within 100 (msN 1000) [50, 60]).length := by decide +kernel

theorem test_third_tag_failure :
    ((after (.controlFrame 0 (frame .control 2#8 5#32 0#32)) (linkDev (failedLink [50, 60]))).link 0).state = .quarantined := by
  decide +kernel
theorem test_second_tag_failure :
    ((after (.controlFrame 0 (frame .control 2#8 5#32 0#32)) (linkDev (failedLink [50]))).link 0).state = .handshake := by
  decide +kernel

/-- A link in HANDSHAKE that has had the messages named, as initiator or responder. -/
def shakeDev (got : List HsMsg) (initiator : Bool) : Dev :=
  linkDev { hsLink with hs := { got := got, initiator := initiator } }

/-- Messages of the handshake: what decapsulation, chain and signature checks say is one of two cases. -/
theorem witness_HandshakeAuthenticates :
    handshakeLate 0 { shakeDev [] false with clk := { nclk := msN 100 } } = true ∧
      ((shakeDev [] false).link 0).expects .hello [] = true ∧
      ((shakeDev [.hello] false).link 0).expects .kemKey [.hello] = true ∧
      ((shakeDev [.hello] true).link 0).expects .kemCt [.hello] = true ∧
      ((shakeDev [.hello, .kemKey] false).link 0).expects .cert [.hello, .kemKey] = true ∧
      ((shakeDev [.hello, .kemCt] true).link 0).expects .cert [.hello, .kemCt] = true ∧
      ((shakeDev [.cert] true).link 0).expects .sig [.cert] = true ∧
      ((shakeDev [.sig] true).link 0).expects .finished [.sig] = true ∧ (0#64).toNat < (1#64).toNat ∧
      (List.replicate 1568 0#8).length = 1568 ∧
      (∀ seed ct, Config.kemDecaps seed ct = none ∨ ∃ ss, Config.kemDecaps seed ct = some ss) ∧
      (∀ key msg sig, Config.falconVerify key msg sig = false ∨ Config.falconVerify key msg sig = true) ∧
      (∀ (bs : Bytes) k d, bs ≠ Config.shake256 32 (k ++ d) ∨ bs = Config.shake256 32 (k ++ d)) := by
  refine ⟨by decide +kernel, by decide +kernel, by decide +kernel, by decide +kernel, by decide +kernel, by decide +kernel,
    by decide +kernel, by decide +kernel, by decide +kernel, List.length_replicate, fun seed ct => ?_, fun key msg sig => ?_,
    fun bs k d => (em _).symm⟩
  · cases Config.kemDecaps seed ct with
    | none => exact .inl rfl
    | some ss => exact .inr ⟨ss, rfl⟩
  · cases Config.falconVerify key msg sig with
    | false => exact .inl rfl
    | true => exact .inr rfl

theorem test_hello_loopback :
    ((after (.hello 0 { version := 1#16, serial := 0#64, role := 0#8, reserved := 0#8, nonce := List.replicate 32 0#8 })
      (shakeDev [] false)).link 0).state = .quarantined := by decide +kernel

/-- A link that is up, as initiator or responder, rekeying or not. -/
def upDev (initiator rekeying : Bool) (tx : Nat) : Dev :=
  linkDev { state := .up, txCount := tx, rekeying := rekeying, hs := { initiator := initiator } }

theorem witness_RekeyReplacesKeys :
    (upDev true false 0).running = true ∧ ((upDev true false 0).link 0).state = .up ∧
      rekeyDue 0 (upDev true false (2 ^ 40)) = true ∧ rekeyDue 0 (upDev false false (2 ^ 40)) = true ∧
      rekeyDue 0 (upDev true false (2 ^ 40 - 1)) = false ∧ (upDev true false 0).entropyOk = true ∧
      ({ upDev true false 0 with entropyOk := false } : Dev).entropyOk = false ∧ ((upDev true true 0).link 0).rxNew = none := by
  decide +kernel

theorem test_rekey_without_entropy :
    ((after (.rekeyReq 0) { upDev true false 0 with entropyOk := false }).link 0).state = .down := by decide +kernel

/-! ### Witnesses: the fabric -/

/-- Device 5 with links 0 and 1 up and trusted; device 9 lies behind link 1. -/
def fabDev : Dev :=
  { live with
    settings := [(1, 1#64)], links := (live.links.set 0 { state := .up, cfg := 0x9#32 }).set 1 { state := .up, cfg := 0x9#32 },
    fab := { live.fab with devCfg := 0x58#32, routes0 := [(9, 0x21#16)], brands := live.fab.brands.set 0 0x10007#32 } }

/-- A packet of a type and class for a device. -/
def pkt (typ : BitVec 6) (cls : BitVec 2) (dest : BitVec 14) : FabPkt := { blankPkt with typ := typ, cls := cls, dest := dest, brand := 7#16 }

theorem witness_HopsCountForwarding :
    fabDev.hop fabDev.injEpoch 9#14 0#16 false = .link 1 false ∧ fabDev.hasPkt 0 (pkt 0x12#6 1#2 9#14) = true ∧
      fabDev.isMine (pkt 0x12#6 1#2 9#14) = false ∧ (62#6 ≠ 63#6) ∧
      (fabDev.hasPkt 0 (pkt 0x12#6 1#2 10#14) = true ∧ fabDev.isMine (pkt 0x12#6 1#2 10#14) = false ∧
        fabDev.hop 0#1 10#14 0#16 false = .nowhere) ∧
      (fabDev.hasPkt 0 (pkt 0x20#6 2#2 9#14) = true ∧ fabDev.isMine (pkt 0x20#6 2#2 9#14) = false ∧
        mgTree (pkt 0x20#6 2#2 9#14) = 0 ∧ fabDev.trusts 0 (pkt 0x20#6 2#2 9#14) = true ∧
        fabDev.hop 0#1 9#14 0#16 true = .link 1 false) := by decide +kernel

theorem test_hop_limit :
    (after (.packetSwitch 0 { pkt 0x12#6 1#2 9#14 with hops := 63#6 }) fabDev).fab.dropTtl.val = 1#32 := by decide +kernel
theorem test_hop_last :
    (after (.packetSwitch 0 { pkt 0x12#6 1#2 9#14 with hops := 62#6 }) fabDev).fab.dropTtl.val = 0#32 := by decide +kernel

/-- A request of 64 bytes for DRAM at an offset of loft 0. -/
def req (typ : BitVec 6) (size : BitVec 13) (len : BitVec 7) (a : BitVec 39) : FabPkt :=
  { pkt typ 0#2 5#14 with size := size, len := len, laddr := a, payload := List.replicate 64 3#8 }

/-- A BELL_ADD of 1 as an ATOMIC for bell 47 of tile 0. -/
def bellReq : FabPkt := { pkt 3#6 0#2 5#14 with space := 3#3, size := 8#13, laddr := 47#39, operand := [1#8] ++ List.replicate 31 0#8 }

/-- What a request needs beside its type. -/
def goodReq (p : FabPkt) : Bool :=
  let t := fabDev.takePkt 0 p
  pktWellFormed p && (p.typ != 3#6 || atomicOk p) && t.brandPad p.brand == some 0 && t.sealedTakes {} 0 (fabDev.fab.loop.contains p) 0

/-- The request has come to the place that it names. -/
def placed (d : Dev) (p : FabPkt) : Dev :=
  match d.pktFrom 0 p with
  | some e => (d.takePkt 0 p).carryRequest e 0 p
  | none => d.takePkt 0 p

theorem witness_RequestsPerformedAndAnswered :
    [1, 2, 3, 4, 5].all (fun n => requestEnabled 0 n (pkt (BitVec.ofNat 6 n) 0#2 5#14) fabDev &&
        !pktWellFormed (pkt (BitVec.ofNat 6 n) 0#2 5#14)) = true ∧
      (pktWellFormed { req 2#6 64#13 1#7 0#39 with brand := 8#16 } = true ∧ (fabDev.takePkt 0 (req 2#6 64#13 1#7 0#39)).brandPad 8#16 = none) ∧
      [req 2#6 64#13 1#7 (BitVec.ofNat 39 (65536 - 64)), req 2#6 64#13 1#7 65536#39, req 4#6 16#13 1#7 0#39, req 1#6 64#13 0#7 0#39].all
        goodReq = true ∧
      (placed fabDev (req 2#6 64#13 1#7 (BitVec.ofNat 39 (65536 - 64)))).dramStatus 0 (65536 - 64) 64 = 0 ∧
      (placed fabDev (req 2#6 64#13 1#7 65536#39)).dramStatus 0 65536 64 ≠ 0 ∧ finOf 48 (dramLoft 0) = some (0 : SiteId) ∧
      [(req 4#6 16#13 1#7 0#39, 4 * 16), (req 1#6 64#13 0#7 0#39, 64)].all (fun x => (placed fabDev x.1).dramStatus 0 0 x.2 == 0 &&
        ((placed fabDev x.1).loft 0).badIn 0 x.2 == none) = true ∧ dramLoft 0 = dramLoft (0 + 4 * 16 - 1) ∧
      (goodReq bellReq = true ∧ requestEnabled 0 3 bellReq fabDev = true ∧ (placed fabDev bellReq).laSite 0 47 = some 0 ∧
        (placed fabDev bellReq).power 0 < 2 ∧ (placed fabDev bellReq).runOpen (some 0) = true) ∧
      goodReq { pkt 5#6 0#2 5#14 with space := 2#3, size := 8#13, len := 1#7 } = true := by decide +kernel

/-- A device whose tile takes scratchpad requests and messages: its queue 0 is enabled, with `n` entries and a rank. -/
def openFab (n : Nat) : Dev :=
  fabDev.modTile 0 fun t => { t with
    ctl := { t.ctl with rank := 9#16 }, queues := t.queues.set 0 { cfg := 1#16, entries := List.replicate n [] } }

/-- A message of 8 bytes for queue 0 of tile 0. -/
def msgReq : FabPkt := { pkt 5#6 0#2 5#14 with space := 2#3, size := 8#13, len := 1#7 }

theorem witness_RequestsPerformedAndAnswered_ports :
    ([1, 2].all fun n =>
        let p := { req (BitVec.ofNat 6 n) 64#13 (if n == 1 then 0#7 else 1#7) 0#39 with space := 1#3 }
        goodReq p && (placed (openFab 0) p).laSite 0 0 == some 0 && (placed (openFab 0) p).spadStatus 0 0 64 == 0 &&
        (placed fabDev p).spadStatus 0 0 64 != 0) = true ∧
      ((fabDev.tile 0).arr.any (fun x => x.msu == (fabDev.tile 0).fabMsu) = false ∧
        ((fabDev.arrive 0 { msu := 0, kind := .bell, addr := 0, left := 1 }).tile 0).arr.any (fun x => x.msu == (fabDev.tile 0).fabMsu) = true) ∧
      ((openFab 0).messageTurn msgReq = true ∧ ((placed (openFab 0) msgReq).doMessage 0 msgReq).2.isSome = true ∧
        ((placed (openFab 16) msgReq).doMessage 0 msgReq).2.isSome = false) ∧ fabDev.counterTurn bellReq = true := by decide +kernel

/-- The tile is in RETAIN. -/
def retained (d : Dev) : Dev := d.modTile 0 fun t => { t with power := 2#8 }

theorem witness_RequestsPerformedAndAnswered_asleep :
    goodReq bellReq = true ∧ requestEnabled 0 3 bellReq (retained fabDev) = true ∧ (placed (retained fabDev) bellReq).laSite 0 47 = some 0 ∧
      2 ≤ (placed (retained fabDev) bellReq).power 0 := by decide +kernel

theorem test_asleep_bell : ((after (.fabAtomic 0 bellReq .clean) (retained fabDev)).tile 0).arr = [] := by decide +kernel

theorem test_store_granted :
    ((after (.fabStore 0 (req 2#6 64#13 1#7 (BitVec.ofNat 39 (65536 - 64)))) fabDev).loft 0).mem.readN 65535 2 = [3#8, 0#8] := by
  decide +kernel
theorem test_store_brand :
    (after (.fabStore 0 { req 2#6 64#13 1#7 0#39 with brand := 8#16 }) fabDev).fab.dropBrand.val = 1#32 := by decide +kernel
/-- A bell add of a request waits for its turn at the port. -/
theorem test_atomic_bell_waits :
    ((after (.fabAtomic 0 bellReq .clean) fabDev).tile 0).arr.map (fun a => (a.kind == .bell, a.addr, a.left)) = [(true, 47, 1)] := by
  decide +kernel
theorem test_atomic_bell_turn :
    (((after (.fabAtomic 0 bellReq .clean) fabDev).bellTurn 0 0).tile 0).bellNow = [(47, 1)] := by decide +kernel

/-- A remote use of tag 2 of site 0 by descriptor `x`, sent in a cycle. -/
def use (x sentAt : Nat) : RmUse :=
  { issued := { desc := x, ctx := 2 }, row := 0, sentAt := sentAt, timer := sentAt, dest := 9#14, epoch := 1#1, msu := 0, brand := 7#16 }

/-- The device with a remote engine. -/
def rmDev (r : Remote) : Dev := fabDev.modTile 0 fun t => { t with rm := r }

/-- Tag 2 is held with SEQ 4. -/
def heldTag (x sentAt : Nat) : Vector RmTag 128 := (Vector.replicate 128 {}).set 2 { seq := 4#16, held := some (use x sentAt) }

/-- A response to it. -/
def rsp (typ : BitVec 6) (seq : BitVec 16) (status : Byte) : FabPkt :=
  { pkt typ 1#2 5#14 with
    tag := tagOf 2 0 0, seq := seq, status := status, size := if typ = 0x11#6 then 64#13 else 8#13,
    len := if typ = 0x11#6 then (if status = 0#8 then 1#7 else 0#7) else 0#7 }

theorem witness_ResponsesMatchedByTag :
    [(0x11#6, 0x11), (0x12#6, 0x12), (0x13#6, 0x13)].all (fun x =>
        responseEnabled 0 x.2 (rsp x.1 4#16 0#8) (rmDev { tags := heldTag 0 0 }) && pktWellFormed (rsp x.1 4#16 0#8) &&
        pktWellFormed (rsp x.1 4#16 3#8) && !pktWellFormed { rsp x.1 4#16 0#8 with cls := 0#2 }) = true ∧
      (finOf 48 (tagSite (tagOf 2 0 0)) = some (0 : SiteId) ∧ tagKind (tagOf 2 0 0) = 0 ∧ (rmDev {}).hasTile 0 = true ∧
        finOf 128 (tagIdx (tagOf 2 0 0)) = some (2 : Fin 128)) ∧
      ((heldTag 0 0)[2]).held.isSome = true ∧ ((heldTag 0 0)[2]).seq = 4#16 ∧ (use 0 0).brand = 7#16 := by decide +kernel

theorem test_response_stale :
    ((after (.fabAck 0 (rsp 0x12#6 5#16 0#8)) (rmDev { tags := heldTag 0 0 })).tile 0).rm.stale.val = 1#32 := by decide +kernel
theorem test_response_frees :
    (((after (.fabAck 0 (rsp 0x12#6 4#16 0#8)) (rmDev { tags := heldTag 0 0 })).tile 0).rm.tags[2]).held.isNone = true := by
  decide +kernel

/-- A GET of one row of 64 bytes from loft 0 of device 9, and one whose row address is not a multiple of 64. -/
def getDesc (addr : Nat) : Nat := (9 * 2 ^ 39 + addr) * 2 ^ 64 + 64 * 2 ^ 160 + 1 * 2 ^ 192

theorem witness_RemoteEngineSendsAndCompletes :
    (sendRmEnabled 0 (rmDev { running := some { desc := getDesc 4, ctx := 2 } }) = true ∧ rdRowOk (getDesc 4) 0 = false) ∧
      (sendRmEnabled 0 (rmDev { running := some { desc := getDesc 0, ctx := 2 } }) = true ∧ rdRowOk (getDesc 0) 0 = true ∧
        Remote.freeTag {} = some 0) ∧
      Remote.holds { tags := heldTag 0 0 } (rdMsu (getDesc 0)) (BitVec.ofNat 14 (rdFaddr (getDesc 0) / 2 ^ 39)) 0#1 = true ∧
      (rmCompleteEnabled 0 (rmDev { tail := [({ desc := getDesc 0, ctx := 2 }, 1)] }) = true ∧
        Remote.finished { tail := [({ desc := getDesc 0, ctx := 2 }, 1)] } 100 = some ({ desc := getDesc 0, ctx := 2 }, false) ∧
        rdBellEn (getDesc 0) = false) ∧
      timeoutEnabled 0 2 { rmDev { tags := heldTag 0 0 } with clk := { nclk := 1048576 } } = true ∧
      timeoutEnabled 0 2 { rmDev { tags := heldTag 0 0 } with clk := { nclk := 1048575 } } = false := by decide +kernel

theorem test_remote_request :
    ((after (.remoteRequestSend 0) (rmDev { running := some { desc := getDesc 0, ctx := 2 } })).fab.out.map (·.1)) = [1] := by
  decide +kernel

/-- The device with the best candidate known, and its master. -/
def electDev (best : Option (BitVec 64 × Nat)) (master : BitVec 64) (cycle : Nat) : Dev :=
  { fabDev with clk := { nclk := cycle }, fab := { fabDev.fab with best := best, master := master, masterDev := some 0#14, parent := none } }

theorem witness_FabricElectsAndNumbers :
    (fabDev.running = true ∧ (fabDev.link 0).state = .up ∧ (fabDev.freeFlits 0 4).trusted 0 = true ∧ fabDev.hitchLinks = []) ∧
      ({ fabDev with links := fabDev.links.set 0 { state := .up } } : Dev).trusted 0 = false ∧
      ((electDev (some (7#64, 3)) 0#64 0).electAssigned = false ∧ betterCand 8 3 7 3 = false ∧ betterCand 6 3 7 3 = true) ∧
      electionEnabled (electDev (some (7#64, 3)) 0#64 (msN 250)) = true ∧
      electionEnabled (electDev (some (7#64, 3)) 0#64 (msN 250 - 1)) = false ∧ fabDev.isMaster = false ∧
      (electDev none 7#64 0).fromMaster 0 7#64 = true := by decide +kernel

/-- A report and an ASSIGN on their way: the parent is link 1, and serial 3 was reported on link 1. -/
def treeDev (parent : Option LinkId) : Dev :=
  let d := electDev none 7#64 0
  { d with fab := { d.fab with parent := parent, records := [(3#64, 1)] } }

/-- A link of the hitch to which a device of another position is connected. -/
theorem witness_FabricElectsAndNumbers_tree :
    ((memberDev none).hitchLinks.find? (fun h => h.1 == (0 : LinkId)) = some (0, 0) ∧
        [1, 2].all (fun size => (memberDev none).hitchMatch 0
          { serial := 3#64, role := 2, hitchSize := size, hitchPos := 0, priority := 0, number := none, linkIdx := 0 } == decide (size = 2)) =
          true) ∧
      ((treeDev (some 1)).fab.parent = some 1 ∧ (treeDev none).fab.parent = none ∧ (treeDev none).isMaster = false ∧
        (treeDev none).trusted 0 = true ∧ (treeDev none).fromMaster 0 7#64 = true ∧ (treeDev none).recorded 3#64 = some 1) ∧
      (0#64 ≠ 3#64 ∧ 62#6 ≠ 63#6) := by decide +kernel

theorem test_assign_forwards : (after (.assign 0 62#6 7#64 3#64 12#14) (treeDev none)).fab.out.map (fun o => (o.link, o.pkt)) =
    [(1, .assign 63#6 3#64 12#14)] := by decide +kernel
theorem test_report_hop_limit :
    (after (.topologyReport 0 63#6 (fabDev.myTopology 3#64)) (treeDev (some 1))).fab.dropTtl.val = 1#32 := by decide +kernel

theorem test_assign_number : (after (.assign 0 0#6 7#64 0#64 12#14) (electDev none 7#64 0)).number = 12#14 := by decide +kernel
theorem test_assign_refused : (after (.assign 0 0#6 8#64 0#64 12#14) (electDev none 7#64 0)).number = 5#14 := by decide +kernel

/-- A management message of the master for this device: its code, tree, version and operand. -/
def mgmt (code tree version first : Nat) (n : Nat) : FabPkt :=
  { pkt 0x20#6 2#2 5#14 with
    brand := 0#16, space := 5#3, size := BitVec.ofNat 13 (2 * n), len := BitVec.ofNat 7 (ceilDiv (2 * n) 64),
    operand := padTo 32 (leBytes 2 code ++ leBytes 1 tree ++ [0#8] ++ leBytes 1 version ++ [0#8] ++ leBytes 2 first),
    payload := List.replicate 4096 0x2F#8 }

theorem witness_RoutesWrittenByTheMaster :
    ((electDev none 7#64 (usN 64)).masterSent 0 8#64 (mgmt 7 2 1 0 0) = false ∧
        (electDev none 7#64 (usN 64)).masterSent 0 8#64 { mgmt 7 0 1 0 0 with src := 1#14 } = false) ∧
      [mgmt 5 0 1 16383 1, mgmt 5 0 1 0 2048].all (fun p => (electDev none 7#64 (usN 64)).masterSent 0 7#64 p &&
        ((electDev none 7#64 (usN 64)).seeMaster p).mgMine 0#64 p && pktWellFormed p && mgCode p == 5) = true ∧
      (electDev none 7#64 (usN 64)).routeOpen 1#1 = true ∧ (electDev none 7#64 (usN 64)).routeOpen 0#1 = false ∧
      (electDev none 7#64 (usN 64 - 1)).routeOpen 1#1 = false ∧
      ((electDev none 7#64 0).masterSent 0 7#64 (mgmt 7 2 1 0 0) = true ∧ ((electDev none 7#64 0).seeMaster (mgmt 7 2 1 0 0)).mgMine 0#64 (mgmt 7 2 1 0 0) = true ∧ pktWellFormed (mgmt 7 2 1 0 0) = true ∧ mgTree (mgmt 7 2 1 0 0) = 2) ∧
      (pktWellFormed (mgmt 6 1 0 0 0) = true ∧ pktWellFormed { mgmt 6 1 0 0 0 with status := 1#8 } = true ∧
        mgCode (mgmt 6 1 0 0 0) = 6 ∧ mgTree (mgmt 6 1 0 0 0) = 1 ∧
        ({ fabDev with fab := { fabDev.fab with devCfg := 0x40058#32 } } : Dev).isMaster = true) := by decide +kernel

/-- A message of the master for serial 3 and a ROUTE_ACK of it, on the tree. -/
def treeMsg (code tree : Nat) (hops : BitVec 6) : FabPkt :=
  { mgmt code tree 0 0 0 with hops := hops, operand := padTo 32 (leBytes 2 code ++ leBytes 1 tree ++ List.replicate 5 0#8 ++ leBytes 8 (if tree = 2 then 3 else 0)) }

theorem witness_HopsCountForwarding_tree :
    [62#6, 63#6].all (fun h => mgTree (treeMsg 5 2 h) == 2 && (treeDev none).fromMaster 0 7#64 && mgTarget (treeMsg 5 2 h) == 3 &&
        (treeDev none).recorded (BitVec.ofNat 64 (mgTarget (treeMsg 5 2 h))) == some 1 && mgTree (treeMsg 6 1 h) == 1 &&
        pktWellFormed (treeMsg 6 1 h) && mgCode (treeMsg 6 1 h) == 6 && !(treeDev (some 1)).isMaster && (treeDev (some 1)).trusted 0 &&
        (treeDev (some 1)).fab.parent == some 1) = true := by decide +kernel

theorem test_tree_hop_limit : (after (.routeAck 0 3#64 (treeMsg 6 1 63#6)) (treeDev (some 1))).fab.dropTtl.val = 1#32 := by decide +kernel

/-- Bits 7 to 15 of an entry are reserved (R374). -/
theorem test_route_written :
    lookupNat 16383 (after (.routeWrite 0 7#64 (mgmt 5 0 1 16383 1)) (electDev none 7#64 (usN 64))).fab.routes1 = some 0x2F#16 := by
  decide +kernel
theorem test_route_not_open :
    (after (.routeWrite 0 7#64 (mgmt 5 0 1 16383 1)) (electDev none 7#64 (usN 64 - 1))).fab.routes1 = [] := by decide +kernel

/-- Barrier 0 spans devices: it has a parent, device 3, and a child, device 9. -/
def spanDev : Dev :=
  let d := fabDev.modPad 0 fun p => { p with carMap := 256#64 }
  { d with car := { d.car with
      bars := d.car.bars.set 0 { cfg := BitVec.ofNat 128 (5 + 2 ^ 16 + 2 ^ 24 + 2 ^ 29 + 3 * 2 ^ 32 + 7 * 2 ^ 48 + 2 ^ 68) },
      spans := d.car.spans.set 0 [9#14] } }

/-- A barrier packet of code 8 or 9 from a device, with its episode. -/
def barPkt (code : Nat) (src : BitVec 14) (e : Nat) : FabPkt :=
  { mgmt code 0 0 0 0 with brand := 7#16, src := src, operand := padTo 32 (leBytes 2 code ++ [0#8, 0#8, 0#8] ++ leBytes 1 e) }

theorem witness_SpanningBarriersFollowTheirTree :
    [barPkt 8 9#14 0, barPkt 9 3#14 1].all (fun p => spanDev.hasPkt 0 p && spanDev.isMine p && spanDev.trusted 0 && pktWellFormed p &&
        (spanDev.takePkt 0 p).brandPad p.brand == some 0 && (spanDev.takePkt 0 p).barOf 0 p == some 0) = true ∧
      (spanDev.bar 0).brand = 7#16 ∧ (spanDev.bar 0).spanning = true ∧ (spanDev.bar 0).hasParent = true ∧ (spanDev.bar 0).parent = 3 ∧
      (spanDev.children 0).contains 9#14 = true ∧ (spanDev.bar 0).enabled = true ∧ (spanDev.bar 0).episode = 0#2 := by decide +kernel

/-- The barrier is disabled, or stuck after an overrun, or has counted the child. -/
theorem witness_SpanningBarriersFollowTheirTree_overrun :
    (spanDev.bar 0).enabled = true ∧ ((spanDev.modBar 0 fun q => q.put 0).bar 0).enabled = false ∧
      ((spanDev.modBar 0 fun q => { q with stuck := true }).bar 0).stuck = true ∧ (spanDev.bar 0).stuck = false ∧
      ((after (.fabBarrierArrive 0 (barPkt 8 9#14 0)) spanDev).bar 0).children.contains 9#14 = true ∧
      [0, 1, 2, 3].map (fun e => mgByte (barPkt 8 9#14 e) 5 % 4) = [0, 1, 2, 3] ∧ ((spanDev.bar 0).episode - 1).toNat = 3 := by
  decide +kernel

/-- A packet of a link that is not trusted, of a device that is no child, and of a barrier of another brand. -/
theorem witness_SpanningBarriersFollowTheirTree_others :
    ((strange spanDev).trusted 0 = false ∧ (strange spanDev).fab.loop.contains (barPkt 8 9#14 0) = false ∧
        (strange spanDev).hasPkt 0 (barPkt 8 9#14 0) = true ∧ (strange spanDev).isMine (barPkt 8 9#14 0) = true) ∧
      ((spanDev.children 0).contains 4#14 = false ∧ (spanDev.bar 0).children.contains 9#14 = false ∧ mgByte (barPkt 9 3#14 2) 5 % 4 ≠ 1) ∧
      (((spanDev.modBar 0 fun q => { q with stuck := true, children := [9#14] }).bar 0).children.contains 9#14 = true) := by
  decide +kernel

theorem test_child_stale : ((after (.fabBarrierArrive 0 (barPkt 8 9#14 3)) spanDev).bar 0).stuck = true := by decide +kernel
theorem test_child_counted : ((after (.fabBarrierArrive 0 (barPkt 8 9#14 0)) spanDev).bar 0).children = [9#14] := by decide +kernel
theorem test_parent_releases : ((after (.fabBarrierRelease 0 (barPkt 9 3#14 1)) spanDev).bar 0).episode = 1#2 := by decide +kernel
theorem test_release_of_another : ((after (.fabBarrierRelease 0 (barPkt 9 4#14 1)) spanDev).bar 0).episode = 0#2 := by decide +kernel

/-! ### Witnesses: power, bring-up, registers, the owner port -/

/-- The device in a stage of bring-up. -/
def staged (st : BootStage) : Dev := { live with stage := st }

theorem witness_ResetKeepsFusesOnly : (staged .blocks).stage = .blocks ∧ ((staged .blocks).loft 0).trained = false := by decide

theorem test_porst_clears : (after .porstAssert live).pads[0] = none := by decide +kernel

theorem witness_BringUpInStages :
    (staged .inReset).stage = .inReset ∧ (staged .pll).stage = .pll ∧ (staged .lost).stage = .lost ∧ live.running = true ∧ (staged .rom).stage = .rom ∧
      ((staged .blocks).tested.contains 0 = false ∧ (staged .blocks).kinds[0] ≠ .retired) ∧
      readyEnabled { staged .blocks with lofts := Vector.replicate 48 { trained := true }, tested := fins 48 } = true ∧
      (∀ fz a, slotValid fz a = false ∨ slotValid fz a = true) := by
  refine ⟨rfl, rfl, rfl, by decide, rfl, by decide, by decide +kernel, fun fz a => ?_⟩
  cases slotValid fz a with
  | false => exact .inl rfl
  | true => exact .inr rfl

theorem test_no_valid_slot : (after (.firmwareSlotChoice [] [] [] none true) (staged .rom)).stage = .recovery := by decide +kernel

theorem witness_GovernorStepsWithTemperature :
    governorDue live = true ∧ governorDue (live.modYm fun y => { y with govAt := some 100 }) = false ∧ (hottest (List.replicate 48 800#16)).1.toInt = 800 ∧ (hottest (List.replicate 48 760#16)).1.toInt = 760 ∧
      (hottest (List.replicate 48 759#16)).1.toInt = 759 ∧ (hottest (List.replicate 48 841#16)).1.toInt = 841 := by decide +kernel

theorem test_governor_step_up :
    (after (.governorCheck { junction := List.replicate 48 800#16, amps := 0 }) (live.modYm fun y => { y with cap := 0, step := 0 })).ym.thermal =
      1 := by decide +kernel
theorem test_governor_holds :
    (after (.governorCheck { junction := List.replicate 48 799#16, amps := 0 }) (live.modYm fun y => { y with cap := 0, step := 0 })).ym.thermal =
      0 := by decide +kernel

/-- Core 0 in a state, core 3 the standby, and a handover of core 0 may wait. -/
def coreDev (st : CoreState) (due : Bool) : Dev :=
  live.modYm fun y => { y with cores := (y.cores.set 0 st).set 3 .standby, handover := if due then [(0, 50)] else [] }

theorem witness_EntropyAndCoresFailSafely :
    (live.running = true ∧ live.entropyOk = true ∧ ({ live with entropyOk := false } : Dev).entropyOk = false) ∧
      (coreDev .active false).worvis = true ∧ (coreDev .active false).ym.cores[0] = .active ∧
      [(msN 1, true), (msN 1 - 1, false)].all (fun x => journalDue 0 { coreDev .active false with clk := { nclk := x.1 } } == x.2) = true ∧ (coreDev .active false).ym.cores[3] = .standby ∧
      (coreDev .resetting true).ym.handover = [(0, 50)] ∧
      (fins 4).find? (fun c => (coreDev .resetting true).ym.cores[c] == .standby) = some 3 ∧
      (coreDev .resetting false).ym.cores[0] = .resetting := by decide +kernel

theorem test_handover : (after .coreHandover (coreDev .resetting true)).ym.cores[3] = .active := by decide +kernel

theorem witness_RegistersReadAndWritten :
    mayAccess (.tile 0) (.core 0) live = true ∧ mayAccess (.tile 0) .host live = false ∧ mayAccess .carillon .yardmaster live = true := by
  decide +kernel

theorem test_ctx_fault_cleared :
    ((after (.registerWrite (.tile 0) 0x18 (.core 0) 5#64) (live.modCtl 0 fun c => { c with ctxFault := 7#16 })).tile 0).ctl.ctxFault =
      2#16 := by decide +kernel

/-- The owner port has an address, and its buffer is in a state, its response's SEQ 7. -/
def i3cDev (st : MbState) : Dev := { live with i3cAddr := some 8#7, owner := { state := st, seq := 7#16 } }

theorem witness_OwnerPortTakesCommands :
    live.stage ≠ .inReset ∧ live.i3cAddr = none ∧ (i3cDev .ready).i3cAddr.isSome = true ∧ (i3cDev .ready).owner.state = .ready ∧
      (fieldAt [0x01#8, 0xFF#8, 7#8, 0#8] 2 2 = (i3cDev .ready).owner.seq.toNat) ∧ (i3cDev .empty).owner.state = .empty ∧
      ([0x01#8, 0x00#8, 7#8, 0#8] : Bytes).take 2 ≠ [0x01#8, 0xFF#8] := by decide +kernel

theorem test_owner_release : (after (.ownerResponseRelease [0x01#8, 0xFF#8, 7#8, 0#8]) (i3cDev .ready)).owner.state = .empty := by
  decide +kernel
theorem test_owner_release_other : (after (.ownerResponseRelease [0x01#8, 0xFF#8, 8#8, 0#8]) (i3cDev .ready)).owner.state = .ready := by
  decide +kernel

/-! ### Witnesses: commands that Worvis answers -/

/-- The fuses of a device in PROVISIONED, with an owner. -/
def owned : Fuse := { lifecycle := .provisioned, ownerId := some [1#8], store := { owner := some [2#8] } }

/-- Fuses that meet their invariant, and a step from them: PORST_N is released. -/
theorem witness_EveryStepKeepsFuseInvariant :
    owned.Inv ∧ ∃ t, step { fuse := owned, pending := [.porstRelease 0#2] } = .next t := by
  refine ⟨⟨by decide, rfl, rfl, by decide, by decide, by decide, by decide⟩, ?_⟩
  exact ⟨_, rfl⟩

/-- A step to hold the fuses against, and a state with an empty queue. -/
theorem witness_EveryStepMovesFusesOnward :
    (∃ t, step { fuse := owned, pending := [.porstAssert] } = .next t) ∧ State.reset.pending = [] ∧
      owned.lifecycle ≠ .manufacture ∧ ({ lifecycle := .manufacture } : Fuse).testPort = .access := ⟨⟨_, rfl⟩, rfl, by decide, rfl⟩

/-- A command of an opcode and a body waits in a carrier. -/
def asked (fz : Fuse) (d : Dev) (p : Port) (op : Nat) (body : Bytes) : State :=
  let b := Mailbox.submit {} (padTo 4096 (leBytes 2 op ++ leBytes 2 9 ++ leBytes 4 0 ++ leBytes 2 (16 + body.length) ++ leBytes 6 0 ++ body))
  { fuse := fz,
    dev := match p with
      | .mailbox n => d.modMb n fun _ => b
      | .owner => { d with owner := b }
      | .fabric k => { d with fabMbs := vmod d.fabMbs k fun _ => b } }

/-- The command that waits passes every check. -/
def passes (c : Cmd) (p : Port) (s : State) : Bool :=
  c.waits p s.dev && ((c.entry (s.env p) ++ c.checks (s.env p)).all (·.1) && (c.checks (c.woken (s.env p))).all (·.1))

theorem accepted_of_passes {c : Cmd} {p : Port} {s : State} (h : passes c p s = true) : c.Accepted p s := by
  unfold passes at h
  rw [Bool.and_eq_true, Bool.and_eq_true, List.all_eq_true, List.all_eq_true] at h
  exact h

/-- Paddock 0 is ready and does nothing. -/
def restDev : Dev :=
  { live with pads := live.pads.set 0 (some { pad0 with state := .ready, run := none }), ops := Vector.replicate 64 {} }

theorem witness_FirstFailedCheckAnswers :
    getIdentityCmd.waits (.mailbox 0) live = false ∧
      firstBad (paddockQueryCmd.entry ((asked owned restDev (.mailbox 16) 0x0103 (List.replicate 9 0#8)).env (.mailbox 16))) ≠ none ∧
      paddockQueryCmd.waits (.mailbox 0) (asked owned restDev (.mailbox 0) 0x0103 (List.replicate 9 0#8)).dev = true ∧
      firstBad (paddockQueryCmd.entry ((asked owned restDev (.mailbox 0) 0x0103 (List.replicate 9 0#8)).env (.mailbox 0))) = some stLength ∧
      firstBad (paddockQueryCmd.entry ((asked owned restDev (.mailbox 0) 0x0103 (leBytes 8 1)).env (.mailbox 0))) = none ∧
      firstBad (paddockQueryCmd.checks ((asked owned restDev (.mailbox 0) 0x0103 (leBytes 8 1)).env (.mailbox 0))) = some stNoRes ∧
      passes paddockQueryCmd (.mailbox 0) (asked owned restDev (.mailbox 0) 0x0103 (leBytes 8 0)) = true := by decide +kernel

theorem scanOk_halted (t : Tile) (seed : Word) (h : t.scrub.works = false) : ((t.askScan seed).scan).scrub.scanOk seed = false := by
  have hw : Scrubber.works { t.scrub with kat := 0#64, katSeed := some seed } = false := h
  simp only [Tile.askScan, Tile.scan, hw, Scrubber.scanOk, Bool.not_false, if_true, beq_eq_false_iff_ne, ne_eq]
  intro e
  have := congrArg BitVec.toNat e
  simp only [BitVec.toNat_ofNat] at this
  omega

/-- A tile whose scrubber has halted fails the scan as it wakes, and retires. -/
theorem wakeScan_halted (d : Dev) (st : SiteId) (h : (d.tile st).scrub.works = false) :
    d.wakeScan st = (d.draw.2.modTile st fun t =>
      let t := (t.askScan (BitVec.ofNat 32 d.draw.1)).scan
      { t with scrub := { t.scrub with checkedAt := d.now, lastBeat := BitVec.ofNat 32 t.scrub.beat } }).retireTile st (some 0xE004) := by
  have h1 : ((((d.draw.2.tile st).askScan (BitVec.ofNat 32 d.draw.1)).scan).scrub.scanOk (BitVec.ofNat 32 d.draw.1)) = false :=
    scanOk_halted _ _ h
  have h2 : ∀ (f : Tile → Tile) (seed : Word), (f (d.draw.2.tile st)).scrub.scanOk seed = false →
      (if ((d.draw.2.modTile st f).tile st).scrub.scanOk seed = true then d.draw.2.modTile st f
        else (d.draw.2.modTile st f).retireTile st (some 0xE004)) = (d.draw.2.modTile st f).retireTile st (some 0xE004) := by
    intro f seed hf
    rw [Dev.modTile_tile, hf]
    rfl
  exact h2 _ _ h1

theorem wake_retain (d : Dev) (st : SiteId) (h : d.power st = 2) :
    d.wake st = (d.modTile st fun t => { t with power := 0#8 }).wakeScan st := by
  unfold Dev.wake
  rw [h]
  rfl

/-- A device once such a tile in RETAIN at a site has been woken. -/
def afterWake (d : Dev) (st : SiteId) : Dev :=
  let e := d.modTile st fun t => { t with power := 0#8 }
  (e.draw.2.modTile st fun t =>
    let t := (t.askScan (BitVec.ofNat 32 e.draw.1)).scan
    { t with scrub := { t.scrub with checkedAt := e.now, lastBeat := BitVec.ofNat 32 t.scrub.beat } }).retireTile st (some 0xE004)

theorem wake_halted (d : Dev) (st : SiteId) (hp : d.power st = 2) (h : (d.tile st).scrub.works = false) : d.wake st = afterWake d st := by
  rw [wake_retain d st hp]
  refine wakeScan_halted _ _ ?_
  rw [Dev.modTile_tile]
  exact h

theorem runStart_wakes (e : Env) (st : SiteId) (h : (e.d.pad e.k).map (·.sites) = some [st]) :
    runStartCmd.woken e = { e with d := e.d.wake st } := by
  obtain ⟨p, hp, hs⟩ := Option.map_eq_some_iff.1 h
  simp only [Cmd.woken, runStartCmd, Env.woken, Dev.wakePad, hp, hs, List.foldl]

/-- Paddock 0 rests on a tile in RETAIN whose scrubber has halted. -/
def sleepDev : Dev :=
  restDev.modTile 0 fun t => { t with power := 2#8, scrub := { t.scrub with halted := true } }

/-- A RUN_START waits there. -/
def sleepEnv : Env := (asked owned sleepDev (.mailbox 0) runStartCmd.opcode (leBytes 520 0)).env (.mailbox 0)
def wokenEnv : Env := { sleepEnv with d := afterWake sleepEnv.d 0 }

theorem sleepEnv_sites : (sleepEnv.d.pad sleepEnv.k).map (·.sites) = some [0] := by decide +kernel
theorem sleepEnv_sleeps : sleepEnv.d.power 0 = 2 ∧ (sleepEnv.d.tile 0).scrub.works = false := by decide +kernel
theorem sleepEnv_woken : runStartCmd.woken sleepEnv = wokenEnv :=
  (runStart_wakes sleepEnv 0 sleepEnv_sites).trans
    (congrArg (fun d => { sleepEnv with d := d }) (wake_halted sleepEnv.d 0 sleepEnv_sleeps.1 sleepEnv_sleeps.2))
theorem wokenEnv_fails : firstBad (runStartCmd.checks wokenEnv) = some stWrong := by decide +kernel

theorem sleepEnv_waits : runStartCmd.waits (.mailbox 0) sleepEnv.d = true := by decide +kernel
theorem sleepEnv_passes : ((runStartCmd.entry sleepEnv ++ runStartCmd.checks sleepEnv).all fun x => x.1) = true := by decide +kernel

/-- The command passes every check, and one fails once its tile has been woken. -/
theorem witness_FirstFailedCheckAnswers_woken :
    runStartCmd.waits (.mailbox 0) sleepEnv.d = true ∧
      (∀ x ∈ runStartCmd.entry sleepEnv ++ runStartCmd.checks sleepEnv, x.1 = true) ∧
      firstBad (runStartCmd.checks (runStartCmd.woken sleepEnv)) = some stWrong :=
  ⟨sleepEnv_waits, List.all_eq_true.1 sleepEnv_passes, sleepEnv_woken ▸ wokenEnv_fails⟩

/-- The status of the response in mailbox 0. -/
def status (i : Instr) (s : State) : Nat :=
  match exec i s with
  | .next t => fieldAt (t.dev.mb 0).rsp 4 2
  | _ => 0xFFFF

theorem test_status_length : status (.paddockQuery (.mailbox 0) false) (asked owned restDev (.mailbox 0) 0x0103 (List.replicate 9 0#8)) = stLength := by
  decide +kernel

/-- A command that passes every check on mailbox 0 or the owner port of a device whose paddock 0 is at rest. -/
def admits (c : Cmd) (p : Port) (d : Dev) (body : Bytes) : Prop := c.Accepted p (asked owned d p c.opcode body)

theorem admits_of_passes {c : Cmd} {p : Port} {d : Dev} {body : Bytes} (h : passes c p (asked owned d p c.opcode body) = true) :
    admits c p d body := accepted_of_passes h

/-- Sequence slot 15 is bound to paddock 0. -/
def slotDev : Dev := { restDev with seqs := restDev.seqs.set 15 { bound := some 0, length := 5 } }

theorem witness_QueriesOnlyAnswer :
    admits getIdentityCmd (.mailbox 0) restDev [] ∧ admits getFaultRecordCmd (.mailbox 0) restDev (leBytes 8 0) ∧
      admits paddockQueryCmd (.mailbox 0) restDev (leBytes 8 0) ∧ admits seqReadCmd (.mailbox 0) slotDev (leBytes 8 15) ∧
      admits getAttestationCmd (.mailbox 0) restDev (leBytes 40 255) ∧ admits getCertChainCmd (.mailbox 0) restDev (leBytes 8 0) ∧
      admits beatTableGetCmd (.mailbox 0) restDev [] ∧ admits telemetryReadCmd (.mailbox 0) restDev (leBytes 8 0) ∧
      admits fabricStatusCmd (.mailbox 0) restDev [] ∧ admits settingReadCmd (.mailbox 0) restDev (leBytes 8 0x111) := by
  refine ⟨?_, ?_, ?_, ?_, ?_, ?_, ?_, ?_, ?_, ?_⟩ <;> exact admits_of_passes (by decide +kernel)

/-- A device of a fabric, whose paddock's image has one spanning barrier. -/
def spanningDev : Dev :=
  { restDev with
    fab := { restDev.fab with devCfg := 0x40058#32 },
    pads := restDev.pads.set 0 (some { pad0 with state := .ready, run := none, image := some { barriers := [(1, true)] } }) }

/-- Every tile is awake. -/
def awakeDev : Dev := { restDev with tiles := restDev.tiles.map fun t => { t with power := 0#8 } }

theorem witness_PaddockCommandsTakeEffect :
    admits paddockCreateCmd (.mailbox 0) awakeDev (leBytes 8 0 ++ leBytes 24 1) ∧
      admits paddockReleaseCmd (.mailbox 0) restDev (leBytes 8 0) ∧
      admits paddockGrantCmd (.mailbox 0) restDev (leBytes 4 (2 * 256) ++ leBytes 4 2097151 ++ leBytes 8 1) ∧
      admits barrierSpanCmd (.mailbox 0) spanningDev (leBytes 2 0 ++ leBytes 4 1 ++ leBytes 2 0 ++ []) ∧
      admits seqOpenCmd (.mailbox 0) restDev (leBytes 8 0) ∧
      admits seqSetCmd (.mailbox 0) slotDev (leBytes 4 15 ++ leBytes 4 16777216) ∧
      admits seqCloseCmd (.mailbox 0) slotDev (leBytes 8 15) ∧
      admits setEventRingCmd (.mailbox 0) restDev (leBytes 8 4096 ++ leBytes 8 8 ++ [6#8, 1#8] ++ leBytes 6 0) := by
  refine ⟨?_, ?_, ?_, ?_, ?_, ?_, ?_, ?_⟩ <;> exact admits_of_passes (by decide +kernel)

theorem test_grant_beyond :
    status (.paddockGrant (.mailbox 0) false) (asked owned restDev (.mailbox 0) 0x0102 (leBytes 4 (2 * 256) ++ leBytes 4 2097152 ++ leBytes 8 1)) =
      stLength := by decide +kernel

/-- The run of paddock 0 is suspended, and its window takes a checkpoint. -/
def stillDev : Dev :=
  { live with
    pads := live.pads.set 0 (some { pad0 with state := .suspended, windows := [{ loft := 0, base4k := 0, size4k := 32 }] }),
    ops := live.ops.set 0 { held := true, mailbox := 1, typ := .run, state := .suspended, paddock := some 0 } }

theorem witness_LongOperationsQueue :
    admits scrubCmd (.mailbox 0) restDev (leBytes 8 (2 ^ 47)) ∧ admits dramTestCmd (.mailbox 0) restDev (leBytes 8 2) ∧
      admits routeRebuildCmd (.mailbox 0) spanningDev (leBytes 8 1) ∧
      admits fwStageCmd .owner restDev (leBytes 8 1 ++ leBytes 8 64) ∧
      admits checkpointCmd (.mailbox 0) stillDev (leBytes 8 0 ++ leBytes 8 0 ++ leBytes 8 131072) ∧
      admits imageLoadCmd (.mailbox 0) restDev (leBytes 8 0 ++ leBytes 8 64) ∧
      admits runStartCmd (.mailbox 0) restDev (leBytes 520 0) := by
  refine ⟨?_, ?_, ?_, ?_, ?_, ?_, ?_⟩ <;> exact admits_of_passes (by decide +kernel)

/-- Operation 3, held by mailbox 0, is final or runs; copy 3 is open under handle 9. -/
def heldDev (t : OpType) (st : OpState) : Dev :=
  { restDev with
    ops := restDev.ops.set 3 { held := true, typ := t, state := st, args := [1] },
    copies := restDev.copies.set 3 { id := 9, open_ := true, kind := .copyIn, bytes := 16 } }

theorem witness_OperationCommandsAnswerTheState :
    admits opQueryCmd (.mailbox 0) (heldDev .scrub .done) (leBytes 4 3 ++ leBytes 4 1) ∧
      (admits suspendOpCmd (.mailbox 0) (heldDev .scrub .running) (leBytes 8 3) ∧ ((heldDev .scrub .running).suspendOp 3).isSome = true ∧
        (heldDev .scrub .done).suspendOp 3 = none) ∧
      (admits resumeOpCmd (.mailbox 0) (heldDev .scrub .suspended) (leBytes 8 3) ∧ ((heldDev .scrub .suspended).resumeOp 3).isSome = true ∧
        (heldDev .scrub .done).resumeOp 3 = none) ∧
      (admits cancelOpCmd (.mailbox 0) (heldDev .scrub .running) (leBytes 8 3) ∧ (cancelOp 3 owned (heldDev .scrub .running)).isSome = true ∧
        cancelOp 3 owned (heldDev .scrub .done) = none) ∧
      admits copyOpenCmd (.mailbox 0) restDev (leBytes 8 0 ++ leBytes 8 0 ++ leBytes 16 65536) ∧
      admits copyCloseCmd (.mailbox 0) (heldDev .scrub .done) (leBytes 8 9) ∧
      admits accountQueryCmd (.mailbox 0) restDev (leBytes 8 (16 + 256)) := by
  refine ⟨?_, ⟨?_, by decide +kernel, by decide +kernel⟩, ⟨?_, by decide +kernel, by decide +kernel⟩,
    ⟨?_, by decide +kernel, by decide +kernel⟩, ?_, ?_, ?_⟩ <;> exact admits_of_passes (by decide +kernel)

/-- Paddock 0 is empty; a session of it is open. -/
def sessDev : Dev :=
  { restDev with
    pads := restDev.pads.set 0 (some { pad0 with state := .empty, run := none, image := none }),
    sessions := [{ id := 4, mailbox := 0, pad := 0, key := [], fp := [] }] }

/-- What the ciphertext of a SESSION_OPEN gives is one of two cases. -/
theorem witness_SessionsOpenUnderAFingerprint :
    admits sessionOpenCmd (.mailbox 0) sessDev (leBytes 1608 0) ∧ (∀ e : Env, e.secret = none ∨ ∃ ss, e.secret = some ss) ∧
      admits sessionCloseCmd (.mailbox 0) sessDev (leBytes 8 4) ∧
      admits beatTableSetCmd (.mailbox 0) restDev (leBytes 8 1 ++ leBytes 4 0xFF ++ leBytes 4 16000) := by
  refine ⟨admits_of_passes (by decide +kernel), fun e => ?_, admits_of_passes (by decide +kernel), admits_of_passes (by decide +kernel)⟩
  cases e.secret with
  | none => exact .inl rfl
  | some ss => exact .inr ⟨ss, rfl⟩

/-- Firmware is being staged in operation 3, or is staged in slot 1; the slots diverge. -/
def fwDev : Dev :=
  { restDev with
    ops := restDev.ops.set 3 { held := true, typ := .fwStage, state := .running, args := [1, 64] },
    staging := some { slot := 1, bytes := 64, data := [], op := 3 }, staged := some 1, ym := { restDev.ym with diverge := true } }

/-- A device that takes its owner, whose store holds the owner key already. -/
def unowned : Fuse := { owned with lifecycle := .unprovisioned, ownerId := none }

theorem witness_OwnerCommandsTakeEffect :
    (admits fwDataCmd .owner fwDev (leBytes 8 0 ++ leBytes 16 0) ∧ fwDev.staging.isSome = true) ∧ admits fwActivateCmd .owner fwDev [] ∧
      admits clearBootDivergeCmd .owner fwDev [] ∧ admits settingWriteCmd .owner restDev (leBytes 8 1 ++ leBytes 8 4) ∧
      admits clearOwnerAlertCmd .owner restDev (leBytes 8 15) ∧ admits linkSetCmd .owner restDev (leBytes 8 (15 + 9 * 256)) ∧
      (∀ fin : Fin 2, provisionCmd.Accepted .owner (asked unowned restDev .owner 0x0930 (leBytes 8 0 ++ leBytes 8 fin.val))) ∧
      admits retireCmd .owner restDev (leBytes 8 0) := by
  refine ⟨⟨?_, by decide +kernel⟩, ?_, ?_, ?_, ?_, ?_, ?_, ?_⟩
  case refine_7 => intro fin; exact accepted_of_passes (by revert fin; decide +kernel)
  all_goals exact admits_of_passes (by decide +kernel)

/-- A command of every row that is accepted stands in the witnesses of the statements before this one; here two of them. -/
theorem witness_EveryAcceptedCommandCompletes :
    admits getIdentityCmd (.mailbox 0) restDev [] ∧ admits paddockCreateCmd (.mailbox 0) awakeDev (leBytes 8 0 ++ leBytes 24 1) :=
  ⟨witness_QueriesOnlyAnswer.1, witness_PaddockCommandsTakeEffect.1⟩

theorem test_provision_owner :
    (match exec (.provision .owner false) (asked unowned restDev .owner 0x0930 (leBytes 8 0 ++ leBytes 8 1)) with
      | .next t => t.fuse.lifecycle == .provisioned && t.fuse.ownerEpoch == 1#32
      | _ => false) = true := by decide +kernel
theorem test_setting_banks :
    (match exec (.settingWrite .owner false) (asked owned restDev .owner 0x0910 (leBytes 8 1 ++ leBytes 8 4)) with
      | .next t => t.fuse.banks == Vector.replicate 3 [(1, 4#64)] && t.dev.settings == []
      | _ => false) = true := by decide +kernel

/-! ### Ill-formed commands -/

theorem wf_owner_command : (Instr.ownerCommandWrite (List.replicate 4096 0#8)).wellFormed = true ∧
    (Instr.ownerCommandWrite (List.replicate 4097 0#8)).wellFormed = false := by decide +kernel
theorem wf_owner_release : (Instr.ownerResponseRelease [1#8, 0xFF#8, 0#8, 0#8]).wellFormed = true ∧
    (Instr.ownerResponseRelease [1#8, 0xFF#8, 0#8]).wellFormed = false := by decide +kernel
theorem wf_window_write : (Instr.winWrite 0 (hdr 2 4 0 0) [0#8, 0#8, 0#8, 0#8]).wellFormed = true ∧
    (Instr.winWrite 0 (hdr 2 4 0 0) [0#8]).wellFormed = false := by decide +kernel
theorem wf_copy_write : (Instr.copyWrite 0 (hdr 3 16 1 0) (List.replicate 16 0#8)).wellFormed = true ∧
    (Instr.copyWrite 0 (hdr 3 16 1 0) []).wellFormed = false := by decide +kernel

/-- A frame of the form that a link carries. -/
def wireFrame : Frame :=
  { frame .idle 0#8 0#32 0#32 with slots := List.replicate 576 0#8, credit := List.replicate 5 0#16, tag := List.replicate 16 0#8 }

theorem wf_frames :
    [Instr.idleFrame 0, .dataFrame 0, .nakFrame 0, .controlFrame 0].all (fun i => (i wireFrame).wellFormed &&
      !(i { wireFrame with slots := [] }).wellFormed && !(i { wireFrame with credit := [] }).wellFormed &&
      !(i { wireFrame with tag := [] }).wellFormed) = true := by decide +kernel
theorem wf_align : (Instr.alignCodeword 0 0 (some 0) 0#20 (List.replicate 640 0#8)).wellFormed = true ∧
    (Instr.alignCodeword 0 0 (some 0) 0#20 (List.replicate 639 0#8)).wellFormed = false := by decide +kernel
theorem wf_hello :
    (Instr.hello 0 { version := 1#16, serial := 0#64, role := 0#8, reserved := 0#8, nonce := List.replicate 32 0#8 }).wellFormed = true ∧
      (Instr.hello 0 { version := 1#16, serial := 0#64, role := 0#8, reserved := 0#8, nonce := [] }).wellFormed = false := by decide +kernel
theorem wf_handshake :
    [(Instr.kemKey 0, 1568), (.kemCt 0, 1568), (.rekeyKey 0, 1568), (.rekeyCt 0, 1568), (.sig 0, 1280), (.finished 0, 32)].all (fun x =>
      (x.1 (List.replicate x.2 0#8)).wellFormed && !(x.1 (List.replicate (x.2 - 1) 0#8)).wellFormed) = true := by decide +kernel
theorem wf_packets :
    [Instr.packetSwitch 0, fun p => .fabLoad 0 p .clean, .fabStore 0, fun p => .fabAtomic 0 p .clean, fun p => .fabTreduce 0 p .clean,
      .fabMessage 0, .fabLoadRsp 0, .fabAck 0, .fabAtomicRsp 0].all (fun i => (i blankPkt).wellFormed &&
        !(i { blankPkt with operand := [] }).wellFormed && !(i { blankPkt with len := 1#7 }).wellFormed) = true := by decide +kernel
theorem wf_governor : (Instr.governorCheck { junction := List.replicate 48 0#16, amps := 0 }).wellFormed = true ∧
    (Instr.governorCheck { junction := [], amps := 0 }).wellFormed = false := by decide +kernel
theorem wf_vote : (Instr.scrubberVote 0 (2 ^ 124 - 1) 0 0).wellFormed = true ∧ (Instr.scrubberVote 0 (2 ^ 124) 0 0).wellFormed = false ∧
    (Instr.scrubberVote 0 0 (2 ^ 124) 0).wellFormed = false ∧ (Instr.scrubberVote 0 0 0 (2 ^ 124)).wellFormed = false := by decide +kernel
theorem wf_load_begin : (Instr.hitchLoadBegin 0 (List.replicate 32 0#8)).wellFormed = true ∧ (Instr.hitchLoadBegin 0 []).wellFormed = false := by
  decide +kernel
theorem wf_window_base : (Instr.windowZeroingComplete 0 2097151).wellFormed = true ∧ (Instr.windowZeroingComplete 0 2097152).wellFormed = false := by
  decide +kernel

end Sys2Proof.Tests
end

section
/-!
PROOFS. Reads of the completion FIFOs and accesses of registers (R5, R8, R9, R119, R121, R187, R200, R260, R381): the laws of the
completion FIFO, one rule per command, what a register's read clears and a write changes, and the two statements about them.
-/
namespace Sys2Proof.Machine

/-! ### The completion FIFO -/

/-- In a cycle without a push, a FIFO starts from the records that it holds. -/
theorem DoneFifo.start_of_ne {f : DoneFifo} {now : Nat} (h : f.at_ ≠ now) : f.start now = (f.recs, f.lost, []) := by
  simp [start, h]

/-- A push joins the pushes of its cycle and leaves what the cycle started from. -/
theorem DoneFifo.push_start (f : DoneFifo) (now : Nat) (r : BitVec 64) :
    (f.push now r).start now = ((f.start now).1, (f.start now).2.1, (f.start now).2.2 ++ [r]) := by
  simp [push, start]

/-- Four records or fewer are all held, and none of them is lost. -/
theorem DoneFifo.hold_of_length_le {l : List (BitVec 64)} (h : l.length ≤ 4) (lost : Bool) : hold l lost = (l, lost) := by
  have hdrop : l.length - 4 = 0 := by omega
  simp [hold, hdrop, h]

/-- A push to a FIFO keeps the last four records. -/
theorem DoneFifo.push_recs (f : DoneFifo) (now : Nat) (r : BitVec 64) :
    (f.push now r).recs = (f.recs ++ [r]).drop (f.recs.length - 3) := by
  simp [push, hold]

/-- A push sets LOST where the FIFO was full. -/
theorem DoneFifo.push_lost {f : DoneFifo} (h : f.recs.length ≤ 4) (now : Nat) (r : BitVec 64) :
    (f.push now r).lost = (f.lost || f.recs.length == 4) := by
  have hfull : decide (4 < f.recs.length + 1) = (f.recs.length == 4) := by
    rw [Bool.eq_iff_iff, decide_eq_true_iff, beq_iff_eq]
    omega
  simp [push, hold, ← hfull]

/-- A read depends on what its cycle started from alone, so it does not see the pushes of the cycle (R9). -/
theorem DoneFifo.push_value (f : DoneFifo) (now lo : Nat) (r : BitVec 64) : (f.push now r).value now lo = f.value now lo := by
  simp [value, push_start]

theorem DoneFifo.value_of_nil {f : DoneFifo} {now : Nat} (h : f.at_ ≠ now) (hnil : f.recs = []) (lo : Nat) :
    f.value now lo = 0 := by
  simp [value, start_of_ne h, hnil]

theorem DoneFifo.taken_of_nil {f : DoneFifo} {now : Nat} (h : f.at_ ≠ now) (hnil : f.recs = []) : f.taken now = f := by
  simp [taken, start_of_ne h, hnil]

theorem DoneFifo.value_of_cons {f : DoneFifo} {now : Nat} {x : BitVec 64} {rest : List (BitVec 64)} (h : f.at_ ≠ now)
    (hcons : f.recs = x :: rest) (lo : Nat) : f.value now lo = x.toNat + (if f.lost then 2 ^ lo else 0) := by
  simp [value, start_of_ne h, hcons]

/-- A read takes the oldest record, and LOST with it. -/
theorem DoneFifo.taken_of_cons {f : DoneFifo} {now : Nat} {x : BitVec 64} {rest : List (BitVec 64)} (h : f.at_ ≠ now)
    (hlen : f.recs.length ≤ 4) (hcons : f.recs = x :: rest) : (f.taken now).recs = rest ∧ (f.taken now).lost = false := by
  have hrest : rest.length ≤ 4 := by
    rw [hcons, List.length_cons] at hlen
    omega
  simp [taken, start_of_ne h, hcons, hold_of_length_le hrest]

/-! ### Reads of completion records -/

theorem exec_mxuDoneRead (st : SiteId) (s : State) :
    exec (.mxuDoneRead st) s = onEvent s (fun d => d.running && d.hasTile st) fun _ => mxuDoneEffect st := rfl

theorem exec_msuDoneRead (st : SiteId) (m : MsuId) (s : State) :
    exec (.msuDoneRead st m) s = onEvent s (fun d => d.running && d.hasTile st) fun _ => msuDoneEffect st m := rfl

theorem exec_msuMvDoneRead (st : SiteId) (m : MsuId) (s : State) :
    exec (.msuMvDoneRead st m) s = onEvent s (fun d => d.running && d.hasTile st) fun _ => mvDoneEffect st m := rfl

theorem exec_tileRmDoneRead (st : SiteId) (s : State) :
    exec (.tileRmDoneRead st) s = onEvent s (fun d => d.running && d.hasTile st) fun _ d =>
      (d.show ((d.tile st).rm.done.value d.now 18)).modTile st fun t => { t with rm := { t.rm with done := t.rm.done.taken d.now } } :=
  rfl

/-- Settles O13: in a running device each read has its effect, and the FIFO's part is its laws one by one. -/
theorem doneReadsRemoveOldestRecord : Obligations.DoneReadsRemoveOldestRecord := by
  unfold Obligations.DoneReadsRemoveOldestRecord
  refine ⟨fun st m s hrun htile => ?_, fun f now lo r hat hlen => ?_⟩
  · have hen : (s.dev.running && s.dev.hasTile st) = true := by rw [hrun, htile, Bool.and_self]
    refine ⟨?_, ?_, ?_, ?_⟩
    · rw [exec_mxuDoneRead, onEvent_holds _ hen]
      rfl
    · rw [exec_msuDoneRead, onEvent_holds _ hen]
      rfl
    · rw [exec_msuMvDoneRead, onEvent_holds _ hen]
      rfl
    · rw [exec_tileRmDoneRead, onEvent_holds _ hen]
  · exact ⟨fun hnil => ⟨f.value_of_nil hat hnil lo, f.taken_of_nil hat hnil⟩,
      fun x rest hcons => ⟨f.value_of_cons hat hcons lo, f.taken_of_cons hat hlen hcons⟩,
      f.push_recs now r, f.push_lost hlen now r, f.push_value now lo r⟩

/-! ### Accesses of registers -/

theorem exec_registerRead (blk : RegBlock) (off : Nat) (who : Accessor) (s : State) :
    exec (.registerRead blk off who) s =
      onEvent s (mayAccess blk who) fun fz d => (d.show (d.regRead fz blk off)).regClear blk off := rfl

theorem exec_registerWrite (blk : RegBlock) (off : Nat) (who : Accessor) (v : BitVec 64) (s : State) :
    exec (.registerWrite blk off who v) s = onEvent s (mayAccess blk who) fun _ d => d.regWrite blk off who v := rfl

section
variable {blk : RegBlock} {who : Accessor} {s : State}

theorem registerRead_allowed (off : Nat) (h : mayAccess blk who s.dev = true) :
    exec (.registerRead blk off who) s = .next (s.put ((s.dev.show (s.dev.regRead s.fuse blk off)).regClear blk off)) := by
  rw [exec_registerRead, onEvent_holds _ h]

theorem registerRead_denied (off : Nat) (h : mayAccess blk who s.dev = false) : exec (.registerRead blk off who) s = .next s := by
  rw [exec_registerRead, onEvent_fails _ h]

theorem registerWrite_allowed (off : Nat) (v : BitVec 64) (h : mayAccess blk who s.dev = true) :
    exec (.registerWrite blk off who v) s = .next (s.put (s.dev.regWrite blk off who v)) := by
  rw [exec_registerWrite, onEvent_holds _ h]

theorem registerWrite_denied (off : Nat) (v : BitVec 64) (h : mayAccess blk who s.dev = false) :
    exec (.registerWrite blk off who v) s = .next s := by
  rw [exec_registerWrite, onEvent_fails _ h]

/-- A write that leaves the device as it is changes nothing, whoever makes it. -/
theorem registerWrite_ineffective {off : Nat} {v : BitVec 64} (h : s.dev.regWrite blk off who v = s.dev) :
    exec (.registerWrite blk off who v) s = .next s := by
  cases hmay : mayAccess blk who s.dev with
  | true => rw [registerWrite_allowed off v hmay, h, State.put_self]
  | false => exact registerWrite_denied off v hmay

end

theorem Dev.modLoft_keeps (d : Dev) (l : SiteId) {f : Loft → Loft} (h : f (d.loft l) = d.loft l) : d.modLoft l f = d := by
  simp only [Dev.modLoft]
  rw [vmod_keeps _ _ (show f d.lofts[l] = d.lofts[l] from h)]

/-- A read of the scratchpad's ECC counter clears it, and no register of the loft. -/
theorem Dev.regClear_tileEcc (d : Dev) (s : SiteId) :
    d.regClear (.tile s) 0x380 = d.modTile s fun t => { t with spad := { t.spad with ecc := t.spad.ecc.taken d.now } } :=
  Dev.modLoft_keeps _ s rfl

theorem Dev.regWrite_yardmaster (d : Dev) (off : Nat) (who : Accessor) (v : BitVec 64) : d.regWrite .yardmaster off who v = d := rfl

/-- The scratchpad's ECC counter is RC: no write reaches it, from the core or from the yardmaster. -/
theorem Dev.regWrite_tileEcc (d : Dev) (s : SiteId) (who : Accessor) (v : BitVec 64) : d.regWrite (.tile s) 0x380 who v = d := by
  simp [Dev.regWrite, Dev.writeUnit]

theorem Dev.regWrite_ctxFault (d : Dev) (s : SiteId) (who : Accessor) (v : BitVec 64) :
    d.regWrite (.tile s) 0x18 who v = d.modCtl s fun c => c.clearFaults (v.setWidth 16) d.now := rfl

theorem Dev.regWrite_carillon (d : Dev) (off : Nat) (who : Accessor) (v : BitVec 64) :
    d.regWrite .carillon off who v = d.writeCar off v.toNat := rfl

theorem TileCtl.clearFaults_ctxFault (c : TileCtl) (v : BitVec 16) (now : Nat) :
    (c.clearFaults v now).ctxFault = c.ctxFault &&& ~~~ (v &&& ~~~ (if c.faultSet.1 = now then c.faultSet.2 else 0#16)) := by
  simp [TileCtl.clearFaults]

/-! ### Barriers' CFG (R260) -/

theorem vmodN_val {α : Type} {n : Nat} (v : Vector α n) (i : Fin n) (f : α → α) : vmodN v i.val f = vmod v i f := by
  simp [vmodN, vmod]

/-- A write at a half of a barrier's CFG is a write of that half, and of no other barrier. -/
theorem Dev.writeCar_barrier (d : Dev) (b : BarId) (half : Fin 2) (v : Nat) :
    d.writeCar (16 * b.val + 8 * half.val) v = d.modBar b fun q => q.put (write64 q.cfg.toNat barMask half.val v) := by
  have hb := b.isLt
  have hh := half.isLt
  have haligned : (16 * b.val + 8 * half.val) % 8 = 0 := by omega
  have hbelow : 16 * b.val + 8 * half.val < 0x1000 := by omega
  have hhalf : (16 * b.val + 8 * half.val) / 8 % 2 = half.val := by omega
  have hbar : (16 * b.val + 8 * half.val) / 16 = b.val := by omega
  simp [Dev.writeCar, Dev.modBar, haligned, hbelow, hhalf, hbar, vmodN_val]

/-- A bit set to zero is zero. -/
theorem testBit_setFld_zero (x lo : Nat) : (setFld x lo 1 0).testBit lo = false := by
  have hdiv : (x - x / 2 ^ lo % 2 * 2 ^ lo) / 2 ^ lo = x / 2 ^ lo - x / 2 ^ lo % 2 := by
    rw [Nat.mul_comm]
    exact Nat.sub_mul_div ..
  simp only [setFld, fld, pow_one, Nat.zero_mod, Nat.zero_mul, Nat.add_zero, Nat.testBit_eq_decide_div_mod_eq, hdiv,
    decide_eq_false_iff_not]
  omega

/-- A barrier with neither targets nor children. -/
def CarBarrier.awaitsNone (b : CarBarrier) : Bool := b.target == 0 && (!b.spanning || b.childCount == 0)

/-- A write of CFG takes the value, ENABLED cleared where that value names neither targets nor children. -/
theorem CarBarrier.put_cases (q : CarBarrier) (x : Nat) :
    ({ q with cfg := BitVec.ofNat 128 x } : CarBarrier).awaitsNone = true ∧
        q.put x = { q with cfg := BitVec.ofNat 128 (setFld x 68 1 0) } ∨
      ({ q with cfg := BitVec.ofNat 128 x } : CarBarrier).awaitsNone = false ∧ q.put x = { q with cfg := BitVec.ofNat 128 x } := by
  cases hnone : ({ q with cfg := BitVec.ofNat 128 x } : CarBarrier).awaitsNone with
  | true => exact .inl ⟨rfl, if_pos hnone⟩
  | false => exact .inr ⟨rfl, if_neg (by simpa [CarBarrier.awaitsNone] using hnone)⟩

theorem CarBarrier.put_state (q : CarBarrier) (x : Nat) : (q.put x).state = q.state := by
  rcases q.put_cases x with ⟨_, h⟩ | ⟨_, h⟩ <;> rw [h]

theorem CarBarrier.put_children (q : CarBarrier) (x : Nat) : (q.put x).children = q.children := by
  rcases q.put_cases x with ⟨_, h⟩ | ⟨_, h⟩ <;> rw [h]

/-- A barrier that comes out of a write with nothing to wait for has its ENABLED cleared. -/
theorem CarBarrier.put_enabled_of_awaitsNone {q : CarBarrier} {x : Nat} (hnone : (q.put x).awaitsNone = true) :
    (q.put x).enabled = false := by
  rcases q.put_cases x with ⟨_, h⟩ | ⟨hbusy, h⟩
  · rw [h, CarBarrier.enabled, BitVec.getLsbD_ofNat, testBit_setFld_zero, Bool.and_false]
  · rw [h, hbusy] at hnone
    contradiction

/-- Settles O48: access decides whether a command acts, and the block and the offset decide what it clears or writes. -/
theorem registersReadAndWritten : Obligations.RegistersReadAndWritten := by
  unfold Obligations.RegistersReadAndWritten
  intro blk off who v st b half s
  refine ⟨registerRead_allowed off, fun h => ⟨registerRead_denied off h, registerWrite_denied off v h⟩, fun h => ?_,
    registerWrite_ineffective (s.dev.regWrite_yardmaster off who v), registerWrite_ineffective (s.dev.regWrite_tileEcc st who v),
    fun h => ⟨registerWrite_allowed 0x18 v h, fun c => c.clearFaults_ctxFault _ _⟩, fun h => ?_,
    fun q x => ⟨q.put_state x, q.put_children x, fun htarget hchildren => CarBarrier.put_enabled_of_awaitsNone ?_⟩⟩
  · rw [registerRead_allowed _ h, Dev.regClear_tileEcc]
    rfl
  · rw [registerWrite_allowed _ v h, Dev.regWrite_carillon, Dev.writeCar_barrier]
  · simp [CarBarrier.awaitsNone, htarget, hchildren]

end Sys2Proof.Machine
end

section
/-!
PROOFS. Waits and the configuration port (R40, R228, R230, R237, R246): what lets a context wake, what the port makes of its
oldest request, and the statement about both.
-/
namespace Sys2Proof.Machine

/-! ### Waking -/

/-- Only a descheduled context has a condition to wait for (R40). -/
theorem Tile.descheduled_of_wakes {t : Tile} {c : CtxId} (h : t.wakes c = true) :
    (t.ctxs[c]).state = .waitBell ∨ (t.ctxs[c]).state = .waitQueue ∨ (t.ctxs[c]).state = .waitTransfer := by
  simp only [Tile.wakes, Bool.and_eq_true, Bool.or_eq_true, beq_iff_eq, or_assoc] at h
  exact h.1

theorem Tile.wakes_of_idle_or_faulted {t : Tile} {c : CtxId} (h : (t.ctxs[c]).state = .idle ∨ (t.ctxs[c]).state = .faulted) :
    t.wakes c = false := by
  rw [← Bool.not_eq_true]
  intro hwakes
  have hwaits := Tile.descheduled_of_wakes hwakes
  rcases h with h | h <;>
  · rw [h] at hwaits
    simp at hwaits

theorem Tile.noteWakes_ctx (t : Tile) (c : CtxId) :
    t.noteWakes.ctxs[c] = { t.ctxs[c] with met := (t.ctxs[c]).met || t.wakes c } := by
  simp [Tile.noteWakes]

/-- A context whose condition has not held in an earlier cycle is not to be woken (R40). -/
theorem wakeEnabled_of_not_met {st : SiteId} {c : CtxId} {d : Dev} (h : ((d.tile st).ctxs[c]).met = false) :
    wakeEnabled st c d = false := by
  simp only [wakeEnabled, h, Bool.and_false, Bool.false_and]

theorem exec_contextWake (st : SiteId) (c : CtxId) (s : State) :
    exec (.contextWake st c) s = onEvent s (wakeEnabled st c) fun _ d =>
      d.modCtx st c fun x => { x with state := .ready, wait := .nothing, met := false } := rfl

/-! ### The configuration port -/

/-- The device once the port has taken its oldest request, `rest` staying in the queue. -/
def Dev.portTaken (d : Dev) (st : SiteId) (rest : List PortReq) : Dev :=
  d.modTile st fun t => { t with portQ := rest, portAt := some d.now }

@[simp] theorem Dev.portTaken_tile (d : Dev) (st : SiteId) (rest : List PortReq) :
    (d.portTaken st rest).tile st = { d.tile st with portQ := rest, portAt := some d.now } := Dev.modTile_tile ..

section
variable {st : SiteId} {d : Dev} {r : PortReq} {rest : List PortReq}

/-- A request whose checks hold is written, and the wait of its context is over (R230). -/
theorem portEffect_of_served {t : Tile} (hq : (d.tile st).portQ = r :: rest)
    (h : ((d.portTaken st rest).tile st).serve (d.portTaken st rest).entropyOk r = .ok t) :
    portEffect st d = ((d.portTaken st rest).modTile st fun _ => t).arrived st r.ctx := by
  rw [Dev.portTaken] at h
  simp only [portEffect, hq, h]
  rfl

/-- A request whose check fails writes nothing, and its fault is that of the step that asked (R246). -/
theorem portEffect_of_refused {code i : Nat} (hq : (d.tile st).portQ = r :: rest)
    (h : ((d.portTaken st rest).tile st).serve (d.portTaken st rest).entropyOk r = .error (code, i)) :
    portEffect st d =
      (d.portTaken st rest).stepFaultAt st r.ctx (((d.tile st).ctxs[r.ctx]).pc - 1) code 0 i := by
  have hctx : ((d.portTaken st rest).tile st).ctxs = (d.tile st).ctxs := by rw [Dev.portTaken_tile]
  rw [← hctx]
  rw [Dev.portTaken] at h ⊢
  simp only [portEffect, hq, h]

end

theorem exec_configPortServe (st : SiteId) (s : State) :
    exec (.configPortServe st) s = onEvent s (portEnabled st) fun _ => portEffect st := rfl

/-- Settles O8: a context is woken where its condition was noted and not otherwise; what the port does with its oldest request
follows the answer of the request's checks. -/
theorem contextsWakeAndPortServes : Obligations.ContextsWakeAndPortServes := by
  unfold Obligations.ContextsWakeAndPortServes
  refine ⟨fun st c s => ⟨fun hen => ?_, fun hmet => ?_, Tile.wakes_of_idle_or_faulted, ?_⟩,
    fun st s r rest hen hq => ⟨fun t hserve => ?_, fun code i hserve => ?_⟩⟩
  · rw [exec_contextWake, onEvent_holds _ hen]
  · rw [exec_contextWake, onEvent_fails _ (wakeEnabled_of_not_met hmet)]
  · rw [Tile.noteWakes_ctx, Bool.or_eq_true]
  · rw [exec_configPortServe, onEvent_holds _ hen, portEffect_of_served hq hserve]
    rfl
  · rw [exec_configPortServe, onEvent_holds _ hen, portEffect_of_refused hq hserve]
    rfl

end Sys2Proof.Machine
end

section
/-!
PROOFS. The unit grid's events (R50, R51, R58, R60, R64, R65, R72): which unit stands where, one rule per movement of a token and
per firing, and the two statements about them.
-/
namespace Sys2Proof.Machine

/-! ### Units and positions -/

theorem finOf_of_lt {n i : Nat} (h : i < n) : finOf n i = some ⟨i, h⟩ := dif_pos h

theorem finOf_of_le {n i : Nat} (h : n ≤ i) : finOf n i = none := dif_neg (Nat.not_lt.2 h)

theorem finOf_val {n : Nat} (i : Fin n) : finOf n i.val = some i := finOf_of_lt i.isLt

/-- A position is the position of the unit that stands there (R28, R31). -/
theorem unitPos_posUnit (p : PosId) : unitPos (posUnit p) = p := by
  revert p
  decide

theorem posUnit_unitPos (u : UnitId) : posUnit (unitPos u) = u := by
  revert u
  decide

theorem posUnit_msuPos (m : MsuId) : posUnit (msuPos m) = msuUnit m := posUnit_unitPos _

/-- Unit 0 stands at the matrix unit's position. -/
theorem unitPos_of_zero {u : UnitId} (h : u.val = 0) : unitPos u = mxuPos := by
  rw [show u = 0 from Fin.ext h]
  rfl

/-- A position that is neither the matrix unit's nor an MSU's is a vector unit's (R31). -/
theorem vxu_of_other {p : PosId} (hmxu : p ≠ mxuPos) (hmsu : ∀ m, p ≠ msuPos m) :
    0 < (posUnit p).val ∧ (posUnit p).val < 17 := by
  constructor
  · by_contra hzero
    exact hmxu (by rw [← unitPos_posUnit p, unitPos_of_zero (by omega)])
  · by_contra habove
    have hunit : posUnit p = msuUnit ⟨(posUnit p).val - 17, by omega⟩ := Fin.ext (by simp only [msuUnit]; omega)
    exact hmsu _ (by rw [msuPos, ← hunit, unitPos_posUnit])

/-! ### Link queues and pass-through registers (R50, R51, R65) -/

/-- The pass-through register of side `k` gives up its token, and is free from the end of the cycle (R50). -/
def Dev.regEmptied (d : Dev) (s : SiteId) (p : PosId) (k : Fin 4) : Dev :=
  d.modPos s p fun q => { q with
    passReg := vmod q.passReg k fun _ => none, passEmptied := vmod q.passEmptied k fun _ => some d.anow }

section
variable {s : SiteId} {p : PosId} {side : Side} {d : Dev} {t : LinkTok}

theorem transferEffect_of_head {n : Nat} (hhead : (d.pos s p).linkHead (sideNum side).val d.anow = some t)
    (hinput : (d.pos s p).inputOf (sideNum side).val = some n) :
    transferEffect s p side d =
      ((d.moveOut s p (sideNum side).val).modPos s p fun q => { q with inQ := vmodN q.inQ n fun l => l ++ [t.tok] }).kindCheck s p := by
  simp only [transferEffect, hhead, hinput]

theorem passEffect_intoReg {x : Nat} (hfrom : (d.pos s p).passFrom (sideNum side).val = some x)
    (hhead : (d.pos s p).linkHead x d.anow = some t) :
    passEffect s p side .intoReg false d =
      (d.moveOut s p x).modPos s p fun q => { q with
        passReg := vmod q.passReg (sideNum side) fun _ => some { t with avail := d.anow, bad := false } } := by
  simp only [passEffect, hfrom, hhead]
  rfl

theorem passEffect_ontoLink (bad : Bool) (hreg : (d.pos s p).passReg[sideNum side] = some t) :
    passEffect s p side .ontoLink bad d = (d.regEmptied s p (sideNum side)).ontoLink s p (sideNum side).val t.tok bad := by
  simp only [passEffect, hreg]
  rfl

end

/-- A token that fails parity is held at the receiver, which counts it and raises LINK_PARITY_ERROR (R65). -/
theorem Dev.ontoLink_parityBad {s s' : SiteId} {p p' : PosId} {k : Nat} {seam : Bool} (d : Dev) (t : Token)
    (hto : neighbour s p k = some (s', p', seam)) :
    d.ontoLink s p k t true =
      ((((d.modPos s p fun q => { q with lastSent := vsetN q.lastSent k (some d.anow) }).modPos s' p' fun q => { q with
        linkQ := vmodN q.linkQ (oppSide k) fun l => l ++ [{ tok := t, avail := d.anow + (if seam then 2 else 1), bad := true }],
        parityErrs := q.parityErrs + 1 }).gridFault s'
          { code := 0xE002, unit := some (posUnit p').val, side := oppSide k, area := 4 }).countParity s') := by
  simp only [Dev.ontoLink, hto]
  rfl

/-! ### Output buffers (R60) -/

/-- The oldest token leaves an output buffer, `rest` staying in it, and the buffer notes the entry that the cycle frees. -/
def Dev.outTaken (d : Dev) (s : SiteId) (p : PosId) (out : Fin 4) (rest : List (Nat × Token)) : Dev :=
  d.modPos s p fun q => { q with
    outQ := vmod q.outQ out fun _ => rest,
    outFreed := vmod q.outFreed out fun f => (d.anow, (if f.1 = d.anow then f.2 else 0) + 1) }

/-- What the unit at a position notes of an emission: the matrix unit its cycle, an MSU one token more (R121, R187). -/
def Dev.noteEmit (d : Dev) (s : SiteId) (p : PosId) : Dev :=
  if (posUnit p).val = 0 then d.modMxu s fun x => { x with lastDrain := d.anow }
  else match finOf 8 ((posUnit p).val - 17) with
    | some m => if 17 ≤ (posUnit p).val then d.modMsu s m fun x => { x with rdTokens := x.rdTokens + 1 } else d
    | none => d

theorem Dev.noteEmit_mxu (d : Dev) (s : SiteId) : d.noteEmit s mxuPos = d.modMxu s fun x => { x with lastDrain := d.anow } := rfl

theorem Dev.noteEmit_msu (d : Dev) (s : SiteId) (m : MsuId) :
    d.noteEmit s (msuPos m) = d.modMsu s m fun x => { x with rdTokens := x.rdTokens + 1 } := by
  have hval : (posUnit (msuPos m)).val = m.val + 17 := by rw [posUnit_msuPos, msuUnit]
  simp [Dev.noteEmit, hval, finOf_val]

theorem Dev.noteEmit_other {p : PosId} (d : Dev) (s : SiteId) (hmxu : p ≠ mxuPos) (hmsu : ∀ m, p ≠ msuPos m) :
    d.noteEmit s p = d := by
  obtain ⟨hpos, hlt⟩ := vxu_of_other hmxu hmsu
  rw [Dev.noteEmit, if_neg (by omega)]
  split
  · exact if_neg (by omega)
  · rfl

theorem emitEffect_of_cons {s : SiteId} {p : PosId} {out : Fin 4} {d : Dev} {due : Nat} {tok : Token} {rest : List (Nat × Token)}
    (bad : Bool) (hq : (d.pos s p).outQ[out] = (due, tok) :: rest) :
    emitEffect s p out bad d =
      ((d.outTaken s p out rest).noteEmit s p).ontoLink s p (hdrOutSide (d.pos s p).cfg.toNat out.val) tok bad := by
  simp only [emitEffect, hq, beq_iff_eq]
  rfl

/-! ### The commands that move tokens -/

theorem exec_linkQueueTransfer (st : SiteId) (p : PosId) (side : Side) (s : State) :
    exec (.linkQueueTransfer st p side) s = onEvent s (transferEnabled st p side) fun _ => transferEffect st p side := rfl

theorem exec_passThroughForward (st : SiteId) (p : PosId) (side : Side) (mv : PassMove) (bad : Bool) (s : State) :
    exec (.passThroughForward st p side mv bad) s =
      onEvent s (passEnabled st p side mv) fun _ => passEffect st p side mv bad := rfl

theorem exec_tokenEmit (st : SiteId) (p : PosId) (out : Fin 4) (bad : Bool) (s : State) :
    exec (.tokenEmit st p out bad) s = onEvent s (emitEnabled st p out) fun _ => emitEffect st p out bad := rfl

section
variable {st : SiteId} {p : PosId} {s : State}

/-- An emission: the token leaves the buffer, its unit notes it, and it goes onto the link of its side (R60). -/
theorem tokenEmit_next {out : Fin 4} {due : Nat} {tok : Token} {rest : List (Nat × Token)} (bad : Bool)
    (hen : emitEnabled st p out s.dev = true) (hq : (s.dev.pos st p).outQ[out] = (due, tok) :: rest) :
    exec (.tokenEmit st p out bad) s = .next (s.put
      (((s.dev.outTaken st p out rest).noteEmit st p).ontoLink st p (hdrOutSide (s.dev.pos st p).cfg.toNat out.val) tok bad)) := by
  rw [exec_tokenEmit, onEvent_holds _ hen, emitEffect_of_cons bad hq]

/-- A forward from the pass-through register: it is emptied, and its token goes onto the link of its side (R50). -/
theorem passThroughForward_ontoLink {side : Side} {t : LinkTok} (bad : Bool) (hen : passEnabled st p side .ontoLink s.dev = true)
    (hreg : (s.dev.pos st p).passReg[sideNum side] = some t) :
    exec (.passThroughForward st p side .ontoLink bad) s = .next (s.put
      ((s.dev.regEmptied st p (sideNum side)).ontoLink st p (sideNum side).val t.tok bad)) := by
  rw [exec_passThroughForward, onEvent_holds _ hen, passEffect_ontoLink bad hreg]

end

/-- Settles O10: every movement takes the token that its condition names, and a token that arrives with bad parity is the
receiver's fault. -/
theorem tokensMoveInOrder : Obligations.TokensMoveInOrder := by
  unfold Obligations.TokensMoveInOrder
  refine ⟨fun st p side s => ⟨fun t n hen hhead hinput => ?_, fun t x hen hfrom hhead => ?_,
    fun t bad hen hreg => passThroughForward_ontoLink bad hen hreg, fun out bad due tok rest hen hq => ⟨?_, ?_, ?_⟩⟩,
    fun st st' p p' side seam t s hen hreg hto => ?_⟩
  · rw [exec_linkQueueTransfer, onEvent_holds _ hen, transferEffect_of_head hhead hinput]
  · rw [exec_passThroughForward, onEvent_holds _ hen, passEffect_intoReg hfrom hhead]
  · rintro rfl
    exact tokenEmit_next bad hen hq
  · rintro m rfl
    rw [tokenEmit_next bad hen hq, Dev.noteEmit_msu]
    rfl
  · intro hmxu hmsu
    rw [tokenEmit_next bad hen hq, Dev.noteEmit_other _ _ hmxu hmsu]
    rfl
  · rw [passThroughForward_ontoLink true hen hreg, Dev.ontoLink_parityBad _ _ hto]
    rfl

/-! ### Firings (R58, R64, R103, R176) -/

section
variable {u : UnitId} {st : SiteId} {port : FirePort} {d : Dev}

theorem fireEffect_mxu (h : u.val = 0) : fireEffect st u port d = (mxuPortFire d st port).kindCheck st mxuPos := by
  simp only [fireEffect, h, if_true, unitPos_of_zero h]

theorem fireEffect_vxu {v : VxuId} (h : u.val = v.val + 1) :
    fireEffect st u port d = (vxuEffect d st u v).kindCheck st (unitPos u) := by
  have hidx : finOf 16 (u.val - 1) = some v := by rw [h, Nat.add_sub_cancel, finOf_val]
  simp only [fireEffect, show u.val ≠ 0 by omega, if_false, hidx]

theorem fireEffect_msu {m : MsuId} (h : u.val = m.val + 17) :
    fireEffect st u port d = (msuPortFire d st m port).kindCheck st (unitPos u) := by
  have hvxu : finOf 16 (u.val - 1) = none := finOf_of_le (by omega)
  have hidx : finOf 8 (u.val - 17) = some m := by rw [h, Nat.add_sub_cancel, finOf_val]
  simp only [fireEffect, show u.val ≠ 0 by omega, if_false, hvxu, hidx]

end

theorem exec_unitFire (st : SiteId) (u : UnitId) (port : FirePort) (s : State) :
    exec (.unitFire st u port) s = onEvent s (fireEnabled st u port) fun _ => fireEffect st u port := rfl

/-! ### Deadlock (R72) -/

theorem exec_gridDeadlock (k : PadId) (s : State) :
    exec (.gridDeadlock k) s = onEvent s (deadlockEnabled k) fun _ d => d.raise k none true { code := 0x1001 } := rfl

/-- A live paddock is at a deadlock exactly where its idle counter has reached 65,536. -/
theorem deadlockEnabled_of_live {k : PadId} {p : Paddock} {d : Dev} (hlive : d.padLive k = true) (hpad : d.pad k = some p) :
    deadlockEnabled k d = decide (65536 ≤ p.idle) := by
  simp only [deadlockEnabled, hlive, hpad, Bool.true_and]

/-- Settles O11: an enabled firing is that of the unit's kind with the check of its heads, and the idle counter alone decides
whether a live paddock is at a deadlock. -/
theorem unitsFireWhenReady : Obligations.UnitsFireWhenReady := by
  unfold Obligations.UnitsFireWhenReady
  refine ⟨fun st u port s => ⟨fun hidle => ?_, fun hen => ⟨fun hmxu => ?_, fun v hvxu => ?_, fun m hmsu => ?_⟩⟩,
    fun k p s hlive hpad => ⟨fun hreached => ?_, fun hbelow => ?_⟩⟩
  · rw [exec_unitFire, onEvent_fails _ hidle]
  · rw [exec_unitFire, onEvent_holds _ hen, fireEffect_mxu hmxu]
  · rw [exec_unitFire, onEvent_holds _ hen, fireEffect_vxu hvxu]
  · rw [exec_unitFire, onEvent_holds _ hen, fireEffect_msu hmsu]
  · have hen : deadlockEnabled k s.dev = true := by rw [deadlockEnabled_of_live hlive hpad, decide_eq_true hreached]
    rw [exec_gridDeadlock, onEvent_holds _ hen]
  · have hidle : deadlockEnabled k s.dev = false := by
      rw [deadlockEnabled_of_live hlive hpad, decide_eq_false (Nat.not_le.2 hbelow)]
    rw [exec_gridDeadlock, onEvent_fails _ hidle]

end Sys2Proof.Machine
end

section
/-!
PROOFS. The matrix unit (R102, R107, R120, R121, R124, R251): what it makes of a step descriptor issued to it, one rule per command
of its own, and the two statements about them.
-/
namespace Sys2Proof.Machine

/-! ### The issue of a step to the unit (R120, R124) -/

@[simp] theorem Dev.issued_mxu (d : Dev) (s : SiteId) (c : CtxId) : ((d.issued s c).tile s).mxu = (d.tile s).mxu := by
  obtain ⟨p, hp⟩ := d.issued_tile s c
  rw [hp]

@[simp] theorem Dev.issued_pool (d : Dev) (s : SiteId) (c : CtxId) : ((d.issued s c).tile s).pool = (d.tile s).pool := by
  obtain ⟨p, hp⟩ := d.issued_tile s c
  rw [hp]

@[simp] theorem Dev.issued_anow (d : Dev) (s : SiteId) (c : CtxId) : (d.issued s c).anow = d.anow := by
  obtain ⟨p, hp⟩ := d.issued_only s c
  rw [hp, Dev.anow, Dev.modTile_clk, Dev.anow]

@[simp] theorem Dev.issued_entropyOk (d : Dev) (s : SiteId) (c : CtxId) : (d.issued s c).entropyOk = d.entropyOk := by
  obtain ⟨p, hp⟩ := d.issued_only s c
  rw [hp, Dev.modTile_entropyOk]

/-- The step descriptor in the working entry that ISSUE `w` names. -/
def Tile.mxuDesc (t : Tile) (w : Nat) : Nat := fld (((t.pool[stA16 w]?).map (·.toNat)).getD 0) 0 256

theorem exec_stepIssue (st : SiteId) (c : CtxId) (s : State) :
    exec (.stepIssue st c) s = onStep st c 0x01 (issueEffect st c) s := rfl

theorem issueEffect_mxu {s : SiteId} {c : CtxId} {w : Nat} {d : Dev} (h : isTarget w = 0) :
    issueEffect s c w d = d.issueMxu s c ((d.tile s).mxuDesc w) := by
  simp only [issueEffect, h, Tile.mxuDesc]

/-- An ISSUE with the matrix unit as its target gives the unit the descriptor of its working entry (R219). -/
theorem stepIssue_mxu {st : SiteId} {c : CtxId} {s : State} (hen : stepEnabled st c 0x01 s.dev = true)
    (htarget : isTarget ((s.dev.tile st).curStep c) = 0) :
    exec (.stepIssue st c) s = .next (s.put
      ((s.dev.issued st c).issueMxu st c ((s.dev.tile st).mxuDesc ((s.dev.tile st).curStep c)))) := by
  rw [exec_stepIssue, onStep_holds _ hen, issueEffect_mxu htarget, Tile.mxuDesc, Dev.issued_pool, ← Tile.mxuDesc]

section
variable {d : Dev} {s : SiteId} {c : CtxId} {x : Nat}

theorem Dev.issueMxu_of_mismatch (h : (d.tile s).mxu.foldMismatch x = true) :
    d.issueMxu s c x = (d.modMxu s fun u => { u with stopped := true }).issueFault s c 0x3006 0 [mdStepId x] := by
  rw [Dev.issueMxu, if_pos h, Dev.mxuFoldFault]

/-- The first descriptor runs. -/
theorem Dev.issueMxu_of_idle (h : (d.tile s).mxu.foldMismatch x = false) (hrun : (d.tile s).mxu.running = none) :
    d.issueMxu s c x =
      (d.modMxu s fun u => { u.start { desc := BitVec.ofNat 256 x, ctx := c } d.anow with seeded := d.entropyOk }).advance s c := by
  simp only [Dev.issueMxu, h, hrun, Bool.false_eq_true, if_false]

/-- The second descriptor waits. -/
theorem Dev.issueMxu_of_running (h : (d.tile s).mxu.foldMismatch x = false) (hrun : (d.tile s).mxu.running.isSome = true)
    (hpend : (d.tile s).mxu.pending = none) :
    d.issueMxu s c x =
      (d.modMxu s fun u => { u with pending := some { desc := BitVec.ofNat 256 x, ctx := c } }).advance s c := by
  obtain ⟨r, hr⟩ := Option.isSome_iff_exists.1 hrun
  simp only [Dev.issueMxu, h, hr, hpend, Bool.false_eq_true, if_false]

/-- The third descriptor finds no place. -/
theorem Dev.issueMxu_of_full (h : (d.tile s).mxu.foldMismatch x = false) (hrun : (d.tile s).mxu.running.isSome = true)
    (hpend : (d.tile s).mxu.pending.isSome = true) : d.issueMxu s c x = d.issueFault s c 0x4010 0 [mdStepId x] := by
  obtain ⟨r, hr⟩ := Option.isSome_iff_exists.1 hrun
  obtain ⟨q, hq⟩ := Option.isSome_iff_exists.1 hpend
  simp only [Dev.issueMxu, h, hr, hq, Bool.false_eq_true, if_false]

end

/-- Settles O7: the ISSUE hands the unit its descriptor, and the fold held and the places taken decide what becomes of it. -/
theorem matrixUnitHoldsTwoDescriptors : Obligations.MatrixUnitHoldsTwoDescriptors := by
  unfold Obligations.MatrixUnitHoldsTwoDescriptors
  intro st c s hen w htarget x r d u
  have hexec : exec (.stepIssue st c) s = .next (s.put (d.issueMxu st c x)) := stepIssue_mxu hen htarget
  have hmxu : (d.tile st).mxu = u := s.dev.issued_mxu st c
  rw [hexec]
  clear_value u
  subst hmxu
  refine ⟨fun hfold => ?_, fun hfold hrun => ?_, fun hfold hrun hpend => ?_, fun hfold hrun hpend => ?_⟩
  · rw [Dev.issueMxu_of_mismatch hfold]
  · rw [Dev.issueMxu_of_idle hfold hrun, Dev.issued_anow, Dev.issued_entropyOk]
    rfl
  · rw [Dev.issueMxu_of_running hfold hrun hpend]
    rfl
  · rw [Dev.issueMxu_of_full hfold hrun hpend]

/-! ### Row slots and weight swaps (R102, R107, R124) -/

theorem exec_rowSlotStart (st : SiteId) (s : State) :
    exec (.rowSlotStart st) s = onEvent s (rowSlotEnabled st) fun _ => rowSlotEffect st := rfl

theorem exec_weightSwap (st : SiteId) (s : State) :
    exec (.weightSwap st) s = onEvent s (swapEnabled st) fun _ => swapEffect st := rfl

theorem rowSlotEffect_of_overflows {s : SiteId} {d : Dev} (h : (d.tile s).mxu.overflows = true) :
    rowSlotEffect s d = d.mxuFault s 0x3003 (d.tile s).mxu.row := if_pos h

theorem rowSlotEffect_of_fits {s : SiteId} {d : Dev} (h : (d.tile s).mxu.overflows = false) :
    rowSlotEffect s d = ((d.modMxu s fun u => u.rowSlot d.anow).noteFire s).countFixed s 2 1 :=
  if_neg (Bool.eq_false_iff.1 h)

/-! ### Step completions (R121, R251) -/

/-- A sample touches the tile's counters only. -/
theorem Dev.sample_only (d : Dev) (s : SiteId) (x : Sample) : ∃ p, d.sample s x = d.modTile s fun t => { t with pmc := p } := by
  unfold Dev.sample
  dsimp only
  split
  · exact ⟨(d.tile s).pmc, (d.modTile_keeps s rfl).symm⟩
  · exact ⟨_, d.modTile_congr s rfl⟩

/-- What DONE_BELL of a step descriptor adds at its completion. -/
def mdBellAdds (x : Nat) : List (Nat × Nat) := if mdBellEn x then [(mdBell x, 1)] else []

theorem exec_mxuStepComplete (st : SiteId) (s : State) :
    exec (.mxuStepComplete st) s = onEvent s (stepCompleteEnabled st) fun _ => stepCompleteEffect st := rfl

/-- A completion touches, in its tile, the unit, its position's count of firings, the counters, and the bells of the next cycle. -/
theorem stepCompleteEffect_only (s : SiteId) (d : Dev) :
    ∃ p, stepCompleteEffect s d = d.modTile s fun t => { t with
      mxu := { t.mxu.complete d.anow d.now with seeded := d.entropyOk },
      grid := vmod t.grid mxuPos fun q => { q with fired := q.fired + 1 },
      pmc := p,
      bellNext := t.bellNext ++ mdBellAdds (d.tile s).mxu.desc } := by
  unfold stepCompleteEffect
  dsimp only
  obtain ⟨p, hp⟩ := Dev.sample_only
    ((d.modMxu s fun u => { u.complete d.anow d.now with seeded := d.entropyOk }).firedOne s mxuPos) s
    { kind := 1, addr := 0, latency := bvFld (mxuRecord (d.tile s).mxu d.anow) 32 32, step := mdStepId (d.tile s).mxu.desc,
      unit := 0, ctx := ((d.tile s).mxu.running.map (·.ctx.val)).getD 0 }
  refine ⟨p, ?_⟩
  rw [hp]
  simp only [Dev.modMxu, Dev.firedOne, Dev.modPos, Dev.bellLater, Dev.modTile_modTile, mdBellAdds]
  split
  · rfl
  · simp only [List.append_nil]

/-- Settles O12: the fold decides what becomes of a row, and a completion's touch on the tile is known field by field. -/
theorem matrixUnitWorksRowByRow : Obligations.MatrixUnitWorksRowByRow := by
  unfold Obligations.MatrixUnitWorksRowByRow
  intro st s d u
  refine ⟨fun hen hover => ?_, fun hen hfits => ?_, fun hen => ?_, fun hen => ?_⟩
  · rw [exec_rowSlotStart, onEvent_holds _ hen, rowSlotEffect_of_overflows hover]
    rfl
  · rw [exec_rowSlotStart, onEvent_holds _ hen, rowSlotEffect_of_fits hfits]
  · rw [exec_weightSwap, onEvent_holds _ hen]
    rfl
  · obtain ⟨p, hp⟩ := stepCompleteEffect_only st d
    refine ⟨stepCompleteEffect st d, ?_, ?_⟩
    · rw [exec_mxuStepComplete, onEvent_holds _ hen]
    · rw [hp, Dev.modTile_tile, Dev.modTile_lofts]
      exact ⟨rfl, rfl, rfl, rfl, rfl, rfl⟩

end Sys2Proof.Machine
end

section
/-!
PROOFS. The scratchpad and the streaming units (R158 to R190, R264, R265): a section's grant where no port faults, the control
core's last access, the delivery of read bytes, zeroing, the completion of a pattern, and the statement about them.
-/
namespace Sys2Proof.Machine

/-! ### Work without an access (R181, R182, R198) -/

@[simp] theorem Tile.settle_ctl (m : MsuId) (live : Bool) (now fuel : Nat) (t : Tile) : (t.settle m live now fuel).ctl = t.ctl := by
  induction fuel generalizing t with
  | zero => rfl
  | succ fuel ih =>
    rw [Tile.settle]
    split
    · exact ih _
    split
    · exact ih _
    split
    · exact ih _
    · rfl

theorem Tile.foldl_settle_ctl (ms : List MsuId) (live : Bool) (now fuel : Nat) (t : Tile) :
    (ms.foldl (fun t m => t.settle m live now fuel) t).ctl = t.ctl := by
  induction ms generalizing t with
  | nil => rfl
  | cons m ms ih => rw [List.foldl_cons, ih, Tile.settle_ctl]

/-- The device in which the ports of a tile have done all work that needs no access, as a grant finds it. -/
def Dev.settled (d : Dev) (s : SiteId) : Dev :=
  d.modTile s fun t => (fins 8).foldl (fun t m => t.settle m (d.tileLive s) d.anow 64) t

theorem Dev.settled_eq (d : Dev) (s : SiteId) :
    (d.modTile s fun t => (fins 8).foldl (fun t m => t.settle m (d.tileLive s) d.anow 64) t) = d.settled s := rfl

/-- Whether a tile is live is in its binding to a paddock, which stands in its control registers, and in the paddock. -/
theorem Dev.modTile_tileLive {d : Dev} {s : SiteId} {f : Tile → Tile} (h : (f (d.tile s)).ctl = (d.tile s).ctl) :
    (d.modTile s f).tileLive s = d.tileLive s := by
  rw [Dev.tileLive, Dev.padOf, Dev.modTile_tile, h]
  rfl

theorem Dev.modTile_tileUp {d : Dev} {s : SiteId} {f : Tile → Tile} (h : (f (d.tile s)).ctl = (d.tile s).ctl) :
    (d.modTile s f).tileUp s = d.tileUp s := by
  rw [Dev.tileUp, Dev.padOf, Dev.modTile_tile, h]
  rfl

@[simp] theorem Dev.settled_tileLive (d : Dev) (s : SiteId) : (d.settled s).tileLive s = d.tileLive s :=
  Dev.modTile_tileLive (Tile.foldl_settle_ctl _ _ _ _ _)

@[simp] theorem Dev.settled_tileUp (d : Dev) (s : SiteId) : (d.settled s).tileUp s = d.tileUp s :=
  Dev.modTile_tileUp (Tile.foldl_settle_ctl _ _ _ _ _)

@[simp] theorem Dev.settled_anow (d : Dev) (s : SiteId) : (d.settled s).anow = d.anow := rfl

/-! ### The grant (R158 to R166) -/

theorem exec_scratchpadGrant (st : SiteId) (sec : Fin 4) (ecc : Ecc) (s : State) :
    exec (.scratchpadGrant st sec ecc) s = onEvent s (grantEnabled st sec) fun _ => grantEffect st sec ecc := rfl

/-- Where no port presents an access that faults, no fault is raised. -/
theorem Dev.askFaults_of_none {d : Dev} {s : SiteId} {sec : Nat}
    (h : (d.tile s).askFault sec (d.tileLive s) (d.tileUp s) d.anow = none) (fuel : Nat) : d.askFaults s sec fuel = d := by
  cases fuel with
  | zero => rfl
  | succ fuel => simp only [Dev.askFaults, h]

/-- The words that a granted access reads: a write those of which it names only part (R160). -/
def Ask.reads (k : Ask) : List Nat := if k.write then k.acc.merged else k.acc.words

/-- The turn of a port passes to the source that it serves; the tile port has none (R162). -/
def Dev.turned (d : Dev) (s : SiteId) (k : Ask) : Dev :=
  if k.req == 16 then d
  else d.modMsu s k.msu fun u => if k.write then { u with wrTurn := k.src.num } else { u with rdTurn := k.src.num }

section
variable {d : Dev} {s : SiteId} {sec : Fin 4}
  (hfault : ((d.settled s).tile s).askFault sec.val (d.tileLive s) (d.tileUp s) d.anow = none)
include hfault

/-- No fault is raised before the section arbitrates. -/
theorem Dev.settled_askFaults (fuel : Nat) : (d.settled s).askFaults s sec.val fuel = d.settled s :=
  Dev.askFaults_of_none (by rwa [Dev.settled_tileLive, Dev.settled_tileUp, Dev.settled_anow]) fuel

theorem grantEffect_of_idle (ecc : Ecc)
    (hpick : ((d.settled s).tile s).pick sec.val (d.tileLive s) (d.tileUp s) d.anow = none) :
    grantEffect s sec ecc d = d.settled s := by
  simp only [grantEffect, Dev.settled_eq, Dev.settled_askFaults hfault, Dev.settled_tileLive, Dev.settled_tileUp, hpick]

variable {k : Ask} (hpick : ((d.settled s).tile s).pick sec.val (d.tileLive s) (d.tileUp s) d.anow = some k)
include hpick

/-- A write to a panel queued for zeroing gives its grant to that zeroing (R165). -/
theorem grantEffect_of_queued (ecc : Ecc) (hwrite : k.write = true)
    (hqueued : ((d.settled s).tile s).spad.queued k.acc.panel = true) :
    grantEffect s sec ecc d =
      ((d.settled s).modSpad s fun p => p.granted sec.val k.req d.anow).modSpad s fun p => p.zeroRow k.acc.panel := by
  simp only [grantEffect, Dev.settled_eq, Dev.settled_askFaults hfault, Dev.settled_tileLive, Dev.settled_tileUp, hpick, hwrite,
    hqueued, Bool.and_self, if_true]

/-- Any other access is performed where the words that it reads are good and come out clean. -/
theorem grantEffect_of_readable (hfree : k.write = true → ((d.settled s).tile s).spad.queued k.acc.panel = false)
    (hgood : ∀ w ∈ k.reads, ((d.settled s).tile s).spad.badWords.contains w = false) :
    grantEffect s sec .clean d =
      (((d.settled s).modSpad s fun p => p.granted sec.val k.req d.anow).turned s k).perform s k := by
  have hzero : (k.write && ((d.settled s).tile s).spad.queued k.acc.panel) = false := by
    cases hw : k.write with
    | true => rw [hfree hw, Bool.and_false]
    | false => rfl
  have hbad : k.reads.filter ((d.settled s).tile s).spad.badWords.contains = [] :=
    List.filter_eq_nil_iff.2 fun w hw => by rw [hgood w hw]; exact Bool.false_ne_true
  rw [Ask.reads] at hbad
  simp only [grantEffect, Dev.settled_eq, Dev.settled_askFaults hfault, Dev.settled_tileLive, Dev.settled_tileUp, hpick, hzero,
    hbad, Bool.false_eq_true, if_false]
  rfl

end

/-! ### The control core's last access (R264, R265) -/

/-- A job that has made its last access leaves the tile port. -/
def Dev.coreLeft (d : Dev) (s : SiteId) (j : CoreJob) : Dev :=
  d.modTile s fun t => { t with core := eraseFirst (fun x => x == j) t.core }

section
variable {d : Dev} {s : SiteId} {j : CoreJob} (hjob : (d.tile s).core.find? (fun j => decide (j.len ≤ j.done)) = some j)
include hjob

theorem Dev.coreDone_recv (hrecv : j.recv = true) :
    d.coreDone s = (d.coreLeft s j).modTile s fun t => { t with
      queues := vmodN t.queues j.no fun q => { q with
        taking := q.taking - 1, entries := eraseFirst (fun x => x == j.entry) q.entries } } := by
  simp only [Dev.coreDone, hjob, hrecv, if_true]
  rfl

theorem Dev.coreDone_send {ch : Fin 64} (hsend : j.recv = false) (hno : j.no = ch.val) :
    d.coreDone s = ((d.coreLeft s j).modCtx s j.ctx fun y => { y with msgs := y.msgs + 1 }).enqueue s ch
      { ctx := j.ctx, bytes := j.bytes } := by
  simp only [Dev.coreDone, hjob, hsend, hno, finOf_val, Bool.false_eq_true, if_false]
  rfl

end

/-! ### Delivery and zeroing (R164, R165, R189) -/

theorem exec_readDelivery (st : SiteId) (m : MsuId) (s : State) :
    exec (.readDelivery st m) s = onEvent s (deliveryEnabled st m) fun _ => deliveryEffect st m := rfl

theorem exec_panelZero (st : SiteId) (sec : Fin 4) (s : State) :
    exec (.panelZero st sec) s = onEvent s (panelZeroEnabled st sec) fun _ => panelZeroEffect st sec := rfl

section
variable {d : Dev} {s : SiteId} {m : MsuId} {due : Nat} {secondary : Bool} {bs : Bytes} {rest : List (Nat × Bool × Bytes)}
  (hflight : (d.msu s m).flight = (due, secondary, bs) :: rest)
include hflight

theorem deliveryEffect_primary (hmode : (d.tile s).msuCfgMode m ≠ 2) (hsec : secondary = false) :
    deliveryEffect s m d = d.modMsu s m fun u => { u with flight := rest, asmP := u.asmP ++ bs } := by
  simp only [deliveryEffect, hflight, beq_iff_eq, hmode, hsec, Bool.false_eq_true, if_false]

theorem deliveryEffect_secondary (hmode : (d.tile s).msuCfgMode m ≠ 2) (hsec : secondary = true) :
    deliveryEffect s m d = d.modMsu s m fun u => { u with flight := rest, asmS := u.asmS ++ bs } := by
  simp only [deliveryEffect, hflight, beq_iff_eq, hmode, hsec, if_false, if_true]

theorem deliveryEffect_elastic (hmode : (d.tile s).msuCfgMode m = 2) :
    deliveryEffect s m d =
      (d.modPos s (msuPos m) fun p => { p with
        outQ := vmodN p.outQ 0 fun q => q ++ [(due + 1, Token.ofBytes 0#3 bs)] }).modMsu s m
          fun u => { u with flight := rest, elFlight := u.elFlight - 1 } := by
  simp only [deliveryEffect, hflight, beq_iff_eq, hmode, if_true]

end

theorem panelZeroEffect_of_cons {d : Dev} {s : SiteId} {sec : Fin 4} {panel row : Nat} {others : List (Nat × Nat)}
    (hqueue : (d.tile s).spad.zeroQ[sec] = (panel, row) :: others) :
    panelZeroEffect s sec d =
      d.modSpad s fun p => { p.zeroRow panel with lastGrant := vsetN p.lastGrant sec.val (some d.anow) } := by
  simp only [panelZeroEffect, hqueue]

/-! ### The completion of a pattern (R185, R187) -/

theorem exec_msuPatternComplete (st : SiteId) (m : MsuId) (write : Bool) (s : State) :
    exec (.msuPatternComplete st m write) s = onEvent s (patternEnabled st m write) fun _ => patternEffect st m write := rfl

/-- The write generator of an MSU, or its read generator. -/
def Msu.gen (u : Msu) (write : Bool) : Gen := if write then u.wr else u.rd

theorem Msu.gen_eq (u : Msu) (write : Bool) : (if write then u.wr else u.rd) = u.gen write := rfl

/-- An MSU after the completion of a pattern: its record is pushed and counted, and the generator takes its next pattern. -/
def Msu.completed (u : Msu) (write : Bool) (now anow : Nat) : Msu :=
  let u := { u with done := u.done.push now (patternRecord (u.gen write) write), complete := u.complete + 1 }
  if write then { u with wr := u.wr.next anow } else { u with rd := u.rd.next anow }

theorem Msu.completed_done (u : Msu) (write : Bool) (now anow : Nat) :
    (u.completed write now anow).done = u.done.push now (patternRecord (u.gen write) write) := by
  cases write <;> rfl

theorem Msu.completed_complete (u : Msu) (write : Bool) (now anow : Nat) :
    (u.completed write now anow).complete = u.complete + 1 := by
  cases write <;> rfl

theorem Msu.completed_gens (u : Msu) (write : Bool) (now anow : Nat) :
    if write then (u.completed write now anow).wr = u.wr.next anow ∧ (u.completed write now anow).rd = u.rd
    else (u.completed write now anow).rd = u.rd.next anow ∧ (u.completed write now anow).wr = u.wr := by
  cases write <;> exact ⟨rfl, rfl⟩

/-- What DONE_BELL of a pattern descriptor adds at its completion. -/
def pdBellAdds (x : Nat) : List (Nat × Nat) := if pdBellEn x then [(pdBell x, 1)] else []

/-- A completion touches, in its tile, the MSU, its position's count of firings, the counters, and the bells of the next cycle. -/
theorem patternEffect_only (s : SiteId) (m : MsuId) (write : Bool) (d : Dev) :
    ∃ p, patternEffect s m write d = d.modTile s fun t => { t with
      msus := vmod t.msus m fun u => u.completed write d.now d.anow,
      grid := vmod t.grid (msuPos m) fun q => { q with fired := q.fired + 1 },
      pmc := p,
      bellNext := t.bellNext ++ pdBellAdds ((d.msu s m).gen write).x } := by
  have hmsu : (d.modMsu s m fun u =>
      let u := { u with done := u.done.push d.now (patternRecord ((d.msu s m).gen write) write), complete := u.complete + 1 }
      if write then { u with wr := u.wr.next d.anow } else { u with rd := u.rd.next d.anow }) =
      d.modMsu s m fun u => u.completed write d.now d.anow := by
    refine Dev.modTile_congr d s ?_
    simp only [vmod]
    rfl
  simp only [patternEffect, Msu.gen_eq]
  rw [hmsu]
  generalize ({ kind := 2, addr := _, latency := _, step := _, unit := _, ctx := _ } : Sample) = x
  obtain ⟨p, hp⟩ := Dev.sample_only ((d.modMsu s m fun u => u.completed write d.now d.anow).firedOne s (msuPos m)) s x
  refine ⟨p, ?_⟩
  rw [hp]
  simp only [Dev.modMsu, Dev.firedOne, Dev.modPos, Dev.bellLater, Dev.modTile_modTile, pdBellAdds]
  split
  · rfl
  · simp only [List.append_nil]

/-- Settles O14: what the section picks decides its grant, the job's kind what its last access does, the mode and the stream where
the bytes go, and a completion's touch on the tile is known field by field. -/
theorem streamingUnitsMoveBytes : Obligations.StreamingUnitsMoveBytes := by
  unfold Obligations.StreamingUnitsMoveBytes
  refine ⟨fun st sec s hen => ?_, fun st j d hjob => ⟨Dev.coreDone_recv hjob, fun ch => Dev.coreDone_send hjob⟩,
    fun st m sec s => ⟨fun due secondary bs rest hen hflight => ?_, fun panel row others hen hqueue => ?_⟩,
    fun st m write s hen => ?_⟩
  · intro now live up d t hfault
    rw [exec_scratchpadGrant, onEvent_holds _ hen]
    refine ⟨fun hpick => ?_, fun k hpick => ⟨fun hwrite hqueued => ?_, fun hfree hgood => ?_⟩⟩
    · rw [grantEffect_of_idle hfault .clean hpick]
      rfl
    · rw [grantEffect_of_queued hfault hpick .clean hwrite hqueued]
      rfl
    · rw [grantEffect_of_readable hfault hpick hfree hgood]
      rfl
  · rw [exec_readDelivery, onEvent_holds _ hen]
    refine ⟨fun hmode hsec => ?_, fun hmode hsec => ?_, fun hmode => ?_⟩
    · rw [deliveryEffect_primary hflight hmode hsec]
    · rw [deliveryEffect_secondary hflight hmode hsec]
    · rw [deliveryEffect_elastic hflight hmode]
  · rw [exec_panelZero, onEvent_holds _ hen, panelZeroEffect_of_cons hqueue]
  · obtain ⟨p, hp⟩ := patternEffect_only st m write s.dev
    refine ⟨patternEffect st m write s.dev, ?_, ?_⟩
    · rw [exec_msuPatternComplete, onEvent_holds _ hen]
    · have hmsu : (patternEffect st m write s.dev).msu st m = (s.dev.msu st m).completed write s.dev.now s.dev.anow := by
        rw [hp, Dev.msu, Dev.modTile_tile]
        exact vmod_same _ m _
      rw [hmsu, hp, Dev.modTile_tile, Dev.modTile_lofts]
      exact ⟨Msu.completed_done .., Msu.completed_complete .., Msu.completed_gens .., rfl, rfl, rfl, rfl⟩

end Sys2Proof.Machine
end

section
/-!
PROOFS. Requests that a loft controller accepts (R192, R196, R202, R205, R497): what a write does to a loft's memory, what becomes of
a request inside and outside its paddock's windows, and the statement about both.
-/
namespace Sys2Proof.Machine

/-! ### What a write does to a loft's memory (R192, R205, R497) -/

/-- A channel whose path has failed discards what is written to it. -/
theorem Loft.update_mem_of_dead {l : Loft} {off : Nat} (h : l.deadChans.contains (offChannel off) = true) (n now : Nat)
    (f : Mem → Mem) : (l.update off n now f).mem = l.mem := by
  rw [Loft.update, if_pos h]

theorem Loft.update_mem_of_live {l : Loft} {off : Nat} (h : l.deadChans.contains (offChannel off) = false) (n now : Nat)
    (f : Mem → Mem) : (l.update off n now f).mem = f l.mem := by
  rw [Loft.update, if_neg (Bool.eq_false_iff.1 h)]

theorem Loft.store_mem_of_dead {l : Loft} {off : Nat} (h : l.deadChans.contains (offChannel off) = true) (bs : Bytes) (now : Nat) :
    (l.store off bs now).mem = l.mem := Loft.update_mem_of_dead h ..

theorem Loft.store_mem_of_live {l : Loft} {off : Nat} (h : l.deadChans.contains (offChannel off) = false) (bs : Bytes) (now : Nat) :
    (l.store off bs now).mem = l.mem.writeN off bs := Loft.update_mem_of_live h ..

/-- The acceptance of a write opens, joins and closes merge windows, and leaves the memory and the channels out of service. -/
theorem Loft.acceptWrite_getD (l : Loft) (off len now : Nat) :
    ((l.acceptWrite off len now).getD l).mem = l.mem ∧ ((l.acceptWrite off len now).getD l).deadChans = l.deadChans := by
  simp only [Loft.acceptWrite]
  split
  · exact ⟨rfl, rfl⟩
  · split <;> split <;> exact ⟨rfl, rfl⟩

section
variable {l : Loft} {r : LoftReq} (hw : r.write = true)
include hw

/-- A write that is performed stores its bytes once it is accepted. -/
theorem Loft.performReq_write (now : Nat) :
    l.performReq r now = ((l.acceptWrite (dramOff r.addr) r.len now).getD l).store (dramOff r.addr) r.data now := if_pos hw

theorem Loft.performReq_mem_of_dead (h : l.deadChans.contains (offChannel (dramOff r.addr)) = true) (now : Nat) :
    (l.performReq r now).mem = l.mem := by
  obtain ⟨hmem, hdead⟩ := l.acceptWrite_getD (dramOff r.addr) r.len now
  rw [Loft.performReq_write hw, Loft.store_mem_of_dead (by rw [hdead, h]), hmem]

theorem Loft.performReq_mem_of_live (h : l.deadChans.contains (offChannel (dramOff r.addr)) = false) (now : Nat) :
    (l.performReq r now).mem = l.mem.writeN (dramOff r.addr) r.data := by
  obtain ⟨hmem, hdead⟩ := l.acceptWrite_getD (dramOff r.addr) r.len now
  rw [Loft.performReq_write hw, Loft.store_mem_of_live (by rw [hdead, h]), hmem]

end

theorem Loft.unqueue_mem (l : Loft) (router : Bool) (r : LoftReq) (now : Nat) : (l.unqueue router r now).mem = l.mem := rfl

theorem Loft.unqueue_deadChans (l : Loft) (router : Bool) (r : LoftReq) (now : Nat) :
    (l.unqueue router r now).deadChans = l.deadChans := rfl

/-! ### A request inside and outside the windows of its paddock (R196, R202, R205) -/

/-- The device once the controller has taken a request out of its path. -/
def Dev.loftUnqueued (d : Dev) (l : SiteId) (router : Bool) (r : LoftReq) : Dev := d.modLoft l fun lo => lo.unqueue router r d.now

/-- The device once the controller has taken a request and performed it. -/
def Dev.loftPerformed (d : Dev) (l : SiteId) (router : Bool) (r : LoftReq) : Dev :=
  (d.loftUnqueued l router r).modLoft l fun lo => lo.performReq r d.now

theorem Dev.loftPerformed_loft (d : Dev) (l : SiteId) (router : Bool) (r : LoftReq) :
    (d.loftPerformed l router r).loft l = ((d.loft l).unqueue router r d.now).performReq r d.now := by
  rw [Dev.loftPerformed, Dev.modLoft_loft, Dev.loftUnqueued, Dev.modLoft_loft]

theorem Dev.loftPerformed_loft_ne (d : Dev) (router : Bool) (r : LoftReq) {l l' : SiteId} (h : l' ≠ l) :
    (d.loftPerformed l router r).loft l' = d.loft l' := by
  rw [Dev.loftPerformed, Dev.modLoft_loft_ne _ _ _ _ h, Dev.loftUnqueued, Dev.modLoft_loft_ne _ _ _ _ h]

/-- What the acceptance of a request settles with its engine: a write or a read-and-zero of the loft's own tile is paid at once, a
write of another site is acknowledged by a packet, and any other request is settled when its bytes arrive. -/
def Dev.loftSettled (d : Dev) (l : SiteId) (router : Bool) (r : LoftReq) : Dev :=
  if !(r.write || r.clear) then d
  else if !router then d.accepted r.who r.len
  else if r.write then d.loftAnswer l r.who.site.1 1 r.prio (finOf 16 r.pad) 0 (.loftAck r.who r.len)
  else d

section
variable {r : LoftReq} (d : Dev) (l : SiteId)

theorem Dev.loftSettled_of_read (router : Bool) (hw : r.write = false) (hc : r.clear = false) : d.loftSettled l router r = d := by
  simp [Dev.loftSettled, hw, hc]

theorem Dev.loftSettled_of_direct (h : r.write = true ∨ r.clear = true) :
    d.loftSettled l false r = d.accepted r.who r.len := by
  have hpaid : (r.write || r.clear) = true := Bool.or_eq_true_iff.2 h
  simp only [Dev.loftSettled, hpaid, Bool.not_true, Bool.not_false, Bool.false_eq_true, if_false, if_true]

theorem Dev.loftSettled_of_routedWrite (hw : r.write = true) :
    d.loftSettled l true r = d.loftAnswer l r.who.site.1 1 r.prio (finOf 16 r.pad) 0 (.loftAck r.who r.len) := by
  simp [Dev.loftSettled, hw]

theorem Dev.loftSettled_of_routedRead (hw : r.write = false) : d.loftSettled l true r = d := by
  simp [Dev.loftSettled, hw]

end

theorem Dev.accepted_lofts (d : Dev) (who : Requester) (n : Nat) : (d.accepted who n).lofts = d.lofts := by
  cases who <;> rfl

/-- Settling with the engine leaves every loft as it is. -/
theorem Dev.loftSettled_loft (d : Dev) (l l' : SiteId) (router : Bool) (r : LoftReq) :
    (d.loftSettled l router r).loft l' = d.loft l' := by
  have hlofts : (d.loftSettled l router r).lofts = d.lofts := by
    simp only [Dev.loftSettled]
    split
    · rfl
    split
    · exact Dev.accepted_lofts ..
    split <;> rfl
  exact congrArg (·[l']) hlofts

/-- The windows of a paddock do not depend on what a loft holds. -/
theorem Dev.modLoft_windowOk (d : Dev) (l l' : SiteId) (f : Loft → Loft) (r : LoftReq) :
    (d.modLoft l' f).windowOk l r = d.windowOk l r := rfl

theorem exec_loftRequestAccept (l : SiteId) (router : Bool) (s : State) :
    exec (.loftRequestAccept l router) s = onEvent s (acceptEnabled l router) fun _ => acceptEffect l router := rfl

section
variable {d : Dev} {l : SiteId} {router : Bool} {r : LoftReq} (hreq : (d.loft l).acceptable router d.now = some r)
include hreq

theorem acceptEffect_of_denied (h : d.windowOk l r = false) :
    acceptEffect l router d = (d.loftUnqueued l router r).faultRequester r.who (!r.write) 0x300A r.addr 0xFF := by
  simp only [acceptEffect, hreq]
  exact if_pos (by rw [Dev.modLoft_windowOk, h, Bool.not_false])

theorem acceptEffect_of_granted (h : d.windowOk l r = true) :
    acceptEffect l router d = (d.loftPerformed l router r).loftSettled l router r := by
  simp only [acceptEffect, hreq]
  exact if_neg (by rw [Dev.modLoft_windowOk, h, Bool.not_true]; exact Bool.false_ne_true)

end

/-- Settles O15: the window decides between the fault and the performance, the kind of the request and its path what is settled with
the engine, and the channel's path whether a write reaches the memory. -/
theorem loftPerformsGrantedRequests : Obligations.LoftPerformsGrantedRequests := by
  unfold Obligations.LoftPerformsGrantedRequests
  refine ⟨fun l router r s hen hreq => ?_, fun l router r s hen hreq hok hw => ?_⟩
  · intro d
    rw [exec_loftRequestAccept, onEvent_holds _ hen]
    refine ⟨fun hdenied => ?_, fun hok hw hc => ?_, ?_, ?_, ?_⟩
    · rw [acceptEffect_of_denied hreq hdenied]
      rfl
    · rw [acceptEffect_of_granted hreq hok, Dev.loftSettled_of_read _ _ _ hw hc]
      rfl
    · rintro hok rfl hpaid
      rw [acceptEffect_of_granted hreq hok, Dev.loftSettled_of_direct _ _ hpaid]
      rfl
    · rintro hok rfl hw
      rw [acceptEffect_of_granted hreq hok, Dev.loftSettled_of_routedWrite _ _ hw]
      rfl
    · rintro hok rfl hw
      rw [acceptEffect_of_granted hreq hok, Dev.loftSettled_of_routedRead _ _ hw]
      rfl
  · refine ⟨(s.dev.loftPerformed l router r).loftSettled l router r, ?_, fun l' hne => ?_, fun hdead => ?_, fun hlive => ?_⟩
    · rw [exec_loftRequestAccept, onEvent_holds _ hen, acceptEffect_of_granted hreq hok]
    · rw [Dev.loftSettled_loft, Dev.loftPerformed_loft_ne _ _ _ hne]
    · rw [Dev.loftSettled_loft, Dev.loftPerformed_loft, Loft.performReq_mem_of_dead hw (by rw [Loft.unqueue_deadChans, hdead]),
        Loft.unqueue_mem]
    · rw [Dev.loftSettled_loft, Dev.loftPerformed_loft, Loft.performReq_mem_of_live hw (by rw [Loft.unqueue_deadChans, hlive]),
        Loft.unqueue_mem]
      exact ⟨Mem.readN_writeN .., fun a ha => Mem.read_writeN_outside _ _ _ _ ha⟩

end Sys2Proof.Machine
end

section
/-!
PROOFS. Upkeep of a loft (R209, R213, R442) and sparing (R495 to R497): what the scrub makes of a codeword, what posting and the
summary of health leave alone, what a spare row and a spare channel change, and the statement about them.
-/
namespace Sys2Proof.Machine

/-! ### The scrub of a codeword (R212, R213) -/

theorem mem_insertNat {x y : Nat} {l : List Nat} : y ∈ insertNat x l ↔ y = x ∨ y ∈ l := by
  induction l with
  | nil => simp [insertNat]
  | cons z l ih =>
    simp only [insertNat]
    split
    · simp only [List.mem_cons]
    split
    · rename_i hxz
      simp only [hxz, List.mem_cons, or_self_left]
    · simp only [List.mem_cons, ih, or_left_comm]

/-- One byte lies in one codeword. -/
theorem wordsIn_one (off : Nat) : wordsIn off 1 = [off / 16] := by
  simp [wordsIn]

/-- What the code has counted as corrected leaves the codewords of a range as good or as bad as they were. -/
theorem Loft.corrected_badOf (l : Loft) (site o now off n : Nat) : (l.corrected site o now).badOf off n = l.badOf off n := rfl

/-- A codeword that is found uncorrectable is bad from then on. -/
theorem Loft.uncorrectable_badOf {l : Loft} {off : Nat} (h : l.badOf off 1 = []) (now : Nat) :
    (l.uncorrectable off now).badOf off 1 = [off / 16] := by
  have hlive : l.deadChans.contains (offChannel off) = false := by
    cases hdead : l.deadChans.contains (offChannel off) with
    | false => rfl
    | true =>
      rw [Loft.badOf, if_pos hdead, wordsIn_one] at h
      contradiction
  have hmarked : (insertNat (off / 16) l.badWords).contains (off / 16) = true := by
    rw [List.contains_iff_mem, mem_insertNat]
    exact .inl rfl
  have hbad : (l.uncorrectable off now).badOf off 1 = (wordsIn off 1).filter (insertNat (off / 16) l.badWords).contains :=
    if_neg (Bool.eq_false_iff.1 hlive)
  rw [hbad, wordsIn_one, List.filter_cons_of_pos hmarked, List.filter_nil]

section
variable {d : Dev} {l : SiteId} {o : Nat} (hgood : (d.loft l).badOf o 1 = [])
include hgood

theorem Dev.dramCode_clean : d.dramCode l o .clean = d := by
  simp [Dev.dramCode, hgood]

theorem Dev.dramCode_corrected : d.dramCode l o .corrected = d.modLoft l fun lo => lo.corrected l.val o d.now := by
  simp [Dev.dramCode, hgood]

theorem Dev.dramCode_uncorrectable : d.dramCode l o .uncorrectable = d.modLoft l fun lo => lo.uncorrectable o d.now := by
  simp [Dev.dramCode, hgood]

/-- A clean codeword is left alone. -/
theorem Dev.scrubCode_clean : d.scrubCode l o .clean = d := by
  simp only [Dev.scrubCode, Dev.dramCode_clean hgood, hgood, List.isEmpty_nil, if_true]

/-- A corrected codeword is counted. -/
theorem Dev.scrubCode_corrected :
    d.scrubCode l o .corrected = d.modLoft l fun lo => lo.corrected l.val o d.now := by
  simp only [Dev.scrubCode, Dev.dramCode_corrected hgood, Dev.modLoft_loft, Loft.corrected_badOf, hgood, List.isEmpty_nil, if_true]

/-- An uncorrectable codeword is counted and posted. -/
theorem Dev.scrubCode_uncorrectable :
    d.scrubCode l o .uncorrectable = (d.modLoft l fun lo => lo.uncorrectable o d.now).post 0 4 l.val 0xE001
      (payloadE (l.val * 2 ^ 33 + o / 64 * 64) l.val 0xFF 1 0xFF 0 0) := by
  simp only [Dev.scrubCode, Dev.dramCode_uncorrectable hgood, Dev.modLoft_loft, Loft.uncorrectable_badOf hgood, List.isEmpty_cons,
    Bool.false_eq_true, if_false]

end

/-- The device once the scrub has read a codeword in its pass (R213). -/
def Dev.patrolRead (d : Dev) (l : SiteId) (off : BitVec 33) : Dev :=
  d.modLoft l fun lo => { lo with
    patrolPass := scrubPass d.now, patrolled := insertNat (off.toNat / 16) (lo.patrolSeen d.now) }

theorem Dev.patrolRead_badOf (d : Dev) (l : SiteId) (off : BitVec 33) (o n : Nat) :
    ((d.patrolRead l off).loft l).badOf o n = (d.loft l).badOf o n := by
  rw [Dev.patrolRead, Dev.modLoft_loft]
  rfl

theorem exec_patrolScrub (l : SiteId) (off : BitVec 33) (ecc : DramEcc) (s : State) :
    exec (.patrolScrub l off ecc) s =
      onEvent s (patrolEnabled l off) fun _ d => (d.patrolRead l off).scrubCode l off.toNat ecc := rfl

/-! ### Refresh and zeroing (R209, R210, R442) -/

theorem exec_refreshRateChange (l : SiteId) (layers : Vector (BitVec 16) 8) (s : State) :
    exec (.refreshRateChange l layers) s = onEvent s Dev.running fun _ => refreshEffect l layers := rfl

/-- Up to 105 °C no alert is raised. -/
theorem refreshEffect_of_le {layers : Vector (BitVec 16) 8} (h : (hottestOf layers).toInt ≤ 105 * 8) (l : SiteId) (d : Dev) :
    refreshEffect l layers d = d.modLoft l fun lo => { lo with
      layers := layers, temp := hottestOf layers,
      refresh := BitVec.ofNat 8 (refreshOf lo.refresh.toNat (hottestOf layers).toInt) } :=
  if_neg (Int.not_lt.2 h)

theorem exec_windowZeroingComplete (l : SiteId) (base : Nat) (s : State) :
    exec (.windowZeroingComplete l base) s = onEvent s (zeroingEnabled l base) fun _ => zeroingEffect l base := rfl

/-- A loft after the zeroing of a returned window of `n` units of 4 KiB. -/
def Loft.windowZeroed (l : Loft) (base n : Nat) : Loft :=
  { l with
    mem := l.mem.clear (base * 4096) ((base + n) * 4096),
    badWords := l.badWords.filter fun u => 16 * u < base * 4096 || (base + n) * 4096 ≤ 16 * u,
    zeroing := eraseFirst (fun z => z == (base, n)) l.zeroing }

section
variable {d : Dev} {l : SiteId} {base n : Nat} (hwindow : (d.loft l).zeroing.find? (fun z => z.1 == base) = some (base, n))
include hwindow

/-- A window that waits for its zeroing can be zeroed. -/
theorem zeroingEnabled_of_find (hrun : d.running = true) : zeroingEnabled l base d = true := by
  have hany : (d.loft l).zeroing.any (fun z => z.1 == base) = true := by
    rw [List.any_eq, decide_eq_true_iff, ← List.find?_isSome, hwindow, Option.isSome_some]
  rw [zeroingEnabled, hrun, hany, Bool.and_self]

theorem zeroingEffect_of_find : zeroingEffect l base d = d.modLoft l fun lo => lo.windowZeroed base n := by
  simp only [zeroingEffect, hwindow]
  rfl

end

/-- An update of a loft changes that loft only. -/
theorem Dev.modLoft_onlyLoft (d : Dev) (l : SiteId) (f : Loft → Loft) : OnlyLoft l d (d.modLoft l f) :=
  Dev.modLoft_congr d l (Dev.modLoft_loft d l f).symm

/-! ### Sparing (R495 to R497) -/

/-- A choice between two devices of the same lofts has these lofts. -/
theorem Dev.ite_lofts {d e : Dev} (h : e.lofts = d.lofts) (c : Bool) : (if c then d else e).lofts = d.lofts := by
  split
  · rfl
  · exact h

/-- Posting, alerts and the summary of health touch no loft. -/
theorem Dev.health_lofts (d : Dev) : d.health.lofts = d.lofts := by
  unfold Dev.health
  extract_lets deg newDeg noted posted newRep
  have hposted : posted.lofts = noted.lofts := Dev.ite_lofts (by rfl) _
  clear_value posted
  exact (Dev.ite_lofts (by rfl) _).trans hposted

theorem Dev.recordRepair_lofts (d : Dev) (r : Repair) : (d.recordRepair r).lofts = d.lofts := by
  rw [Dev.recordRepair]
  split <;> rfl

theorem exec_rowSpared (l : SiteId) (ch : Fin 64) (bank : Fin 16) (row : Fin 4096) (s : State) :
    exec (.rowSpared l ch bank row) s =
      onEvent s (rowSparedEnabled l ch bank row) fun _ => rowSparedEffect l ch bank row := rfl

/-- A loft whose row has been copied to a spare: the row is recorded, and what was noted of it forgotten. -/
def Loft.rowReplaced (l : Loft) (key : Nat) : Loft :=
  { l with
    sparedRows := l.sparedRows ++ [key],
    ceHist := l.ceHist.filter fun x => x.1 != key,
    ueHist := l.ueHist.filter fun x => x.1 != key }

section
variable (l : SiteId) (ch : Fin 64) (bank : Fin 16) (row : Fin 4096) (d : Dev)

theorem rowSparedEffect_loft : (rowSparedEffect l ch bank row d).loft l = (d.loft l).rowReplaced (rowOf ch bank row) :=
  Dev.modLoft_loft d l fun lo => lo.rowReplaced (rowOf ch bank row)

theorem rowSparedEffect_loft_ne {l' : SiteId} (h : l' ≠ l) : (rowSparedEffect l ch bank row d).loft l' = d.loft l' :=
  Dev.modLoft_loft_ne d l l' (fun lo => lo.rowReplaced (rowOf ch bank row)) h

theorem rowSparedEffect_rowSpares :
    (rowSparedEffect l ch bank row d).rowSpares = d.rowSpares ++ [(l.val, ch.val, bank.val, row.val)] := rfl

end

theorem exec_channelSpared (l : SiteId) (ch : Fin 64) (path : ChanPath) (s : State) :
    exec (.channelSpared l ch path) s =
      onEvent s (channelSparedEnabled l ch path) fun _ => channelSparedEffect l ch path := rfl

/-- A loft whose channel has taken its layer's spare, with that spare's own spare rows. -/
def Loft.chanReplaced (l : Loft) (ch : Nat) : Loft :=
  { l.forgetChan ch with
    sparedChans := insertNat ch l.sparedChans, sparedRows := l.sparedRows.filter fun r => r / 65536 != ch }

section
variable {d : Dev} {l : SiteId} {ch : Fin 64} (hfree : (d.loft l).layerSpent ch.val = false)
include hfree

/-- Where its layer's spare is free, a channel takes it. -/
theorem Dev.spareChan_lofts : (d.spareChan l ch).lofts = (d.modLoft l fun lo => lo.chanReplaced ch.val).lofts := by
  rw [Dev.spareChan, if_neg (Bool.eq_false_iff.1 hfree), Dev.health_lofts]
  exact Dev.recordRepair_lofts ..

theorem Dev.spareChan_loft : (d.spareChan l ch).loft l = (d.loft l).chanReplaced ch.val :=
  (congrArg (·[l]) (Dev.spareChan_lofts hfree)).trans (Dev.modLoft_loft ..)

theorem Dev.spareChan_loft_ne {l' : SiteId} (h : l' ≠ l) : (d.spareChan l ch).loft l' = d.loft l' :=
  (congrArg (·[l']) (Dev.spareChan_lofts hfree)).trans (Dev.modLoft_loft_ne _ _ _ _ h)

end

/-- A first parity failure of a channel's path is noted, and spares nothing (R495). -/
theorem Dev.pathParity_first {d : Dev} {l : SiteId} (h : (d.loft l).pathErrs = []) (ch : Fin 64) :
    d.pathParity l ch = d.modLoft l fun lo => { lo with pathErrs := [(ch.val, d.now)] } := by
  simp [Dev.pathParity, h]

/-- Settles O17: the code decides what the scrub counts and posts, and sparing touches in its loft the tables of spares and the
histories, never the memory. -/
theorem loftUpkeepKeepsData : Obligations.LoftUpkeepKeepsData := by
  unfold Obligations.LoftUpkeepKeepsData
  refine ⟨fun l off layers base n s hrun => ⟨fun hen hgood => ?_, fun hcool => ?_, fun hwindow => ?_⟩,
    fun l ch bank row s => ⟨fun hen => ?_, fun hen hfree => ?_, fun hen hfirst => ?_⟩⟩
  · have hread : ((s.dev.patrolRead l off).loft l).badOf off.toNat 1 = [] := by rw [Dev.patrolRead_badOf, hgood]
    simp only [exec_patrolScrub, onEvent_holds _ hen]
    refine ⟨?_, ?_, ?_⟩
    · rw [Dev.scrubCode_clean hread]
      rfl
    · rw [Dev.scrubCode_corrected hread]
      rfl
    · rw [Dev.scrubCode_uncorrectable hread]
      rfl
  · rw [exec_refreshRateChange, onEvent_holds _ hrun, refreshEffect_of_le hcool]
  · refine ⟨s.dev.modLoft l fun lo => lo.windowZeroed base n, ?_, Dev.modLoft_onlyLoft .., fun a hlow hhigh => ?_, fun a hout => ?_⟩
    · rw [exec_windowZeroingComplete, onEvent_holds _ (zeroingEnabled_of_find hwindow hrun), zeroingEffect_of_find hwindow]
    · rw [Dev.modLoft_loft, Loft.windowZeroed, Mem.read_clear, if_pos ⟨hlow, hhigh⟩]
    · rw [Dev.modLoft_loft, Loft.windowZeroed, Mem.read_clear, if_neg (by omega)]
  · refine ⟨rowSparedEffect l ch bank row s.dev, ?_, ?_, ?_, rowSparedEffect_rowSpares ..,
      fun l' hne => rowSparedEffect_loft_ne _ _ _ _ _ hne⟩
    · rw [exec_rowSpared, onEvent_holds _ hen]
    · rw [rowSparedEffect_loft, Loft.rowReplaced]
    · rw [rowSparedEffect_loft, Loft.rowReplaced]
  · refine ⟨s.dev.spareChan l ch, ?_, ?_, ?_, fun l' hne => ?_⟩
    · rw [exec_channelSpared, onEvent_holds _ hen, channelSparedEffect]
    · rw [Dev.spareChan_loft hfree, Loft.chanReplaced, Loft.forgetChan]
    · rw [Dev.spareChan_loft hfree, Loft.chanReplaced]
    · rw [Dev.spareChan_loft_ne hfree hne]
  · rw [exec_channelSpared, onEvent_holds _ hen, channelSparedEffect, Dev.pathParity_first hfirst]

end Sys2Proof.Machine
end

section
/-!
PROOFS. Controllers, movers and update paths that complete (R199, R200, R202 to R204, R211, R212, R214, R281): the return of a closed
tag in its three parts, the issue by the mode of the unit, the two completions, and the statement about them.
-/
namespace Sys2Proof.Machine

/-! ### Windows and write entries (R202, R203) -/

theorem exec_mergeWindowClose (l : SiteId) (block : Nat) (s : State) :
    exec (.mergeWindowClose l block) s = onEvent s (mergeCloseEnabled l block) fun _ => mergeCloseEffect l block := rfl

theorem exec_dramWriteBurst (l : SiteId) (s : State) :
    exec (.dramWriteBurst l) s = onEvent s (writeBurstEnabled l) fun _ => writeBurstEffect l := rfl

/-! ### The return of a closed tag (R204, R211, R212, R214) -/

theorem exec_loftReadReturn (l : SiteId) (found : List (Fin 32 × DramEcc)) (s : State) :
    exec (.loftReadReturn l found) s = onEvent s (readReturnEnabled l) fun _ => readReturnEffect l found := rfl

/-- The device once a tag has left its controller. -/
def Dev.tagLeft (d : Dev) (l : SiteId) (t : LoftTag) : Dev :=
  d.modLoft l fun lo => { lo with tags := eraseFirst (fun q => q == t) lo.tags }

/-- The codewords that the requests of a tag which has left meet as uncorrectable already. -/
def Dev.knownBad (d : Dev) (l : SiteId) (t : LoftTag) : List Nat :=
  (t.reqs.flatMap fun r => ((d.tagLeft l t).loft l).badNow t r).dedup

/-- Codewords that are met as uncorrectable already are counted. -/
def Dev.countBad (d : Dev) (l : SiteId) (us : List Nat) : Dev :=
  us.foldl (fun d u => d.modLoft l fun lo => lo.foundBad (16 * u) d.now) d

/-- What the code finds in a tag's block beside the codewords known as uncorrectable, one finding after another. -/
def Dev.returnCodes (d : Dev) (l : SiteId) (t : LoftTag) (known : List Nat) (found : List (Fin 32 × DramEcc)) : Dev × LoftTag :=
  found.foldl (fun (x : Dev × LoftTag) f =>
    if known.contains (t.block * 32 + f.1.val) then x else x.1.returnCode l x.2 (t.block * 32 + f.1.val) f.2) (d, t)

/-- The requesters of a tag get their bytes in order. -/
def Dev.returnAll (d : Dev) (l : SiteId) (t : LoftTag) : Dev := t.reqs.foldl (fun d r => d.returnOne l t r) d

section
variable (d : Dev) (l : SiteId) (t : LoftTag) {known : List Nat}

theorem Dev.returnCodes_nil : d.returnCodes l t known [] = (d, t) := rfl

theorem Dev.returnCodes_known {b : Fin 32} (h : known.contains (t.block * 32 + b.val) = true) (ecc : DramEcc) :
    d.returnCodes l t known [(b, ecc)] = (d, t) := if_pos h

theorem Dev.returnCodes_corrected (b : Fin 32) :
    d.returnCodes l t [] [(b, .corrected)] =
      (d.modLoft l fun lo => lo.corrected l.val (16 * (t.block * 32 + b.val)) d.now, t) := rfl

end

/-- A closed tag leaves; what its requests met as uncorrectable is counted, then what the code finds, and then the bytes go out. -/
theorem readReturnEffect_of_ready {l : SiteId} {d : Dev} {t : LoftTag} (h : (d.loft l).readyTag d.now = some t)
    (found : List (Fin 32 × DramEcc)) :
    readReturnEffect l found d =
      let x := ((d.tagLeft l t).countBad l (d.knownBad l t)).returnCodes l t (d.knownBad l t) found
      x.1.returnAll l x.2 := by
  simp only [readReturnEffect, h]
  rfl

/-! ### Issue and completion (R199, R200, R281) -/

theorem exec_moverRequestIssue (st : SiteId) (m : MsuId) (s : State) :
    exec (.moverRequestIssue st m) s = onEvent s (moverIssueEnabled st m) fun _ => moverIssueEffect st m := rfl

theorem exec_moverTransferComplete (st : SiteId) (m : MsuId) (s : State) :
    exec (.moverTransferComplete st m) s = onEvent s (moverCompleteEnabled st m) fun _ => moverCompleteEffect st m := rfl

theorem exec_updateComplete (st : SiteId) (m : MsuId) (s : State) :
    exec (.updateComplete st m) s = onEvent s (updateCompleteEnabled st m) fun _ => updateCompleteEffect st m := rfl

/-- The mode of an MSU stands in its configuration, which no change of the unit itself reaches. -/
theorem Dev.modMsu_msuCfgMode (d : Dev) (s : SiteId) (m m' : MsuId) (f : Msu → Msu) :
    ((d.modMsu s m f).tile s).msuCfgMode m' = (d.tile s).msuCfgMode m' := by
  rw [Dev.modMsu, Dev.modTile_tile, Tile.msuCfgMode, Tile.msuCfgMode]

section
variable {s : SiteId} {m : MsuId} {d : Dev}

theorem moverIssueEffect_update (h : (d.tile s).msuCfgMode m = 3) :
    moverIssueEffect s m d = (d.modMsu s m fun u => { u with mv := u.mv.settle d.now }).updStep s m := by
  simp only [moverIssueEffect, Dev.modMsu_msuCfgMode, h, beq_self_eq_true, if_true]

theorem moverIssueEffect_mover (h : (d.tile s).msuCfgMode m ≠ 3) :
    moverIssueEffect s m d = (d.modMsu s m fun u => { u with mv := u.mv.settle d.now }).mvStep s m 64 := by
  simp only [moverIssueEffect, Dev.modMsu_msuCfgMode, beq_iff_eq, h, if_false]

theorem moverCompleteEffect_of_finished {j : MvJob} (h : (d.msu s m).mv.finished d.now = some j) :
    moverCompleteEffect s m d =
      let e := d.modMsu s m fun u => { u with mv := { u.mv with
        done := u.mv.done.push d.now (mvRecord j), jobs := eraseFirst (fun k => k == j) u.mv.jobs,
        bytesMoved := u.mv.bytesMoved + 64 * j.units } }
      if mvBellEn j.issued.desc then e.bellLater s (mvBell j.issued.desc) 1 else e := by
  simp only [moverCompleteEffect, h]

theorem updateCompleteEffect_of_finished {j : MvJob} (h : (d.msu s m).upd.finished d.now = some j) :
    updateCompleteEffect s m d =
      let e := (d.modMsu s m fun u => { u with
        mv := { u.mv with done := u.mv.done.push d.now (udRecord j), bytesMoved := u.mv.bytesMoved + 64 * j.units },
        upd := { u.upd with jobs := eraseFirst (fun k => k == j) u.upd.jobs },
        complete := u.complete + 1 }).firedOne s (msuPos m)
      if udBellEn j.issued.desc then e.bellLater s (udBell j.issued.desc) 1 else e := by
  simp only [updateCompleteEffect, h]

end

/-- Settles O16: a closed tag is returned in its parts, the mode of the unit says which of its engines issues, and what has finished
says what a completion pushes and rings. -/
theorem controllersAndMoversComplete : Obligations.ControllersAndMoversComplete := by
  unfold Obligations.ControllersAndMoversComplete
  refine ⟨fun l block b t s => ?_, fun st m j s => ?_⟩
  · intro d u left shut
    refine ⟨fun hen => ?_, fun hen => ?_, fun hen hready => ?_⟩
    · rw [exec_mergeWindowClose, onEvent_holds _ hen, mergeCloseEffect]
    · rw [exec_dramWriteBurst, onEvent_holds _ hen, writeBurstEffect]
    · intro known found
      have hexec (codes : List (Fin 32 × DramEcc)) : exec (.loftReadReturn l codes) s =
          .next (s.put (((found.returnCodes l t known codes).1.returnAll l (found.returnCodes l t known codes).2))) := by
        rw [exec_loftReadReturn, onEvent_holds _ hen, readReturnEffect_of_ready hready]
        rfl
      simp only [hexec]
      refine ⟨fun hnone => ⟨?_, ?_⟩, fun ecc hknown => ?_, fun codes e t' hcodes => ?_⟩
      · have hfound : found = left := congrArg (left.countBad l) hnone
        rw [Dev.returnCodes_nil, hfound, Dev.returnAll]
      · have hfound : found = left := congrArg (left.countBad l) hnone
        rw [hnone, hfound, Dev.returnCodes_corrected, Dev.returnAll]
        rfl
      · rw [Dev.returnCodes_known _ _ _ hknown, Dev.returnAll]
      · rw [Dev.returnCodes, hcodes, Dev.returnAll]
  · intro d u settled
    refine ⟨fun hen => ⟨fun hmode => ?_, fun hmode => ?_⟩, fun hen hfinished => ?_, fun hen hfinished => ?_⟩
    · rw [exec_moverRequestIssue, onEvent_holds _ hen, moverIssueEffect_update hmode]
    · rw [exec_moverRequestIssue, onEvent_holds _ hen, moverIssueEffect_mover hmode]
    · rw [exec_moverTransferComplete, onEvent_holds _ hen, moverCompleteEffect_of_finished hfinished]
    · rw [exec_updateComplete, onEvent_holds _ hen, updateCompleteEffect_of_finished hfinished]

end Sys2Proof.Machine
end

section
/-!
PROOFS. Steps of a tile program (R219 to R221, R230, R234, R238, R240): what a step's effect finds once its issue slot is taken, one
rule per step that computes, issues or asks the configuration port, and the two statements about them.
-/
namespace Sys2Proof.Machine

/-! ### What a step's effect finds (R39, R220) -/

@[simp] theorem Dev.issued_ctl (d : Dev) (s : SiteId) (c : CtxId) : ((d.issued s c).tile s).ctl = (d.tile s).ctl := by
  obtain ⟨p, hp⟩ := d.issued_tile s c
  rw [hp]

@[simp] theorem Dev.issued_active (d : Dev) (s : SiteId) (c : CtxId) : ((d.issued s c).tile s).active = (d.tile s).active := by
  obtain ⟨p, hp⟩ := d.issued_tile s c
  rw [hp]
  rfl

@[simp] theorem Dev.issued_pads (d : Dev) (s : SiteId) (c : CtxId) : (d.issued s c).pads = d.pads := by
  obtain ⟨p, hp⟩ := d.issued_only s c
  rw [hp, Dev.modTile_pads]

@[simp] theorem Dev.issued_seqs (d : Dev) (s : SiteId) (c : CtxId) : (d.issued s c).seqs = d.seqs := by
  obtain ⟨p, hp⟩ := d.issued_only s c
  rw [hp, Dev.modTile_seqs]

@[simp] theorem Dev.issued_padOf (d : Dev) (s : SiteId) (c : CtxId) : (d.issued s c).padOf s = d.padOf s := by
  simp only [Dev.padOf, Dev.issued_ctl]

/-- The context that issues, its step's slots all taken. -/
theorem Dev.issued_ctx (d : Dev) (s : SiteId) (c : CtxId) :
    ((d.issued s c).tile s).ctxs[c] = { (d.tile s).ctxs[c] with slots := 0 } := by
  rw [Dev.issued_ctxs, vmod_same]

/-- The slot changes no value that a step can name as its source (R221). -/
@[simp] theorem Dev.issued_sourceOf (d : Dev) (s : SiteId) (c : CtxId) : (d.issued s c).sourceOf s c = d.sourceOf s c := by
  funext a64 v
  have hpads : (d.issued s c).pad = d.pad := by
    funext k
    simp only [Dev.pad, Dev.issued_pads]
  simp only [Dev.sourceOf, Dev.padTiles, Tile.source, Dev.issued_padOf, hpads, Dev.issued_ctl, Dev.issued_ctx]

/-- A change of the context that issues, in what that context is once its slots are taken. -/
theorem Dev.issued_modCtx (d : Dev) (s : SiteId) (c : CtxId) (f : Ctx → Ctx) :
    (d.issued s c).modCtx s c f = (d.issued s c).modCtx s c fun _ => f { (d.tile s).ctxs[c] with slots := 0 } :=
  Dev.modCtx_congr _ _ _ (by rw [Dev.issued_ctx])

/-! ### Steps that compute (R219, R240) -/

theorem exec_stepNop (st : SiteId) (c : CtxId) (s : State) :
    exec (.stepNop st c) s = onStep st c 0x00 (fun _ d => d.advance st c) s := rfl

theorem exec_stepSet (st : SiteId) (c : CtxId) (s : State) :
    exec (.stepSet st c) s = onStep st c 0x0B (fun x d =>
      (d.setX st c (stXd x) (d.sourceOf st c (stA64 x) (stA16 x))).advance st c) s := rfl

theorem exec_stepAdd (st : SiteId) (c : CtxId) (s : State) :
    exec (.stepAdd st c) s = onStep st c 0x0C (fun x d =>
      (d.setX st c (stXd x) ((((d.tile st).ctxs[c]).reg (stXd x)).toNat + stA64 x)).advance st c) s := rfl

theorem exec_stepJumpLt (st : SiteId) (c : CtxId) (s : State) :
    exec (.stepJumpLt st c) s = onStep st c 0x0D (fun x d =>
      if (((d.tile st).ctxs[c]).reg (fld x 32 3)).toNat < stA64 x then d.goto st c (stA16 x) else d.advance st c) s := rfl

theorem exec_stepJump (st : SiteId) (c : CtxId) (s : State) :
    exec (.stepJump st c) s = onStep st c 0x0E (fun x d => d.goto st c (stA16 x)) s := rfl

theorem exec_stepSeqAdvance (st : SiteId) (c : CtxId) (s : State) :
    exec (.stepSeqAdvance st c) s = onStep st c 0x10 (seqAdvanceEffect st c) s := rfl

/-- A write of X goes with the step's advance into one change of the context. -/
theorem Dev.setX_advance (d : Dev) (s : SiteId) (c : CtxId) (i v : Nat) :
    (d.setX s c i v).advance s c = d.modCtx s c fun x => { x with pc := x.pc + 1, x := vsetN x.x i (BitVec.ofNat 64 v) } := by
  rw [Dev.setX, Dev.advance, Dev.modCtx_modCtx]

/-- The two ways of a JUMP_LT, in one change of the context. -/
theorem Dev.goto_or_advance (d : Dev) (s : SiteId) (c : CtxId) (p : Prop) [Decidable p] (pc : Nat) :
    (if p then d.goto s c pc else d.advance s c) = d.modCtx s c fun x => { x with pc := if p then pc else x.pc + 1 } := by
  split
  · rfl
  · rfl

/-- The slot that SEQ_ADVANCE `w` names is the paddock's own, and its length stays in range (R240). -/
def Dev.seqFits (d : Dev) (s : SiteId) (c : CtxId) (w : Nat) : Prop :=
  let q := vgetN d.seqs (stA16 w) {}
  q.bound ≠ none ∧ q.bound = d.padOf s ∧ q.length + (((d.tile s).ctxs[c]).reg (fld w 32 3)).toNat ≤ 16777216

theorem Dev.issued_reg (d : Dev) (s : SiteId) (c : CtxId) (i : Nat) :
    (((d.issued s c).tile s).ctxs[c]).reg i = ((d.tile s).ctxs[c]).reg i := by
  rw [Dev.issued_ctx]
  rfl

theorem Dev.issued_seqFits (d : Dev) (s : SiteId) (c : CtxId) (w : Nat) : (d.issued s c).seqFits s c w ↔ d.seqFits s c w := by
  simp only [Dev.seqFits, Dev.issued_seqs, Dev.issued_padOf, Dev.issued_reg]

section
variable {s : SiteId} {c : CtxId} {w : Nat} {d : Dev}

theorem seqAdvanceEffect_of_fits (h : d.seqFits s c w) :
    seqAdvanceEffect s c w d = ({ d with seqs := vmodN d.seqs (stA16 w) fun q =>
      { q with length := q.length + (((d.tile s).ctxs[c]).reg (fld w 32 3)).toNat } }).advance s c := by
  obtain ⟨hbound, hown, hlen⟩ := h
  refine if_neg ?_
  simpa [hown ▸ hbound, hown] using hlen

theorem seqAdvanceEffect_of_not_fits (h : ¬ d.seqFits s c w) :
    seqAdvanceEffect s c w d = d.stepFault s c 0x300B 0 (stA16 w) := by
  refine if_pos ?_
  by_contra hguard
  simp only [Bool.or_eq_true, Option.isNone_iff_eq_none, bne_iff_ne, decide_eq_true_eq, not_or, not_not, Nat.not_lt] at hguard
  obtain ⟨⟨hbound, hown⟩, hlen⟩ := hguard
  exact h ⟨hbound, hown, hlen⟩

end

/-- Settles O3: each step is one change of the context that issues, made on the device that `issued` gives, whose sources are as
before; and the slot named decides what becomes of a SEQ_ADVANCE. -/
theorem registerStepsExact : Obligations.RegisterStepsExact := by
  unfold Obligations.RegisterStepsExact
  refine ⟨fun st c s => ⟨fun hen => ?_, fun hen => ?_, fun hen => ?_, fun hen => ?_, fun hen => ?_⟩,
    fun st c s hen => ⟨fun k hbound hpad hlen => ?_, fun hnot => ?_⟩⟩
  · rw [exec_stepNop, onStep_holds _ hen, Dev.advance, Dev.issued_modCtx]
  · rw [exec_stepSet, onStep_holds _ hen, Dev.setX_advance, Dev.issued_modCtx, Dev.issued_sourceOf]
  · rw [exec_stepAdd, onStep_holds _ hen, Dev.setX_advance, Dev.issued_modCtx, Dev.issued_reg, BitVec.ofNat_add, BitVec.ofNat_toNat,
      BitVec.setWidth_eq]
    rfl
  · rw [exec_stepJumpLt, onStep_holds _ hen, Dev.goto_or_advance, Dev.issued_modCtx, Dev.issued_reg]
    rfl
  · rw [exec_stepJump, onStep_holds _ hen, Dev.goto, Dev.issued_modCtx]
  · have hfits : s.dev.seqFits st c ((s.dev.tile st).curStep c) := ⟨by simp [hbound], hbound.trans hpad.symm, hlen⟩
    rw [exec_stepSeqAdvance, onStep_holds _ hen, seqAdvanceEffect_of_fits ((Dev.issued_seqFits ..).2 hfits), Dev.issued_reg]
    rfl
  · have hfits : ¬ s.dev.seqFits st c ((s.dev.tile st).curStep c) := by
      rintro ⟨hbound, hown, hlen⟩
      rcases hnot with hnone | hother | hover
      · exact hbound hnone
      · exact hother hown
      · exact Nat.not_lt.2 hlen hover
    rw [exec_stepSeqAdvance, onStep_holds _ hen, seqAdvanceEffect_of_not_fits (mt (Dev.issued_seqFits ..).1 hfits)]

/-! ### ISSUE (R219, R220) -/

/-- The working entry that ISSUE `w` names. -/
def Tile.workEntry (t : Tile) (w : Nat) : Nat := ((t.pool[stA16 w]?).map (·.toNat)).getD 0

section
variable {s : SiteId} {c : CtxId} {w : Nat} {m : MsuId} {d : Dev}

/-- The units from 17 on are the MSUs (R31). -/
theorem finOf_msu (hunit : isUnit w = m.val + 17) : finOf 8 (isUnit w - 17) = some m := by
  rw [hunit, Nat.add_sub_cancel, finOf_val]

theorem issueEffect_read (htarget : isTarget w = 1) (hunit : isUnit w = m.val + 17) :
    issueEffect s c w d = d.issueGen s c m false (fld ((d.tile s).workEntry w) 0 768) := by
  simp only [issueEffect, htarget, finOf_msu hunit, Tile.workEntry]

theorem issueEffect_write (htarget : isTarget w = 2) (hunit : isUnit w = m.val + 17) :
    issueEffect s c w d = d.issueGen s c m true (fld ((d.tile s).workEntry w) 0 768) := by
  simp only [issueEffect, htarget, finOf_msu hunit, Tile.workEntry]

theorem issueEffect_mover (htarget : isTarget w = 3) (hunit : isUnit w = m.val + 17) :
    issueEffect s c w d = d.issueMv s c m (fld ((d.tile s).workEntry w) 0 512) := by
  have hremote : (isUnit w == 31) = false := by
    rw [beq_eq_false_iff_ne]
    omega
  simp only [issueEffect, htarget, finOf_msu hunit, hremote, Bool.false_eq_true, if_false, Tile.workEntry]

/-- Unit 31 is the remote engine, and no MSU (R219). -/
theorem issueEffect_remote (htarget : isTarget w = 3) (hunit : isUnit w = 31) :
    issueEffect s c w d = d.issueRm s c (fld ((d.tile s).workEntry w) 0 512) := by
  have hnone : finOf 8 (31 - 17) = none := finOf_of_le (by decide)
  simp only [issueEffect, htarget, hunit, hnone, beq_self_eq_true, if_true, Tile.workEntry]

end

/-! ### The configuration port (R230, R234, R238) -/

theorem exec_stepPlan (st : SiteId) (c : CtxId) (s : State) : exec (.stepPlan st c) s = onStep st c 0x02 (planEffect st c) s := rfl

theorem exec_stepPatch (st : SiteId) (c : CtxId) (s : State) : exec (.stepPatch st c) s = onStep st c 0x03 (patchEffect st c) s := rfl

theorem exec_stepPartial (st : SiteId) (c : CtxId) (s : State) :
    exec (.stepPartial st c) s = onStep st c 0x0F (fun x d => d.portAsk st c (.partialCommit c (stA16 x))) s := rfl

/-- A request joins those that wait for the port, and its context waits behind the step. -/
theorem Dev.portAsk_eq (d : Dev) (s : SiteId) (c : CtxId) (r : PortReq) :
    d.portAsk s c r = (d.modTile s fun t => { t with portQ := t.portQ ++ [r] }).modCtx s c fun x =>
      { x with pc := x.pc + 1, state := .waitTransfer, wait := .port, met := false } := by
  rw [Dev.portAsk, Dev.advance, Dev.desched, Dev.modCtx_modCtx]

section
variable {s : SiteId} {c : CtxId} {w : Nat} {d : Dev}

theorem planEffect_of_ok {ws : Writes} {sh est : Nat}
    (h : planWrites (d.tile s).active (d.tile s).pool (d.sourceOf s c 0) (stA16 w) = .ok (ws, sh, est)) :
    planEffect s c w d = d.portAsk s c (.writes c (stA16 w) ws.sets ws.fires (some (planLast (stA16 w) sh est))) := by
  simp only [planEffect, h]

theorem planEffect_of_error {i : Nat} (h : planWrites (d.tile s).active (d.tile s).pool (d.sourceOf s c 0) (stA16 w) = .error i) :
    planEffect s c w d = d.stepFault s c 0x3004 0 i := by
  simp only [planEffect, h]

theorem patchEffect_of_ok {ws : Writes} (h : patchWrites (d.tile s).active (d.sourceOf s c 0) (stA16 w) (stA32 w) = .ok ws) :
    patchEffect s c w d = d.portAsk s c (.writes c (stA16 w) ws.sets ws.fires none) := by
  simp only [patchEffect, h]

theorem patchEffect_of_error {i : Nat} (h : patchWrites (d.tile s).active (d.sourceOf s c 0) (stA16 w) (stA32 w) = .error i) :
    patchEffect s c w d = d.stepFault s c 0x300C 0 i := by
  simp only [patchEffect, h]

end

/-- Settles O6: target and unit decide where the working entry goes, and what a PLAN or PATCH derives, from the image, the pool and
the sources as they stood before its slot, whether it asks the port. -/
theorem issueAndPlanReachTheirTargets : Obligations.IssueAndPlanReachTheirTargets := by
  unfold Obligations.IssueAndPlanReachTheirTargets
  refine ⟨fun st c s hen => ?_, fun st c s => ⟨fun hen => ⟨fun ws sh est hok => ?_, fun i herr => ?_⟩,
    fun hen => ⟨fun ws hok => ?_, fun i herr => ?_⟩, fun hen => ?_⟩⟩
  · have hentry (w : Nat) : ((s.dev.issued st c).tile st).workEntry w = (s.dev.tile st).workEntry w := by
      simp only [Tile.workEntry, Dev.issued_pool]
    refine ⟨fun htarget => stepIssue_mxu hen htarget,
      fun m hunit => ⟨fun htarget => ?_, fun htarget => ?_, fun htarget => ?_⟩, fun htarget hunit => ?_⟩
    · rw [exec_stepIssue, onStep_holds _ hen, issueEffect_read htarget hunit, hentry]
      rfl
    · rw [exec_stepIssue, onStep_holds _ hen, issueEffect_write htarget hunit, hentry]
      rfl
    · rw [exec_stepIssue, onStep_holds _ hen, issueEffect_mover htarget hunit, hentry]
      rfl
    · rw [exec_stepIssue, onStep_holds _ hen, issueEffect_remote htarget hunit, hentry]
      rfl
  · rw [exec_stepPlan, onStep_holds _ hen, planEffect_of_ok (by simpa using hok), Dev.portAsk_eq]
  · rw [exec_stepPlan, onStep_holds _ hen, planEffect_of_error (by simpa using herr)]
  · rw [exec_stepPatch, onStep_holds _ hen, patchEffect_of_ok (by simpa using hok), Dev.portAsk_eq]
  · rw [exec_stepPatch, onStep_holds _ hen, patchEffect_of_error (by simpa using herr)]
  · rw [exec_stepPartial, onStep_holds _ hen, Dev.portAsk_eq]

end Sys2Proof.Machine
end

section
/-!
PROOFS. Phases of a run (R70, R71, R221 to R227, R441): what a full commit leaves as it was, in its tile and beside it, how a reload
ends, how a phase ends, and the statement about them.
-/
namespace Sys2Proof.Machine

/-! ### What the configuration port leaves alone (R225, R228) -/

/-- What a phase's configuration does not reach: control block, bells, queues and scratchpad. -/
def Tile.unconfigured (t : Tile) : TileCtl × Vector Word 48 × Vector MsgQueue 32 × Spad := (t.ctl, t.bells, t.queues, t.spad)

/-- What each change of a list leaves as it was, the whole list leaves as it was. -/
theorem foldl_keeps {α β γ : Type} (p : α → γ) {g : α → β → α} (h : ∀ x b, p (g x b) = p x) (l : List β) (x : α) :
    p (l.foldl g x) = p x :=
  List.foldlRecOn l g (motive := fun y => p y = p x) rfl fun y hy b _ => (h y b).trans hy

theorem Tile.resetUnit_unconfigured (t : Tile) (p : PosId) (full seeded : Bool) :
    (t.resetUnit p full seeded).unconfigured = t.unconfigured := by
  unfold Tile.resetUnit
  dsimp only
  split
  · split <;> rfl
  · split <;> rfl

theorem Tile.writePos_unconfigured (t : Tile) (p : PosId) (w : BitVec 16) (cfg : Option Nat) (full seeded : Bool) :
    (t.writePos p w cfg full seeded).unconfigured = t.unconfigured := by
  unfold Tile.writePos
  dsimp only
  split
  · exact Tile.resetUnit_unconfigured ..
  · rfl

/-- A full commit writes in the control block the generation, the phase with its state, and the lengths (R225, R227, R241). -/
theorem Tile.fullCommit_unconfigured (t : Tile) (lens : Vector Word 16) (seeded : Bool) :
    (t.fullCommit lens seeded).unconfigured = { t with ctl := { t.ctl with
      cfgGen := nextGen t.ctl.cfgGen, phase := BitVec.ofNat 32 t.nextPhase, phaseState := 1#8, seqLen := lens } }.unconfigured := by
  unfold Tile.fullCommit
  dsimp only
  refine (foldl_keeps _ (fun t p => t.writePos_unconfigured ..) _ _).trans (foldl_keeps _ (fun t r => ?_) _ _)
  split
  · rfl
  · split <;> rfl

/-! ### The full commit of a tile (R225 to R227, R292) -/

/-- The device once a tile has written the switches of one pass site, with its index, that it hosts (R292). -/
def Dev.passWritten (d : Dev) (rs : List CfgRec) (x : SiteId × Nat) : Dev :=
  d.modTile x.1 fun t => { t with
    grid := Vector.ofFn fun p => { t.grid[p] with switch := passWords rs x.2 p }
    scrub := { t.scrub with badPos := [] } }

/-- The device once context 0 of the tile has arrived at the commit barrier of its paddock (R226). -/
def Dev.atCommitBarrier (d : Dev) (s : SiteId) (k : Option PadId) : Dev :=
  match k with
  | some k => (d.countPhase k s).arriveAt s 0 (240 + k.val)
  | none => d

/-- The device once the tile has written its own configuration (R225, R241). -/
def Dev.tileCommitted (d : Dev) (s : SiteId) : Dev :=
  d.modTile s fun t => t.fullCommit (latchSeqs d.seqs (d.padOf s)) d.entropyOk

/-- The device once the port has ended the tile's commit in cycle `now`. -/
def Dev.commitEnded (d : Dev) (s : SiteId) (now : Nat) : Dev :=
  d.modTile s fun t => { t with commitDue := false, commitWait := true, restored := false, portAt := some now }

/-- A full commit in its parts: the tile's own configuration, its pass sites', the end of the commit, and the barrier. -/
theorem fullCommitEffect_eq (s : SiteId) (d : Dev) : ∃ (rs : List CfgRec) (sites : List (SiteId × Nat)) (now : Nat),
    fullCommitEffect s d =
      ((sites.foldl (fun e x => e.passWritten rs x) (d.tileCommitted s)).commitEnded s now).atCommitBarrier s (d.padOf s) :=
  ⟨_, _, _, rfl⟩

theorem Dev.passWritten_unconfigured (d : Dev) (rs : List CfgRec) (x : SiteId × Nat) (s : SiteId) :
    ((d.passWritten rs x).tile s).unconfigured = (d.tile s).unconfigured := by
  rw [Dev.passWritten]
  by_cases hsite : s = x.1
  · simp only [hsite, Dev.modTile_tile, Tile.unconfigured]
  · rw [Dev.modTile_tile_ne _ _ _ _ hsite]

theorem Dev.countPhase_only (d : Dev) (k : PadId) (s : SiteId) : ∃ o, d.countPhase k s = { d with ops := o } := by
  unfold Dev.countPhase
  split
  · split
    · exact ⟨_, rfl⟩
    · exact ⟨_, rfl⟩
  · exact ⟨_, rfl⟩

/-- An arrival touches its context and the mesh. -/
theorem Dev.arriveAt_only (d : Dev) (s : SiteId) (c : CtxId) (b : Nat) : ∃ f r m,
    d.arriveAt s c b = { d.modCtx s c f with mesh := m, meshIn := r } := ⟨_, _, _, rfl⟩

/-- At the commit barrier a context waits, a message leaves and the run's progress is counted: in its tile only contexts change. -/
theorem Dev.atCommitBarrier_only (d : Dev) (s : SiteId) (k : Option PadId) :
    (∃ cs, (d.atCommitBarrier s k).tile s = { d.tile s with ctxs := cs }) ∧ (d.atCommitBarrier s k).lofts = d.lofts := by
  cases k with
  | none => exact ⟨⟨_, rfl⟩, rfl⟩
  | some k =>
    obtain ⟨o, ho⟩ := d.countPhase_only k s
    obtain ⟨f, r, m, harrive⟩ := Dev.arriveAt_only { d with ops := o } s 0 (240 + k.val)
    rw [Dev.atCommitBarrier, ho, harrive]
    exact ⟨⟨_, Dev.modTile_tile ..⟩, rfl⟩

/-- The tile after its full commit: but for what configures it and for its contexts, only what the commit writes has changed. -/
theorem fullCommitEffect_tile (s : SiteId) (d : Dev) :
    ((fullCommitEffect s d).tile s).unconfigured =
        ((d.tile s).fullCommit (latchSeqs d.seqs (d.padOf s)) d.entropyOk).unconfigured ∧
      ((fullCommitEffect s d).tile s).commitDue = false ∧ ((fullCommitEffect s d).tile s).commitWait = true ∧
      (fullCommitEffect s d).lofts = d.lofts := by
  obtain ⟨rs, sites, now, heq⟩ := fullCommitEffect_eq s d
  have hrest := foldl_keeps (fun e => (e.tile s).unconfigured) (fun e x => e.passWritten_unconfigured rs x s) sites (d.tileCommitted s)
  have hlofts := foldl_keeps Dev.lofts (g := fun e x => e.passWritten rs x) (fun _ _ => rfl) sites (d.tileCommitted s)
  obtain ⟨⟨cs, htile⟩, hbarrier⟩ := Dev.atCommitBarrier_only
    ((sites.foldl (fun e x => e.passWritten rs x) (d.tileCommitted s)).commitEnded s now) s (d.padOf s)
  rw [Dev.tileCommitted, Dev.modTile_tile, ← Dev.tileCommitted] at hrest
  rw [Dev.commitEnded, Dev.modTile_tile, ← Dev.commitEnded] at htile
  rw [heq, htile, hbarrier]
  exact ⟨hrest, rfl, rfl, hlofts⟩

theorem exec_fullCommit (st : SiteId) (s : State) :
    exec (.fullCommit st) s = onEvent s (fullCommitEnabled st) fun _ => fullCommitEffect st := rfl

/-! ### The end of a reload (R221, R223, R441) -/

theorem exec_reloadComplete (k : PadId) (s : State) :
    exec (.reloadComplete k) s = onEvent s (reloadDone k) (reloadEffect k) := rfl

theorem reloadEffect_of_pad {k : PadId} {d : Dev} {p : Paddock} (fz : Fuse) (hpad : d.pad k = some p) :
    reloadEffect k fz d = ((d.tellTiles p.sites k 512).forSites p.sites fun t =>
      Tile.startCommit { t with ctl := { t.ctl with param := Vector.ofFn fun i : Fin 64 => p.params.getD i.val 0#64 } }).modPad k
        fun q => { q with reloading := false } := by
  simp only [reloadEffect, hpad]

/-! ### The end of a phase (R70, R71, R225, R419) -/

theorem exec_phaseEnd (k : PadId) (s : State) :
    exec (.phaseEnd k) s = onEvent s (phaseEndEnabled k) fun _ => phaseEndEffect k := rfl

section
variable {k : PadId} {d : Dev} {p : Paddock} (hpad : d.pad k = some p)
include hpad

theorem phaseEndEffect_of_left {x : SiteId} {u : Nat} (hleft : leftOver d p = some (x, u)) :
    phaseEndEffect k d = d.raise k none true { code := 0x1002, site := some x, unit := some u } := by
  simp only [phaseEndEffect, hpad, hleft]

variable {first : SiteId} {others : List SiteId} (hsites : p.sites = first :: others) (hdry : leftOver d p = none)
include hsites hdry

theorem phaseEndEffect_of_last (hlast : phLast ((d.tile first).active.phase (d.tile first).ctl.phase.toNat) = true) :
    phaseEndEffect k d =
      ((d.forSites p.sites fun t => Tile.dropSample { t with ctl := { t.ctl with phaseState := 0#8 } } d.now).modPad k fun q =>
        { q with state := .ready, suspendDue := false }).endOp p.run .done 0 := by
  simp only [phaseEndEffect, hpad, hdry, hsites, hlast, if_true]

theorem phaseEndEffect_of_next (hlast : phLast ((d.tile first).active.phase (d.tile first).ctl.phase.toNat) = false)
    (hsusp : p.suspendDue = false) : phaseEndEffect k d = d.forSites p.sites Tile.startCommit := by
  simp only [phaseEndEffect, hpad, hdry, hsites, hlast, hsusp, Bool.false_eq_true, if_false]

/-- A run that is to be suspended here stays at its drained phase (R419). -/
theorem phaseEndEffect_of_suspend (hlast : phLast ((d.tile first).active.phase (d.tile first).ctl.phase.toNat) = false)
    (hsusp : p.suspendDue = true) : phaseEndEffect k d = d := by
  simp only [phaseEndEffect, hpad, hdry, hsites, hlast, hsusp, Bool.false_eq_true, if_false, if_true]

end

/-- Settles O9: the full commit is known part by part, and what stands in the paddock and in its queues decides how a phase ends. -/
theorem phasesStartAndEnd : Obligations.PhasesStartAndEnd := by
  unfold Obligations.PhasesStartAndEnd
  refine ⟨fun st s hen => ⟨fullCommitEffect st s.dev, ?_, ?_⟩, fun k s p hen hpad => ?_,
    fun k s p first others hen hpad hsites => ⟨fun x u hleft => ?_, fun hdry hlast => ?_, fun hdry hlast hsusp => ?_,
      fun hdry hlast hsusp => ?_⟩⟩
  · rw [exec_fullCommit, onEvent_holds _ hen]
  · obtain ⟨hrest, hdue, hwait, hlofts⟩ := fullCommitEffect_tile st s.dev
    rw [Tile.fullCommit_unconfigured, Tile.unconfigured, Tile.unconfigured, Prod.mk.injEq, Prod.mk.injEq, Prod.mk.injEq] at hrest
    obtain ⟨hctl, hbells, hqueues, hspad⟩ := hrest
    refine ⟨?_, ?_, ?_, ?_, hdue, hwait, hbells, hqueues, hspad, hlofts⟩ <;> rw [hctl]
  · rw [exec_reloadComplete, onEvent_holds _ hen, reloadEffect_of_pad _ hpad]
  · rw [exec_phaseEnd, onEvent_holds _ hen, phaseEndEffect_of_left hpad hleft]
  · rw [exec_phaseEnd, onEvent_holds _ hen, phaseEndEffect_of_last hpad hsites hdry hlast]
  · rw [exec_phaseEnd, onEvent_holds _ hen, phaseEndEffect_of_next hpad hsites hdry hlast hsusp]
  · rw [exec_phaseEnd, onEvent_holds _ hen, phaseEndEffect_of_suspend hpad hsites hdry hlast hsusp, State.put_self]

end Sys2Proof.Machine
end

section
/-!
PROOFS. Steps that deschedule their context (R162, R219, R248, R250, R252, R264, R265): what of the device the issue slot leaves as it
was, one rule per outcome of WAIT_BELL, RECV, SEND and END, and the statement about them.
-/
namespace Sys2Proof.Machine

/-! ### What the issue slot leaves (R39, R220) -/

/-- The issue slot changes nothing of its tile beside the issue memory, the contexts and the counters. -/
theorem Dev.issued_tileKeeps {α : Type} {d : Dev} {s : SiteId} {c : CtxId} (f : Tile → α)
    (h : ∀ t n l cs p, f { t with lastCtx := n, lastIssue := l, ctxs := cs, pmc := p } = f t) :
    f ((d.issued s c).tile s) = f (d.tile s) := by
  obtain ⟨p, hp⟩ := d.issued_tile s c
  rw [hp, h]

/-- The issue slot changes nothing of the device beside the tiles. -/
theorem Dev.issued_keeps {α : Type} {d : Dev} {s : SiteId} {c : CtxId} (f : Dev → α)
    (h : ∀ e ts, f { e with tiles := ts } = f e) :
    f (d.issued s c) = f d := by
  obtain ⟨p, hp⟩ := d.issued_only s c
  rw [hp, Dev.modTile, h]

section
variable (d : Dev) (s : SiteId) (c : CtxId)

@[simp] theorem Dev.issued_bells : ((d.issued s c).tile s).bells = (d.tile s).bells :=
  Dev.issued_tileKeeps (·.bells) fun _ _ _ _ _ => rfl

@[simp] theorem Dev.issued_bellNow : ((d.issued s c).tile s).bellNow = (d.tile s).bellNow :=
  Dev.issued_tileKeeps (·.bellNow) fun _ _ _ _ _ => rfl

@[simp] theorem Dev.issued_bell (b : Nat) : ((d.issued s c).tile s).bell b = (d.tile s).bell b :=
  Dev.issued_tileKeeps (·.bell b) fun _ _ _ _ _ => rfl

@[simp] theorem Dev.issued_queues : ((d.issued s c).tile s).queues = (d.tile s).queues :=
  Dev.issued_tileKeeps (·.queues) fun _ _ _ _ _ => rfl

@[simp] theorem Dev.issued_chanFree (ch : Nat) : ((d.issued s c).tile s).chanFree ch = (d.tile s).chanFree ch :=
  Dev.issued_tileKeeps (·.chanFree ch) fun _ _ _ _ _ => rfl

@[simp] theorem Dev.issued_chan (ch : Fin 64) : (d.issued s c).chan s ch = d.chan s ch :=
  Dev.issued_tileKeeps (·.chans[ch]) fun _ _ _ _ _ => rfl

end

/-! ### WAIT_BELL (R248, R250) -/

theorem exec_stepWaitBell (st : SiteId) (c : CtxId) (s : State) :
    exec (.stepWaitBell st c) s = onStep st c 0x04 (waitBellEffect st c) s := rfl

section
variable {s : SiteId} {c : CtxId} {w : Nat} {d : Dev}

theorem waitBellEffect_of_held (h : stA32 w ≤ (d.tile s).bell (stA16 w)) :
    waitBellEffect s c w d = (d.modTile s fun t => t.takeBell (stA16 w) (stA32 w)).advance s c := if_pos h

theorem waitBellEffect_of_short (h : (d.tile s).bell (stA16 w) < stA32 w) :
    waitBellEffect s c w d = d.desched s c .waitBell (.bell (stA16 w) (stA32 w)) := if_neg (Nat.not_le.2 h)

end

/-- What a wait takes from a bell is known from what the bell stood at before the step's slot. -/
theorem Dev.issued_takeBell (d : Dev) (s : SiteId) (c : CtxId) (b n : Nat) :
    ((d.issued s c).modTile s fun t => t.takeBell b n) = (d.issued s c).modTile s fun t => { t with
      bells := vsetN t.bells b (BitVec.ofNat 32 ((vgetN (d.tile s).bells b 0#32).toNat - n))
      bellNow := takeSum b (n - (vgetN (d.tile s).bells b 0#32).toNat) t.bellNow } :=
  Dev.modTile_congr _ _ (by simp only [Tile.takeBell, Dev.issued_bells])

/-! ### RECV and SEND (R162, R264, R265) -/

theorem exec_stepRecv (st : SiteId) (c : CtxId) (s : State) :
    exec (.stepRecv st c) s = onStep st c 0x07 (recvEffect st c) s := rfl

theorem exec_stepSend (st : SiteId) (c : CtxId) (s : State) :
    exec (.stepSend st c) s = onStep st c 0x06 (sendEffect st c) s := rfl

/-- The core's accesses join those that wait for the tile port, and their context waits behind the step. -/
theorem Dev.coreStart_eq (d : Dev) (s : SiteId) (c : CtxId) (j : CoreJob) :
    d.coreStart s c j = (d.modTile s fun t => { t with core := t.core ++ [j] }).modCtx s c fun x =>
      { x with pc := x.pc + 1, state := .waitTransfer, wait := .tilePort, met := false } := by
  rw [Dev.coreStart, Dev.advance, Dev.desched, Dev.modCtx_modCtx]

section
variable {s : SiteId} {c : CtxId} {w : Nat} {d : Dev}

theorem recvEffect_of_none (h : (vgetN (d.tile s).queues (stA16 w) {}).next = none) :
    recvEffect s c w d = d.desched s c .waitQueue (.queue (stA16 w)) := by
  simp only [recvEffect, h]

/-- A RECV marks the entry that it takes, and starts the write of its 64 bytes. -/
theorem recvEffect_of_some {e : Bytes} (h : (vgetN (d.tile s).queues (stA16 w) {}).next = some e) :
    recvEffect s c w d = (d.modTile s fun t => { t with
      queues := vmodN t.queues (stA16 w) fun v => { v with taking := v.taking + 1 }
      core := t.core ++ [{ ctx := c, recv := true, no := stA16 w, addr := stA32 w, len := 64, bytes := padTo 64 e, entry := e }]
      }).modCtx s c fun x => { x with pc := x.pc + 1, state := .waitTransfer, wait := .tilePort, met := false } := by
  simp only [recvEffect, h, Dev.coreStart_eq, Dev.modTile_modTile]

variable {ch : Fin 64} (hch : stA16 w = ch.val)
include hch

theorem sendEffect_of_busy (h : (d.tile s).chanFree ch.val = false) :
    sendEffect s c w d = d.desched s c .waitTransfer (.channel ch.val) := by
  simp only [sendEffect, hch, finOf_val, h, Bool.not_false, if_true]

theorem sendEffect_of_free (h : (d.tile s).chanFree ch.val = true) :
    sendEffect s c w d = d.coreStart s c
      { ctx := c, recv := false, no := ch.val, addr := stA32 w, len := (d.chan s ch).bytes } := by
  simp only [sendEffect, hch, finOf_val, h, Bool.not_true, Bool.false_eq_true, if_false]

end

/-! ### END (R219, R252) -/

theorem exec_stepEnd (st : SiteId) (c : CtxId) (s : State) :
    exec (.stepEnd st c) s = onStep st c 0x1F (fun _ d => endEffect st c d) s := rfl

/-- A context owes acknowledgements of remote bell adds or of messages. -/
def Ctx.owes (x : Ctx) : Prop := x.bellAcks ≠ 0 ∨ x.msgs ≠ 0

theorem Dev.issued_owes (d : Dev) (s : SiteId) (c : CtxId) :
    (((d.issued s c).tile s).ctxs[c]).owes ↔ ((d.tile s).ctxs[c]).owes := by
  rw [Dev.issued_ctx]
  rfl

section
variable {s : SiteId} {c : CtxId} {d : Dev}

theorem endEffect_of_owes (h : ((d.tile s).ctxs[c]).owes) : endEffect s c d = d.desched s c .waitTransfer .acks :=
  if_pos (by simpa only [Ctx.owes, Bool.or_eq_true, bne_iff_ne] using h)

theorem endEffect_of_not_owes (h : ¬ ((d.tile s).ctxs[c]).owes) :
    endEffect s c d = (d.modCtx s c fun x => { x with state := .idle, wait := .nothing }).modTile s Tile.checkEnding :=
  if_neg (by simpa only [Ctx.owes, Bool.or_eq_true, bne_iff_ne] using h)

end

/-- Settles O4: the bell, the queue, the channel and the acknowledgements owed, all as they stood before the step's slot, decide
whether its context goes on. -/
theorem stepsThatWait : Obligations.StepsThatWait := by
  unfold Obligations.StepsThatWait
  refine ⟨fun st c s hen => ⟨fun hheld => ?_, fun hshort => ?_⟩, fun st c s hen => ⟨fun hempty => ?_, fun e hnext => ?_⟩,
    fun st c s ch hen hch => ⟨fun hbusy => ?_, fun hfree => ?_⟩,
    fun st c s hen => ⟨fun hbells hmsgs => ?_, fun howes => ?_⟩⟩
  · rw [exec_stepWaitBell, onStep_holds _ hen, waitBellEffect_of_held (by rwa [Dev.issued_bell]), Dev.issued_takeBell, Dev.advance]
  · rw [exec_stepWaitBell, onStep_holds _ hen, waitBellEffect_of_short (by rwa [Dev.issued_bell]), Dev.desched]
  · have hnone := List.getElem?_eq_none_iff.2 hempty
    rw [exec_stepRecv, onStep_holds _ hen, recvEffect_of_none (by rwa [Dev.issued_queues]), Dev.desched]
  · rw [exec_stepRecv, onStep_holds _ hen, recvEffect_of_some (by rwa [Dev.issued_queues])]
  · rw [exec_stepSend, onStep_holds _ hen, sendEffect_of_busy hch (by rwa [Dev.issued_chanFree]), Dev.desched]
  · rw [exec_stepSend, onStep_holds _ hen, sendEffect_of_free hch (by rwa [Dev.issued_chanFree]), Dev.coreStart_eq,
      Dev.issued_chan]
  · have hnot : ¬ ((s.dev.tile st).ctxs[c]).owes := not_or.2 ⟨not_not.2 hbells, not_not.2 hmsgs⟩
    rw [exec_stepEnd, onStep_holds _ hen, endEffect_of_not_owes (mt (Dev.issued_owes ..).1 hnot)]
  · rw [exec_stepEnd, onStep_holds _ hen, endEffect_of_owes ((Dev.issued_owes ..).2 howes), Dev.desched]

end Sys2Proof.Machine
end

section
/-!
PROOFS. Steps whose effect leaves the tile (R219, R242, R243, R249, R255) and what a bell holds at the end of its cycle (R248, R251):
one rule per outcome of BELL_ADD, BARRIER, CLAIM and COMMIT, and the statement about them.
-/
namespace Sys2Proof.Machine

/-! ### What changes of contexts leave alone -/

@[simp] theorem Dev.modCtx_ctl (d : Dev) (s : SiteId) (c : CtxId) (f : Ctx → Ctx) :
    ((d.modCtx s c f).tile s).ctl = (d.tile s).ctl := by
  rw [Dev.modCtx, Dev.modTile_tile]

@[simp] theorem Dev.modCtx_padOf (d : Dev) (s : SiteId) (c : CtxId) (f : Ctx → Ctx) : (d.modCtx s c f).padOf s = d.padOf s := by
  simp only [Dev.padOf, Dev.modCtx_ctl]

/-! ### BELL_ADD (R249) -/

theorem exec_stepBellAdd (st : SiteId) (c : CtxId) (s : State) :
    exec (.stepBellAdd st c) s = onStep st c 0x05 (bellAddEffect st c) s := rfl

theorem Dev.issued_tileSite (d : Dev) (s : SiteId) (c : CtxId) : (d.issued s c).tileSite = d.tileSite :=
  Dev.issued_keeps (·.tileSite) fun _ _ => rfl

section
variable {s : SiteId} {c : CtxId} {w : Nat} {d : Dev}

theorem bellAddEffect_local (h : bitOf w 127 = false) :
    bellAddEffect s c w d = (d.advance s c).bellLater s (stA16 w) (stA32 w) := by
  simp only [bellAddEffect, h, Bool.not_false, if_true]

/-- A remote add leaves the tile once its context has gone on, and the context owes one acknowledgement more. -/
theorem bellAddEffect_remote {k : PadId} {dst : SiteId} (h : bitOf w 127 = true) (hpad : d.padOf s = some k)
    (hdst : d.tileSite k (fld w 64 6) = some dst) :
    bellAddEffect s c w d = (d.modCtx s c fun x => { x with pc := x.pc + 1, bellAcks := x.bellAcks + 1 }).meshTo s dst 2 true
      (.bellAdd (stA16 w) (stA32 w) s c) := by
  have hsite : (d.modCtx s c fun x => { x with pc := x.pc + 1, bellAcks := x.bellAcks + 1 }).tileSite k (fld w 64 6) = some dst :=
    hdst
  simp only [bellAddEffect, h, Bool.not_true, Bool.false_eq_true, if_false, Dev.advance, Dev.modCtx_modCtx, Dev.modCtx_padOf, hpad,
    Option.bind_some, hsite]

end

/-! ### BARRIER and CLAIM (R242, R255) -/

theorem exec_stepBarrier (st : SiteId) (c : CtxId) (s : State) :
    exec (.stepBarrier st c) s = onStep st c 0x08 (fun x d =>
      (d.advance st c).arriveAt st c ((d.tile st).ctl.barBase + stA16 x)) s := rfl

theorem exec_stepClaim (st : SiteId) (c : CtxId) (s : State) :
    exec (.stepClaim st c) s = onStep st c 0x09 (fun x d =>
      (d.desched st c .waitTransfer (.work (stXd x) (stA32 x) (fld x 64 12))).meshToPr st 7 2 false
        (.workReq ((d.tile st).ctl.workBase + stA16 x) st c)) s := rfl

/-- A context that arrives at a barrier goes on behind the step once the barrier's episode has changed. -/
theorem Dev.advance_arriveAt (d : Dev) (s : SiteId) (c : CtxId) (b : Nat) :
    (d.advance s c).arriveAt s c b = (d.modCtx s c fun x =>
      { x with pc := x.pc + 1, state := .waitTransfer, wait := .barrier b ((d.tile s).ctl.episode b), met := false }).meshToPr s
        7 2 true (.arrive b ((d.tile s).ctl.episode b) s) := by
  rw [Dev.arriveAt, Dev.advance, Dev.modCtx_ctl, Dev.desched, Dev.modCtx_modCtx]

/-! ### The end of a bell's cycle (R248, R251) -/

section
variable {d : Dev} {s : SiteId} {b : Nat}

theorem Dev.settleBell_of_fits (h : (d.tile s).bell b < 2 ^ 32) :
    d.settleBell s b = d.modTile s fun t => { t with bells := vsetN t.bells b (BitVec.ofNat 32 ((d.tile s).bell b)) } := by
  have hle : (d.tile s).bell b ≤ 0xFFFFFFFF := by omega
  simp only [Dev.settleBell, hle, if_true, Nat.min_eq_left]

theorem Dev.settleBell_of_over (h : 2 ^ 32 ≤ (d.tile s).bell b) :
    d.settleBell s b = (d.modTile s fun t => { t with bells := vsetN t.bells b 0xFFFFFFFF#32 }).ctxFault s 0
      { code := 0x4001, unit := some 31, extra := [b] } := by
  have hlt : 0xFFFFFFFF < (d.tile s).bell b := by omega
  simp only [Dev.settleBell, Nat.not_le.2 hlt, if_false, Nat.min_eq_right hlt.le]

end

/-! ### COMMIT (R243) -/

theorem exec_stepCommit (st : SiteId) (c : CtxId) (s : State) :
    exec (.stepCommit st c) s = onStep st c 0x0A (commitEffect st c) s := rfl

/-- The generation of the grant that COMMIT `w` presents (R242). -/
def Tile.grantGen (t : Tile) (c : CtxId) (w : Nat) : BitVec 16 :=
  BitVec.ofNat 16 (fld ((t.ctxs[c]).reg (fld w 32 3)).toNat 32 16)

/-- The address of the claim word of that grant. -/
def Tile.claimWord (t : Tile) (c : CtxId) (w : Nat) : Nat :=
  (vgetN t.ctl.param (stA16 w) 0#64).toNat + 8 * fld ((t.ctxs[c]).reg (fld w 32 3)).toNat 0 32

/-- The generation of the work counter that COMMIT `w` names. -/
def Dev.counterGen (d : Dev) (s : SiteId) (w : Nat) : BitVec 16 :=
  (vgetN d.car.works ((d.tile s).ctl.workBase + fld w 40 8) {}).gen

/-- The claim request of a COMMIT. -/
def Dev.claimMsg (d : Dev) (s : SiteId) (c : CtxId) (w : Nat) : MeshMsg :=
  .claimReq ((d.tile s).claimWord c w) ((d.tile s).grantGen c w) (d.tileNum s) s c

section
variable (d : Dev) (s : SiteId) (c : CtxId) (w : Nat)

@[simp] theorem Dev.issued_grantGen : ((d.issued s c).tile s).grantGen c w = (d.tile s).grantGen c w := by
  simp only [Tile.grantGen, Dev.issued_reg]

@[simp] theorem Dev.issued_claimWord : ((d.issued s c).tile s).claimWord c w = (d.tile s).claimWord c w := by
  simp only [Tile.claimWord, Dev.issued_reg, Dev.issued_ctl]

@[simp] theorem Dev.issued_counterGen : (d.issued s c).counterGen s w = d.counterGen s w := by
  have hcar : (d.issued s c).car = d.car := Dev.issued_keeps (·.car) fun _ _ => rfl
  simp only [Dev.counterGen, hcar, Dev.issued_ctl]

theorem Dev.issued_grantCurrent : ((d.issued s c).tile s).grantGen c w = (d.issued s c).counterGen s w ↔
    (d.tile s).grantGen c w = d.counterGen s w := by
  rw [Dev.issued_grantGen, Dev.issued_counterGen]

@[simp] theorem Dev.issued_claimMsg : (d.issued s c).claimMsg s c w = d.claimMsg s c w := by
  simp only [Dev.claimMsg, Dev.tileNum, Dev.issued_claimWord, Dev.issued_grantGen, Dev.issued_ctl]

@[simp] theorem Dev.issued_now : (d.issued s c).now = d.now := Dev.issued_keeps (·.now) fun _ _ => rfl

end

section
variable {s : SiteId} {c : CtxId} {w : Nat} {d : Dev}

theorem commitEffect_of_stale (h : (d.tile s).grantGen c w ≠ d.counterGen s w) :
    commitEffect s c w d =
      ((d.setX s c (stXd w) 2).modCtl s fun q => { q with claimStale := q.claimStale.inc d.now }).advance s c :=
  if_pos (bne_iff_ne.2 h)

section
variable (hgen : (d.tile s).grantGen c w = d.counterGen s w)
include hgen

theorem commitEffect_of_invalid (h : linearValid ((d.tile s).claimWord c w : Int) = false) :
    commitEffect s c w d = d.stepFault s c 0x3005 ((d.tile s).claimWord c w) 0 := by
  refine (if_neg fun hne => bne_iff_ne.1 hne hgen).trans (if_pos ?_)
  rw [Bool.not_eq_true']
  exact h

/-- A claim reaches the loft that owns its word: the tile's own at once, another's in one packet (R243). -/
theorem commitEffect_of_valid {l : SiteId} (hvalid : linearValid ((d.tile s).claimWord c w : Int) = true)
    (hloft : finOf 48 (dramLoft ((d.tile s).claimWord c w)) = some l) :
    commitEffect s c w d =
      let e := d.desched s c .waitTransfer (.claim (stXd w))
      if l = s then { e with claims := vmod e.claims l fun q => q ++ [d.claimMsg s c w] }
      else e.launch { at_ := s, dests := [l], loftEp := true, vc := 0, prio := false, src := s.val, paddock := e.padOf s,
                      body := d.claimMsg s c w } := by
  simp only [Tile.grantGen, Dev.counterGen, Tile.claimWord] at hgen hvalid hloft
  simp only [commitEffect, hgen, bne_self_eq_false, hvalid, Bool.not_true, Bool.false_eq_true, if_false, hloft, beq_iff_eq]
  simp only [Dev.claimMsg, Tile.grantGen, Tile.claimWord, hgen]

end

end

/-- Settles O5: a step's message is made of the tile as it stood before its slot; a bell is settled by the size of its net value; and
the generation and the word of its grant decide what becomes of a COMMIT. -/
theorem stepsThatSend : Obligations.StepsThatSend := by
  unfold Obligations.StepsThatSend
  refine ⟨fun st c s => ⟨fun hen hremote k dst hpad hdst => ?_, fun hen hlocal => ?_, fun hen => ?_, fun hen => ?_⟩,
    fun st b d => ⟨Dev.settleBell_of_fits, Dev.settleBell_of_over⟩, fun st c s hen => ?_⟩
  · rw [exec_stepBellAdd, onStep_holds _ hen, bellAddEffect_remote hremote (by rwa [Dev.issued_padOf])
      (by rwa [Dev.issued_tileSite])]
  · rw [exec_stepBellAdd, onStep_holds _ hen, bellAddEffect_local hlocal]
    rfl
  · rw [exec_stepBarrier, onStep_holds _ hen, Dev.advance_arriveAt, Dev.issued_ctl]
  · rw [exec_stepClaim, onStep_holds _ hen, Dev.desched, Dev.issued_ctl]
  · rw [exec_stepCommit, onStep_holds _ hen]
    refine ⟨fun hstale => ?_, fun hgen hinvalid => ?_, fun l hgen hvalid hloft => ?_⟩
    · rw [commitEffect_of_stale (mt (Dev.issued_grantCurrent ..).1 hstale), Dev.issued_now]
      rfl
    · rw [commitEffect_of_invalid ((Dev.issued_grantCurrent ..).2 hgen) (by rw [Dev.issued_claimWord]; exact hinvalid),
        Dev.issued_claimWord]
      rfl
    · rw [commitEffect_of_valid ((Dev.issued_grantCurrent ..).2 hgen) (by rw [Dev.issued_claimWord]; exact hvalid)
        (by rw [Dev.issued_claimWord]; exact hloft), Dev.issued_claimMsg]
      refine ⟨fun hown => ?_, fun hother => ?_⟩
      · rw [if_pos hown]
        rfl
      · rw [if_neg hother, Dev.desched, Dev.modCtx_padOf, Dev.issued_padOf]
        rfl

end Sys2Proof.Machine
end

section
/-!
PROOFS. The carillon's barriers (R226, R253 to R258, R268) and the packets of barriers that span devices (R258, R359, R391): the
arrivals of a cycle, a release that reaches a site, a child's arrival and the parent's release, and the two statements about them.
-/
namespace Sys2Proof.Machine

/-! ### Arrivals of a cycle (R254, R255, R268) -/

theorem exec_barrierArrival (b : BarId) (s : State) :
    exec (.barrierArrival b) s = onEvent s (arrivalEnabled b) fun _ => arrivalEffect b := rfl

/-- The device once the arrivals of the first cycle that waits have left the carillon. -/
def Dev.arrivalsTaken (d : Dev) (b : BarId) : Dev :=
  { d with car := { d.car with inbox := d.car.inbox.filter fun m => match m.2 with
    | .arrive bar .. => bar != b.val || m.1 != d.car.arrivalCycle b.val
    | _ => true } }

/-- What the barrier's count stands at with the arrivals of the current episode. -/
def Dev.countWith (d : Dev) (b : BarId) : Nat :=
  (d.bar b).count + ((d.car.arrivals b.val).filter fun a => a.1 == (d.bar b).episode).length

/-- The arrivals overrun the barrier: one of them is of the episode before, or they are more than it awaits (R255). -/
def Dev.arrivalsOverrun (d : Dev) (b : BarId) : Bool :=
  (d.car.arrivals b.val).any (fun a => a.1 == (d.bar b).episode - 1) || decide ((d.bar b).target < d.countWith b)

theorem Dev.arrivalsOverrun_iff (d : Dev) (b : BarId) : d.arrivalsOverrun b = true ↔
    ((d.car.arrivals b.val).any fun a => a.1 == (d.bar b).episode - 1) = true ∨ (d.bar b).target < d.countWith b := by
  rw [Dev.arrivalsOverrun, Bool.or_eq_true, decide_eq_true_iff]

/-- The device once the arrivals have been taken and counted. -/
def Dev.arrivalsCounted (d : Dev) (b : BarId) : Dev := (d.arrivalsTaken b).modBar b fun q => q.setState 0 16 (d.countWith b)

@[simp] theorem Dev.modBar_bar (d : Dev) (b : BarId) (f : CarBarrier → CarBarrier) : (d.modBar b f).bar b = f (d.bar b) :=
  vmod_same d.car.bars b f

@[simp] theorem CarBarrier.setState_pad (q : CarBarrier) (lo len v : Nat) : (q.setState lo len v).pad = q.pad := rfl

/-- A barrier's overrun is its paddock's (R255). -/
theorem Dev.overrunBar_of_pad {d : Dev} {b : BarId} {k : PadId} (h : (d.bar b).pad = k.val) :
    d.overrunBar b = (d.modBar b fun q => { q with stuck := true }).overrun k b := by
  have hpad : finOf 16 ((d.modBar b fun q => { q with stuck := true }).bar b).pad = some k := by
    rw [Dev.modBar_bar, show ({ d.bar b with stuck := true } : CarBarrier).pad = (d.bar b).pad from rfl, h, finOf_val]
  simp only [Dev.overrunBar, hpad]

section
variable {b : BarId} {d : Dev}

theorem arrivalEffect_of_disabled (h : (d.bar b).enabled = false) : arrivalEffect b d =
    ((d.car.arrivals b.val).filterMap fun a => d.padOf a.2).dedup.foldl (fun d k => d.overrun k b) (d.arrivalsTaken b) :=
  if_pos (by rw [Bool.not_eq_true']; exact h)

variable (hen : (d.bar b).enabled = true)
include hen

theorem arrivalEffect_of_stuck (h : (d.bar b).stuck = true) : arrivalEffect b d = d.arrivalsTaken b :=
  (if_neg (by rw [Bool.not_eq_true', Bool.not_eq_false]; exact hen)).trans (if_pos h)

variable (hgoes : (d.bar b).stuck = false)
include hgoes

theorem arrivalEffect_of_open : arrivalEffect b d =
    if d.arrivalsOverrun b = true then (d.arrivalsCounted b).overrunBar b else (d.arrivalsCounted b).checkBar b :=
  (if_neg (by rw [Bool.not_eq_true', Bool.not_eq_false]; exact hen)).trans (if_neg (Bool.eq_false_iff.1 hgoes))

end

/-! ### Releases (R226, R256) -/

theorem exec_releaseArrival (st : SiteId) (s : State) :
    exec (.releaseArrival st) s = onEvent s (releaseEnabled st) fun _ => releaseEffect st := rfl

/-- The device once a release has left the carillon and the tile's copy of its barrier has the new episode (R256). -/
def Dev.releaseTaken (d : Dev) (s : SiteId) (r : SiteId × Nat × BitVec 2 × Nat) : Dev :=
  { d with car := { d.car with releases := eraseFirst (fun q => q == r) d.car.releases } }.modCtl s fun c =>
    c.setEpisode r.2.1 r.2.2.1

/-- Context 0 waits at the commit barrier of the site's paddock, and this is the barrier (R226). -/
def Dev.awaitsCommit (d : Dev) (s : SiteId) (b : Nat) : Prop :=
  (d.tile s).commitWait = true ∧ (d.padOf s).map (·.val + 240) = some b ∧ d.tileUp s = true

theorem Dev.releaseTaken_awaitsCommit (d : Dev) (s : SiteId) (r : SiteId × Nat × BitVec 2 × Nat) (b : Nat) :
    (d.releaseTaken s r).awaitsCommit s b ↔ d.awaitsCommit s b := by
  simp only [Dev.awaitsCommit, Dev.tileUp, Dev.padOf, Dev.releaseTaken, Dev.modCtl, Dev.modTile_tile]
  rfl

section
variable {s : SiteId} {d : Dev} {r : SiteId × Nat × BitVec 2 × Nat} (hr : d.car.releases.find? (d.releaseDue s) = some r)
include hr

/-- The release of the commit barrier starts the phase (R226). -/
theorem releaseEffect_of_commit (h : (d.releaseTaken s r).awaitsCommit s r.2.1) :
    releaseEffect s d = (d.releaseTaken s r).modTile s fun t => { t with startDue := true } := by
  obtain ⟨hwait, hbar, hup⟩ := h
  simp only [releaseEffect, hr]
  refine if_pos ?_
  rw [Bool.and_eq_true, Bool.and_eq_true, beq_iff_eq]
  exact ⟨⟨hwait, hbar⟩, hup⟩

theorem releaseEffect_of_other (h : ¬ (d.releaseTaken s r).awaitsCommit s r.2.1) : releaseEffect s d = d.releaseTaken s r := by
  simp only [releaseEffect, hr]
  refine if_neg fun hcommit => h ?_
  rw [Bool.and_eq_true, Bool.and_eq_true, beq_iff_eq] at hcommit
  exact ⟨hcommit.1.1, hcommit.1.2, hcommit.2⟩

end

/-- Settles O18: ENABLED, an overrun held and the count with the cycle's arrivals decide what becomes of them, and whether a context
waits at the commit barrier what becomes of a release. -/
theorem barriersCountAndRelease : Obligations.BarriersCountAndRelease := by
  unfold Obligations.BarriersCountAndRelease
  refine ⟨fun b k s hen => ?_, fun st dst b due e s hen hr => ?_⟩
  · rw [exec_barrierArrival, onEvent_holds _ hen]
    refine ⟨fun henabled hstuck => ?_, fun henabled hgoes hpad hover => ?_, fun henabled hgoes hstale hcount => ?_,
      fun hdisabled => ?_⟩
    · rw [arrivalEffect_of_stuck henabled hstuck]
      rfl
    · have hpad : ((s.dev.arrivalsCounted b).bar b).pad = k.val := by
        rw [Dev.arrivalsCounted, Dev.modBar_bar, CarBarrier.setState_pad]
        exact hpad
      rw [arrivalEffect_of_open henabled hgoes, if_pos ((Dev.arrivalsOverrun_iff ..).2 hover), Dev.overrunBar_of_pad hpad]
      rfl
    · have hfine : ¬ s.dev.arrivalsOverrun b = true :=
        mt (Dev.arrivalsOverrun_iff ..).1 (not_or.2 ⟨Bool.eq_false_iff.1 hstale, Nat.not_lt.2 hcount⟩)
      rw [arrivalEffect_of_open henabled hgoes, if_neg hfine]
      rfl
    · rw [arrivalEffect_of_disabled hdisabled]
      rfl
  · rw [exec_releaseArrival, onEvent_holds _ hen]
    refine ⟨fun hother => ?_, fun hcommit => ?_⟩
    · rw [releaseEffect_of_other hr (mt (Dev.releaseTaken_awaitsCommit ..).1 hother)]
      rfl
    · rw [releaseEffect_of_commit hr ((Dev.releaseTaken_awaitsCommit ..).2 hcommit)]
      rfl

/-! ### Barrier packets (R258, R359, R391) -/

theorem exec_fabBarrierArrive (n : LinkId) (p : FabPkt) (s : State) : exec (.fabBarrierArrive n p) s =
    onEvent s (fun d => d.hasPkt n p && d.isMine p) fun _ => barPktEffect n p 8 arriveEffect := rfl

theorem exec_fabBarrierRelease (n : LinkId) (p : FabPkt) (s : State) : exec (.fabBarrierRelease n p) s =
    onEvent s (fun d => d.hasPkt n p && d.isMine p) fun _ => barPktEffect n p 9 fabReleaseEffect := rfl

/-- A barrier packet came on a trusted link, or from the device itself (R359, R389). -/
def Dev.barTrusted (d : Dev) (n : LinkId) (p : FabPkt) : Prop := d.trusted n = true ∨ d.fab.loop.contains p = true

/-- A packet of code `code` passes the general checks of a barrier packet, and names barrier `b` of paddock `k` (R391). -/
structure Dev.BarPacketOf (d : Dev) (p : FabPkt) (code : Nat) (k : PadId) (b : BarId) : Prop where
  formed : pktWellFormed p = true
  codeIs : mgCode p = code
  noPayload : p.len = 0#7
  paddock : d.brandPad p.brand = some k
  barrier : d.barOf k p = some b
  brand : (d.bar b).brand = p.brand
  spans : (d.bar b).spanning = true

section
variable {n : LinkId} {p : FabPkt} {code : Nat} {f : PadId → FabPkt → BarId → Dev → Dev} {d : Dev}

theorem barPktEffect_of_untrusted (h : ¬ d.barTrusted n p) : barPktEffect n p code f d = (d.takePkt n p).mgmtRefuse [n.val] := by
  obtain ⟨hlink, hloop⟩ := not_or.1 h
  refine if_pos ?_
  rw [Bool.eq_false_iff.2 hlink, Bool.eq_false_iff.2 hloop]
  rfl

/-- A packet that passes the general checks meets its barrier. -/
theorem barPktEffect_of_good {k : PadId} {b : BarId} (h : d.barTrusted n p) (hgood : (d.takePkt n p).BarPacketOf p code k b) :
    barPktEffect n p code f d = f k p b (d.takePkt n p) := by
  obtain ⟨hformed, hcode, hlen, hpad, hbar, hbrand, hspans⟩ := hgood
  have htrusted : (!d.trusted n && !d.fab.loop.contains p) = false := by
    rcases h with h | h <;> simp only [h, Bool.not_true, Bool.false_and, Bool.and_false]
  simp only [barPktEffect, htrusted, Dev.barPacket, hformed, hcode, hlen, hpad, hbar, hbrand, hspans, bne_self_eq_false,
    Bool.not_true, Bool.or_self, Bool.false_eq_true, if_false]

end

/-! ### A child's arrival and the parent's release (R254, R255, R258, R268) -/

section
variable {k : PadId} {p : FabPkt} {b : BarId} {d : Dev}

theorem arriveEffect_of_stranger (h : (d.children b).contains p.src = false) : arriveEffect k p b d = d.dropBar p := by
  simp only [arriveEffect, h, Bool.not_false, if_true]

section
variable (hchild : (d.children b).contains p.src = true)
include hchild

theorem arriveEffect_of_disabled (h : (d.bar b).enabled = false) : arriveEffect k p b d = d.overrun k b := by
  simp only [arriveEffect, hchild, h, Bool.not_true, Bool.not_false, Bool.false_eq_true, if_false, if_true]

variable (hen : (d.bar b).enabled = true)
include hen

/-- A second arrival of a child is dropped, and overruns a barrier that no overrun holds. -/
theorem arriveEffect_of_arrived (h : (d.bar b).children.contains p.src = true) :
    arriveEffect k p b d = if (d.bar b).stuck = true then d.dropBar p else (d.dropBar p).overrunBar b := by
  simp only [arriveEffect, hchild, hen, h, Bool.not_true, Bool.false_eq_true, if_false, if_true]

variable (hfirst : (d.bar b).children.contains p.src = false)
include hfirst

theorem arriveEffect_of_stuck (h : (d.bar b).stuck = true) : arriveEffect k p b d = d := by
  simp only [arriveEffect, hchild, hen, hfirst, h, Bool.not_true, Bool.false_eq_true, if_false, if_true]

/-- What a first arrival does follows from its tag. -/
theorem arriveEffect_of_first (h : (d.bar b).stuck = false) : arriveEffect k p b d =
    if mgByte p 5 % 4 = ((d.bar b).episode - 1).toNat then d.overrunBar b
    else if mgByte p 5 % 4 ≠ (d.bar b).episode.toNat then d
    else (d.modBar b fun q => { q.setState 16 8 (q.arrivedChildren + 1) with children := q.children ++ [p.src] }).checkBar b := by
  simp only [arriveEffect, hchild, hen, hfirst, h, Bool.not_true, Bool.false_eq_true, if_false, beq_iff_eq, bne_iff_ne]

end

/-- The packet is the parent's release of the next episode. -/
def CarBarrier.releasedBy (q : CarBarrier) (p : FabPkt) : Prop :=
  q.hasParent = true ∧ p.src.toNat = q.parent ∧ mgByte p 5 % 4 = (q.episode + 1).toNat

theorem fabReleaseEffect_of_other (h : ¬ (d.bar b).releasedBy p) : fabReleaseEffect k p b d = d.dropBar p := by
  refine if_pos ?_
  by_contra hguard
  simp only [Bool.or_eq_true, Bool.not_eq_true', bne_iff_ne, not_or, Bool.not_eq_false, not_not] at hguard
  obtain ⟨⟨hparent, hsrc⟩, htag⟩ := hguard
  exact h ⟨hparent, hsrc, htag⟩

theorem fabReleaseEffect_of_parent (h : (d.bar b).releasedBy p) :
    fabReleaseEffect k p b d = if (d.bar b).stuck = true then d else d.releaseBar b := by
  obtain ⟨hparent, hsrc, htag⟩ := h
  simp only [fabReleaseEffect, hparent, hsrc, htag, Bool.not_true, bne_self_eq_false, Bool.or_self, Bool.false_eq_true, if_false]

end

/-- The episodes are counted modulo 4, so that none is the one before itself (R253). -/
theorem episode_ne_pred (e : BitVec 2) : e.toNat ≠ (e - 1).toNat := by
  intro h
  have hself := BitVec.eq_of_toNat_eq h
  bv_omega

/-- Settles O43: trust and the general checks are those of every barrier packet; then the child list, ENABLED, an overrun held, the
children counted and the tag decide on an arrival, and the parent, the tag and an overrun held on a release. -/
theorem spanningBarriersFollowTheirTree : Obligations.SpanningBarriersFollowTheirTree := by
  unfold Obligations.SpanningBarriersFollowTheirTree
  intro n p k b s hhas hmine d t q trusted good
  have hen : (s.dev.hasPkt n p && s.dev.isMine p) = true := by rw [hhas, hmine]; rfl
  have harrive : exec (.fabBarrierArrive n p) s = .next (s.put (barPktEffect n p 8 arriveEffect d)) := by
    rw [exec_fabBarrierArrive, onEvent_holds _ hen]
  have hrelease : exec (.fabBarrierRelease n p) s = .next (s.put (barPktEffect n p 9 fabReleaseEffect d)) := by
    rw [exec_fabBarrierRelease, onEvent_holds _ hen]
  have hgood {code : Nat} {f : PadId → FabPkt → BarId → Dev → Dev} (h : good code) :
      barPktEffect n p code f d = f k p b t := by
    obtain ⟨htrusted, hformed, hcode, hlen, hpad, hbar, hbrand, hspans⟩ := h
    exact barPktEffect_of_good htrusted ⟨hformed, hcode, hlen, hpad, hbar, hbrand, hspans⟩
  rw [harrive, hrelease]
  refine ⟨fun huntrusted => ⟨?_, ?_⟩, fun h hchild htag henabled hgoes hfirst => ?_, fun h hstranger => ?_,
    fun h hchild => ⟨fun hdisabled => ?_, fun henabled hstuck => ?_, fun henabled hgoes harrived => ?_,
      fun henabled hgoes hfirst => ⟨fun htag => ?_, fun hpast hcurrent => ?_⟩⟩,
    fun h hparent hsrc htag => ⟨fun hgoes => ?_, fun hstuck => ?_⟩, fun h hother => ?_⟩
  · rw [barPktEffect_of_untrusted huntrusted]
  · rw [barPktEffect_of_untrusted huntrusted]
  · rw [hgood h, arriveEffect_of_first hchild henabled hfirst hgoes, if_neg (htag ▸ episode_ne_pred _), if_neg (not_not.2 htag)]
  · rw [hgood h, arriveEffect_of_stranger hstranger]
  · rw [hgood h, arriveEffect_of_disabled hchild hdisabled]
  · rw [hgood h]
    split
    next harrived => rw [arriveEffect_of_arrived hchild henabled harrived, if_pos hstuck]
    next hfirst => rw [arriveEffect_of_stuck hchild henabled (Bool.eq_false_iff.2 hfirst) hstuck]
  · rw [hgood h, arriveEffect_of_arrived hchild henabled harrived, if_neg (Bool.eq_false_iff.1 hgoes)]
  · rw [hgood h, arriveEffect_of_first hchild henabled hfirst hgoes, if_pos htag]
  · rw [hgood h, arriveEffect_of_first hchild henabled hfirst hgoes, if_neg hpast, if_pos hcurrent]
  · rw [hgood h, fabReleaseEffect_of_parent ⟨hparent, hsrc, htag⟩, if_neg (Bool.eq_false_iff.1 hgoes)]
  · rw [hgood h, fabReleaseEffect_of_parent ⟨hparent, hsrc, htag⟩, if_pos hstuck]
  · rw [hgood h, fabReleaseEffect_of_other]
    rintro ⟨hparent, hsrc, htag⟩
    rcases hother with hnone | hsrc' | htag'
    · exact Bool.eq_false_iff.1 hnone hparent
    · exact hsrc' hsrc
    · exact htag' htag

end Sys2Proof.Machine
end

section
/-!
PROOFS. Work counters, claim words, and what reaches a tile's bells, contexts and queues (R205, R242, R243, R249, R252, R259, R263):
one rule per command, what lies behind the frames of each, and the statement about them.
-/
namespace Sys2Proof.Machine

/-! ### Work counters (R242, R259) -/

theorem exec_workCounterOp (c : Fin 256) (s : State) :
    exec (.workCounterOp c) s = onEvent s (workEnabled c) fun _ => workEffect c := rfl

/-- The device once a request has left the carillon's inbox. -/
def Dev.workTaken (d : Dev) (m : Nat × MeshMsg) : Dev :=
  { d with car := { d.car with inbox := eraseFirst (fun q => q == m) d.car.inbox } }

theorem workEffect_of_request {c : Fin 256} {d : Dev} {at_ n : Nat} {src : SiteId} {ctx : CtxId}
    (h : d.car.nextWork c.val = some (at_, .workReq n src ctx)) : workEffect c d =
      ((d.workTaken (at_, .workReq n src ctx)).workAdd c).1.meshFromCarillon src false
        (.workRsp ctx (d.car.works[c]).gen (d.car.works[c]).value) := by
  simp only [workEffect, h]
  rfl

/-- An operation counts at its own counter, and leaves its generation. -/
theorem Dev.workAdd_counter (d : Dev) (c : Fin 256) :
    ((d.workAdd c).1.car.works[c]).value = satInc (d.car.works[c]).value ∧
      ((d.workAdd c).1.car.works[c]).gen = (d.car.works[c]).gen := by
  simp only [Dev.workAdd, vmod_same, and_self]

theorem Dev.workAdd_other (d : Dev) {c c' : Fin 256} (h : c' ≠ c) : (d.workAdd c).1.car.works[c'] = d.car.works[c'] :=
  vmod_other _ _ _ _ h

/-- An answer of the carillon is one packet behind those on their way; it leaves carillon, tiles and lofts alone. -/
theorem Dev.meshFromCarillon_only (d : Dev) (dst : SiteId) (prio : Bool) (body : MeshMsg) :
    (∃ p : MeshPkt, (d.meshFromCarillon dst prio body).mesh = d.mesh ++ [p] ∧ p.dests = [dst] ∧ p.body = body) ∧
      (d.meshFromCarillon dst prio body).car = d.car ∧ (d.meshFromCarillon dst prio body).tiles = d.tiles ∧
      (d.meshFromCarillon dst prio body).lofts = d.lofts :=
  ⟨⟨_, rfl, rfl, rfl⟩, rfl, rfl, rfl⟩

/-! ### Claim words (R205, R243) -/

theorem exec_claimWordUpdate (l : SiteId) (ecc : DramEcc) (s : State) :
    exec (.claimWordUpdate l ecc) s = onEvent s (claimEnabled l) fun _ => claimEffect l ecc := rfl

/-- The windows that a claim closes are of the controller's queues: memory and the codewords' marks stay (R203). -/
theorem Loft.touchBoth_mem (l : Loft) (off : Nat) : (l.touchBoth off).mem = l.mem := rfl

theorem Loft.touchBoth_badOf (l : Loft) (off o n : Nat) : (l.touchBoth off).badOf o n = l.badOf o n := rfl

/-- A range that is not empty begins in its first codeword. -/
theorem mem_wordsIn_first {off n : Nat} (hn : n ≠ 0) : off / 16 ∈ wordsIn off n := by
  rw [wordsIn, if_neg (by rwa [beq_iff_eq]), List.mem_map]
  exact ⟨0, List.mem_range.2 (Nat.succ_pos _), Nat.add_zero _⟩

/-- A range without a bad codeword begins with a good one. -/
theorem Loft.badOf_one_of_nil {l : Loft} {off n : Nat} (hn : n ≠ 0) (h : l.badOf off n = []) : l.badOf off 1 = [] := by
  have hfirst := mem_wordsIn_first (off := off) hn
  cases hdead : l.deadChans.contains (offChannel off) with
  | true =>
    rw [Loft.badOf, if_pos hdead] at h
    rw [h] at hfirst
    contradiction
  | false =>
    rw [Loft.badOf, if_neg (Bool.eq_false_iff.1 hdead), List.filter_eq_nil_iff] at h
    rw [Loft.badOf, if_neg (Bool.eq_false_iff.1 hdead), wordsIn_one, List.filter_cons_of_neg (h _ hfirst), List.filter_nil]

/-- The device once the oldest claim at a loft has been taken, `rest` staying, and the windows on its block are closed. -/
def Dev.claimTaken (d : Dev) (l : SiteId) (off : Nat) (rest : List MeshMsg) : Dev :=
  { d with claims := vmod d.claims l fun _ => rest }.modLoft l fun lo => lo.touchBoth off

/-- The answer to a claim: at the loft's own tile at once, to another tile in one packet. -/
def Dev.claimReply (d : Dev) (l src : SiteId) (c : CtxId) (r : Nat) : Dev :=
  if src = l then d.claimAnswer src c r
  else d.launch { at_ := l, dests := [src], vc := 1, prio := false, src := l.val, paddock := d.padOf src, inPort := 5,
                  body := .claimRsp c r }

/-- The word at an offset says that the claim of a generation is DONE. -/
def Loft.claimDone (l : Loft) (off : Nat) (gen : BitVec 16) : Bool :=
  fld (leNat (l.mem.readN off 8)) 0 16 == gen.toNat && bitOf (leNat (l.mem.readN off 8)) 16

theorem Loft.claimDone_iff (l : Loft) (off : Nat) (gen : BitVec 16) : l.claimDone off gen = true ↔
    fld (leNat (l.mem.readN off 8)) 0 16 = gen.toNat ∧ bitOf (leNat (l.mem.readN off 8)) 16 = true := by
  rw [Loft.claimDone, Bool.and_eq_true, beq_iff_eq]

section
variable {l src : SiteId} {a tile : Nat} {gen : BitVec 16} {c : CtxId} {rest : List MeshMsg} {p : Paddock} {d : Dev}
  (hhead : d.claims[l] = .claimReq a gen tile src c :: rest) (hpad : (d.padOf src).bind d.pad = some p)
  (hgranted : p.granted l.val (dramOff a) 8 = true) (hgood : (d.loft l).badIn (dramOff a) 8 = none)
include hhead hpad hgranted hgood

/-- A claim of a generation already DONE is answered by 0 and changes no memory; any other writes its word and is answered by 1. -/
theorem claimEffect_of_readable : claimEffect l .clean d =
    if (d.loft l).claimDone (dramOff a) gen = true then
      (d.claimTaken l (dramOff a) rest).claimReply l src c 0
    else ((d.claimTaken l (dramOff a) rest).modLoft l fun lo => lo.store (dramOff a)
      (leBytes 8 (gen.toNat + 2 ^ 16 + tile % 64 * 2 ^ 32)) d.now).claimReply l src c 1 := by
  have hnil : (d.loft l).badOf (dramOff a) 8 = [] := by
    rwa [Loft.badIn, Option.map_eq_none_iff, List.head?_eq_none_iff] at hgood
  have hclean : (d.claimTaken l (dramOff a) rest).dramCode l (dramOff a) .clean = d.claimTaken l (dramOff a) rest := by
    refine Dev.dramCode_clean ?_
    rw [Dev.claimTaken, Dev.modLoft_loft, Loft.touchBoth_badOf]
    exact Loft.badOf_one_of_nil (by decide) hnil
  have hread : ((d.claimTaken l (dramOff a) rest).loft l).badIn (dramOff a) 8 = none := by
    rw [Dev.claimTaken, Dev.modLoft_loft]
    exact hgood
  have hdone : ((d.claimTaken l (dramOff a) rest).loft l).claimDone (dramOff a) gen = (d.loft l).claimDone (dramOff a) gen := by
    rw [Dev.claimTaken, Dev.modLoft_loft]
    rfl
  have hpad' : (({ d with claims := vmod d.claims l fun _ => rest } : Dev).padOf src).bind
      ({ d with claims := vmod d.claims l fun _ => rest } : Dev).pad = some p := hpad
  simp only [claimEffect, hhead, hpad', hgranted, Bool.not_true, Bool.false_eq_true, if_false]
  rw [← Dev.claimTaken, hclean, hread, ← Loft.claimDone, hdone]
  simp only [beq_iff_eq]
  cases (d.loft l).claimDone (dramOff a) gen with
  | true => rfl
  | false => rfl

end

/-! ### Bells, acknowledgements and queues (R249, R252, R263) -/

theorem exec_bellAddArrival (st : SiteId) (s : State) :
    exec (.bellAddArrival st) s = onEvent s (bellArrivalEnabled st) fun _ => bellArrivalEffect st := rfl

theorem exec_bellAddAcknowledgement (st : SiteId) (s : State) :
    exec (.bellAddAcknowledgement st) s = onEvent s (bellAckEnabled st) fun _ => bellAckEffect st := rfl

theorem exec_tileQueuePop (st : SiteId) (q : Byte) (s : State) :
    exec (.tileQueuePop st q) s = onEvent s (fun d => d.running && d.hasTile st) fun _ d =>
      d.modTile st fun t => { t with queues := vmodN t.queues q.toNat MsgQueue.pop } := rfl

section
variable {st : SiteId} {d : Dev} {ctx : CtxId}

theorem bellArrivalEffect_of_first {b n : Nat} {src : SiteId}
    (h : (d.tile st).firstMsg MeshMsg.isBellAdd = some (.bellAdd b n src ctx)) :
    bellArrivalEffect st d = ((d.takeMsg st (.bellAdd b n src ctx)).bellAdd st b n).meshTo st src 2 true (.bellAck ctx) := by
  simp only [bellArrivalEffect, h]

theorem bellAckEffect_of_first (h : (d.tile st).firstMsg MeshMsg.isBellAck = some (.bellAck ctx)) :
    bellAckEffect st d = (d.takeMsg st (.bellAck ctx)).modCtx st ctx fun x => { x with bellAcks := x.bellAcks - 1 } := by
  simp only [bellAckEffect, h]

end

/-- Settles O19: the request that is first is served at its counter alone and answered in one packet; the claim word as it stood
decides the answer to a claim; and the packet that is first in a tile's inbox is what a bell and a context take. -/
theorem countersClaimsAndBells : Obligations.CountersClaimsAndBells := by
  unfold Obligations.CountersClaimsAndBells
  refine ⟨fun c at_ n src ctx s hen hnext => ?_, fun l src a tile gen c rest p s hen hhead hpad hgranted hgood => ?_,
    fun st src b n ctx q s => ⟨fun hen hfirst => ?_, fun hen hfirst => ?_, fun hrun htile => ?_⟩⟩
  · obtain ⟨⟨p, hmesh, hdests, hbody⟩, hcar, htiles, hlofts⟩ := Dev.meshFromCarillon_only
      ((s.dev.workTaken (at_, .workReq n src ctx)).workAdd c).1 src false
      (.workRsp ctx (s.dev.car.works[c]).gen (s.dev.car.works[c]).value)
    obtain ⟨hvalue, hgen⟩ := (s.dev.workTaken (at_, .workReq n src ctx)).workAdd_counter c
    refine ⟨workEffect c s.dev, ?_, ?_⟩
    · rw [exec_workCounterOp, onEvent_holds _ hen]
    · rw [workEffect_of_request hnext, hcar, htiles, hlofts]
      exact ⟨hvalue, hgen, fun c' hc => Dev.workAdd_other _ hc, ⟨p, hmesh, hdests, hbody⟩, rfl, rfl⟩
  · rw [exec_claimWordUpdate, onEvent_holds _ hen]
    refine ⟨fun hdone => ?_, fun hnot => ?_⟩
    · rw [claimEffect_of_readable hhead hpad hgranted hgood, if_pos ((Loft.claimDone_iff ..).2 hdone)]
      rfl
    · rw [claimEffect_of_readable hhead hpad hgranted hgood, if_neg (mt (Loft.claimDone_iff ..).1 hnot)]
      rfl
  · rw [exec_bellAddArrival, onEvent_holds _ hen, bellArrivalEffect_of_first hfirst]
  · rw [exec_bellAddAcknowledgement, onEvent_holds _ hen, bellAckEffect_of_first hfirst]
  · rw [exec_tileQueuePop, onEvent_holds _ (by rw [hrun, htile]; rfl)]
    rfl

end Sys2Proof.Machine
end

section
/-!
PROOFS. Messages at their destination and their sender (R162, R263, R264, R266, R267) and the records of the sample unit (R519): one
rule per outcome of the tests on a message, of a response and of a held record, and the statement about them.
-/
namespace Sys2Proof.Machine

/-! ### The tests on a message (R263, R264, R266) -/

theorem exec_messageDelivery (st : SiteId) (s : State) :
    exec (.messageDelivery st) s = onEvent s (messageEnabled st) fun _ => messageEffect st := rfl

/-- A tile's image is usable, and its paddock has an open run (R266). -/
def Dev.msgUsable (d : Dev) (s : SiteId) : Bool := (d.tile s).ctl.cfgBank.getLsbD 3 && d.runOpen (d.padOf s)

theorem Dev.msgUsable_iff (d : Dev) (s : SiteId) :
    d.msgUsable s = true ↔ (d.tile s).ctl.cfgBank.getLsbD 3 = true ∧ d.runOpen (d.padOf s) = true := Bool.and_eq_true_iff

/-- The device once a message is decided on in this cycle. -/
def Dev.msgNoted (d : Dev) (s : SiteId) : Dev := d.modTile s fun t => { t with msgAt := some d.now }

/-- The device once a message has been refused, which is counted (R266). -/
def Dev.msgRefused (d : Dev) (s : SiteId) : Dev := (d.msgNoted s).refuseMsg s

/-- The decision of a RING queue on a message (R263). -/
def Dev.ringDecides (d : Dev) (s : SiteId) (q : MsgQueue) (bytes : Bytes) : Dev × Option MsgResp :=
  match (d.tile s).placeRing q.region q.msu d.anow bytes with
  | none => (d.msgRefused s, some .nakFull)
  | some t => ((d.msgNoted s).modTile s fun _ => { t with msgAt := some d.now }, some .ack)

/-- The decision of a queue in QUEUE mode on a message (R264). -/
def Dev.queueDecides (d : Dev) (s : SiteId) (qn : Nat) (bytes : Bytes) : Dev × Option MsgResp :=
  if 16 ≤ (vgetN (d.tile s).queues qn {}).entries.length then (d.msgNoted s, none)
  else ((d.msgNoted s).modTile s fun t => t.takeEntry qn bytes, some .ack)

/-- The tests on a message, in their order. -/
theorem Dev.acceptMsg_eq (d : Dev) (s : SiteId) (qn : Nat) (rank : BitVec 16) (bytes : Bytes) :
    d.acceptMsg s qn rank bytes =
      if d.msgUsable s = false then (d.msgRefused s, some .nakNoQueue)
      else if (d.tile s).ctl.rank.toNat ≤ rank.toNat then (d.msgRefused s, some .nakRank)
      else if (vgetN (d.tile s).queues qn {}).enabled = false then (d.msgRefused s, some .nakNoQueue)
      else if (vgetN (d.tile s).queues qn {}).ring = true then d.ringDecides s (vgetN (d.tile s).queues qn {}) bytes
      else d.queueDecides s qn bytes := by
  have hpad : (d.msgNoted s).padOf s = d.padOf s := by
    rw [Dev.padOf, Dev.msgNoted, Dev.modTile_tile]
    rfl
  have hunusable : (!(d.tile s).ctl.cfgBank.getLsbD 3 || !(d.msgNoted s).runOpen ((d.msgNoted s).padOf s)) = true ↔
      d.msgUsable s = false := by
    rw [hpad, ← Bool.not_and, Bool.not_eq_true']
    rfl
  have hdisabled : (!(vgetN (d.tile s).queues qn {}).enabled) = true ↔ (vgetN (d.tile s).queues qn {}).enabled = false :=
    iff_of_eq (Bool.not_eq_true' _)
  exact if_congr hunusable rfl (if_congr Iff.rfl rfl (if_congr hdisabled rfl rfl))

section
variable {s : SiteId} {qn : Nat} {rank : BitVec 16} {bytes : Bytes} {d : Dev}

theorem Dev.acceptMsg_of_unusable (h : d.msgUsable s = false) :
    d.acceptMsg s qn rank bytes = (d.msgRefused s, some .nakNoQueue) := by
  rw [Dev.acceptMsg_eq, if_pos h]

variable (husable : d.msgUsable s = true)
include husable

theorem Dev.acceptMsg_of_rank (h : (d.tile s).ctl.rank.toNat ≤ rank.toNat) :
    d.acceptMsg s qn rank bytes = (d.msgRefused s, some .nakRank) := by
  rw [Dev.acceptMsg_eq, if_neg (ne_false_of_eq_true husable), if_pos h]

variable (hrank : rank.toNat < (d.tile s).ctl.rank.toNat)
include hrank

theorem Dev.acceptMsg_of_disabled (h : (vgetN (d.tile s).queues qn {}).enabled = false) :
    d.acceptMsg s qn rank bytes = (d.msgRefused s, some .nakNoQueue) := by
  rw [Dev.acceptMsg_eq, if_neg (ne_false_of_eq_true husable), if_neg (Nat.not_le.2 hrank), if_pos h]

variable (hen : (vgetN (d.tile s).queues qn {}).enabled = true)
include hen

theorem Dev.acceptMsg_of_ring (h : (vgetN (d.tile s).queues qn {}).ring = true) :
    d.acceptMsg s qn rank bytes = d.ringDecides s (vgetN (d.tile s).queues qn {}) bytes := by
  rw [Dev.acceptMsg_eq, if_neg (ne_false_of_eq_true husable), if_neg (Nat.not_le.2 hrank), if_neg (ne_false_of_eq_true hen),
    if_pos h]

theorem Dev.acceptMsg_of_queue (h : (vgetN (d.tile s).queues qn {}).ring = false) :
    d.acceptMsg s qn rank bytes = d.queueDecides s qn bytes := by
  rw [Dev.acceptMsg_eq, if_neg (ne_false_of_eq_true husable), if_neg (Nat.not_le.2 hrank), if_neg (ne_false_of_eq_true hen),
    if_neg (Bool.eq_false_iff.1 h)]

end

section
variable {s : SiteId} {q : MsgQueue} {qn : Nat} {bytes : Bytes} {d : Dev}

theorem Dev.ringDecides_of_noRoom (h : (d.tile s).placeRing q.region q.msu d.anow bytes = none) :
    d.ringDecides s q bytes = (d.msgRefused s, some .nakFull) := by
  simp only [Dev.ringDecides, h]

theorem Dev.ringDecides_of_room {t : Tile} (h : (d.tile s).placeRing q.region q.msu d.anow bytes = some t) :
    d.ringDecides s q bytes = ((d.msgNoted s).modTile s fun _ => { t with msgAt := some d.now }, some .ack) := by
  simp only [Dev.ringDecides, h]

theorem Dev.queueDecides_of_full (h : 16 ≤ (vgetN (d.tile s).queues qn {}).entries.length) :
    d.queueDecides s qn bytes = (d.msgNoted s, none) := if_pos h

theorem Dev.queueDecides_of_free (h : (vgetN (d.tile s).queues qn {}).entries.length < 16) :
    d.queueDecides s qn bytes = ((d.msgNoted s).modTile s fun t => t.takeEntry qn bytes, some .ack) := if_neg (Nat.not_le.2 h)

end

/-! ### What a packet leaves as it is taken -/

section
variable (d : Dev) (s : SiteId) (m : MeshMsg)

@[simp] theorem Dev.takeMsg_ctl : ((d.takeMsg s m).tile s).ctl = (d.tile s).ctl := by
  rw [Dev.takeMsg, Dev.modTile_tile]

@[simp] theorem Dev.takeMsg_queues : ((d.takeMsg s m).tile s).queues = (d.tile s).queues := by
  rw [Dev.takeMsg, Dev.modTile_tile]

@[simp] theorem Dev.takeMsg_chan (ch : Fin 64) : (d.takeMsg s m).chan s ch = d.chan s ch := by
  rw [Dev.chan, Dev.takeMsg, Dev.modTile_tile]
  rfl

@[simp] theorem Dev.takeMsg_msgUsable : (d.takeMsg s m).msgUsable s = d.msgUsable s := by
  rw [Dev.msgUsable, Dev.padOf, Dev.takeMsg_ctl]
  rfl

end

/-! ### A message's effect at its destination -/

section
variable {s src : SiteId} {qn ch : Nat} {rank : BitVec 16} {bytes : Bytes} {prio : Bool} {d e : Dev}
  (hfirst : (d.tile s).firstMsg MeshMsg.isMessage = some (.message qn rank bytes src ch prio))
include hfirst

/-- A message that is decided on is answered to the channel that sent it. -/
theorem messageEffect_of_answer {r : MsgResp}
    (h : (d.takeMsg s (.message qn rank bytes src ch prio)).acceptMsg s qn rank bytes = (e, some r)) :
    messageEffect s d = e.meshTo s src 2 prio (.msgResp ch r) := by
  simp only [messageEffect, hfirst, h, Dev.answerMsg]

/-- A message that met a full queue is held (R264). -/
theorem messageEffect_of_held (h : (d.takeMsg s (.message qn rank bytes src ch prio)).acceptMsg s qn rank bytes = (e, none)) :
    messageEffect s d = e.holdMsg s { queue := qn, bytes := bytes, sender := (src, ch, prio) } := by
  simp only [messageEffect, hfirst, h]

end

/-! ### A message that met a full queue (R264, R266) -/

/-- At the end of the cycle a held message is refused where its queue is full still, and enters it otherwise. -/
theorem Dev.settleMsg_of_held {s src : SiteId} {qn ch : Nat} {bytes : Bytes} {prio : Bool} {d : Dev}
    (hheld : (d.tile s).fullMsg = some { queue := qn, bytes := bytes, sender := (src, ch, prio) }) : d.settleMsg s =
    if 16 ≤ (vgetN (d.tile s).queues qn {}).entries.length then
      ((d.modTile s fun t => { t with fullMsg := none }).refuseMsg s).meshTo s src 2 prio (.msgResp ch .nakFull)
    else ((d.modTile s fun t => { t with fullMsg := none }).modTile s fun t => t.takeEntry qn bytes).meshTo s src 2 prio
      (.msgResp ch .ack) := by
  simp only [Dev.settleMsg, hheld, Dev.modTile_tile, Dev.answerMsg]

/-! ### Responses, resends and stuck channels (R266, R267) -/

/-- What a paddock's timers show depends on a tile by its control registers alone. -/
theorem Dev.modTile_timer {d : Dev} {s : SiteId} {f : Tile → Tile} (h : (f (d.tile s)).ctl = (d.tile s).ctl) :
    (d.modTile s f).timer s = d.timer s := by
  rw [Dev.timer, Dev.padOf, Dev.modTile_tile, h]
  rfl

@[simp] theorem Dev.takeMsg_timer (d : Dev) (s : SiteId) (m : MeshMsg) : (d.takeMsg s m).timer s = d.timer s :=
  Dev.modTile_timer rfl

theorem exec_messageResponse (st : SiteId) (s : State) :
    exec (.messageResponse st) s = onEvent s (respEnabled st) fun _ => respEffect st := rfl

theorem exec_backoffResend (st : SiteId) (ch : Fin 64) (s : State) : exec (.backoffResend st ch) s =
    onEvent s (resendEnabled st ch) fun _ d => (d.modChan st ch fun h => { h with tries := h.tries + 1 }).transmit st ch := rfl

theorem exec_channelStuck (st : SiteId) (ch : Fin 64) (s : State) :
    exec (.channelStuck st ch) s = onEvent s (stuckEnabled st ch) fun _ d => d.stick st ch 0x4002 := rfl

theorem respEffect_of_first {s : SiteId} {ch : Fin 64} {r : MsgResp} {d : Dev}
    (h : (d.tile s).firstMsg MeshMsg.isMsgResp = some (.msgResp ch.val r)) :
    respEffect s d = (d.takeMsg s (.msgResp ch.val r)).msgAnswer s ch r := by
  simp only [respEffect, h, finOf_val]

section
variable {s : SiteId} {ch : Fin 64} {e : SendEntry} {d : Dev} (hflight : (d.chan s ch).state = .inFlight)
  (hcurrent : (d.chan s ch).current = some e)
include hflight hcurrent

theorem Dev.msgAnswer_of_full (htries : (d.chan s ch).tries < 255) : d.msgAnswer s ch .nakFull =
    (d.modTile s fun t => { t with pmc := { t.pmc with naks := t.pmc.naks + 1 } }).modChan s ch fun h =>
      { h with state := .backoff, resendAt := d.timer s + backoffWait h.tries } := by
  have htimer : (d.modTile s fun t => { t with pmc := { t.pmc with naks := t.pmc.naks + 1 } }).timer s = d.timer s :=
    Dev.modTile_timer rfl
  simp only [Dev.msgAnswer, hflight, hcurrent, Nat.not_le.2 htries, if_false, htimer]

theorem Dev.msgAnswer_of_refusal {r : MsgResp} (h : r = .nakRank ∨ r = .nakNoQueue) :
    d.msgAnswer s ch r = d.stick s ch 0x4003 := by
  rcases h with rfl | rfl
  · simp only [Dev.msgAnswer, hflight, hcurrent]
  · simp only [Dev.msgAnswer, hflight, hcurrent]

end

/-! ### Sample records (R162, R519) -/

theorem exec_sampleRecordWrite (st : SiteId) (s : State) :
    exec (.sampleRecordWrite st) s = onEvent s (sampleEnabled st) fun _ => sampleEffect st := rfl

theorem sampleEffect_of_placed {s : SiteId} {d : Dev} {rec_ : Bytes} {skip : Nat} (hheld : (d.tile s).pmc.smpHeld = some rec_)
    (hplace : ((d.tile s).regionAt (d.tile s).pmc.sampleRegion).place d.anow (recLen rec_.length) = some skip) :
    sampleEffect s d = d.modTile s fun t => { t with pmc := { t.pmc with
      smpWrites := ((d.tile s).regionAt (d.tile s).pmc.sampleRegion).sampleWords skip rec_ } } :=
  Dev.modTile_congr d s (by simp only [hheld, hplace])

theorem Tile.sampleGranted_last {t : Tile} {w : Nat × Bytes × Nat} (h : t.pmc.smpWrites = [w]) (now nclk : Nat) :
    (t.sampleGranted now nclk).pmc =
      { t.pmc with smpWrites := [], smpHeld := none, smpWritten := t.pmc.smpWritten.inc nclk } := by
  simp only [Tile.sampleGranted, h, List.isEmpty_nil, if_true]

/-- Settles O20: the first test that fails decides on a message, and the room that its queue has where none fails; what the response
says, and how often the channel has tried, decide on the sender's side. -/
theorem messagesDecidedAndRetried : Obligations.MessagesDecidedAndRetried := by
  unfold Obligations.MessagesDecidedAndRetried
  refine ⟨fun st src qn ch rank bytes prio s => ?_, fun st src qn ch bytes prio d hheld => ?_, fun st ch e r s => ?_,
    fun t now nclk w hlast => Tile.sampleGranted_last hlast now nclk⟩
  · intro d t q hen hfirst got taken refused usable
    have husable : usable ↔ got.msgUsable st = true := by
      rw [Dev.takeMsg_msgUsable]
      exact (Dev.msgUsable_iff ..).symm
    have hctl : (got.tile st).ctl = t.ctl := Dev.takeMsg_ctl ..
    have hqueues : (got.tile st).queues = t.queues := Dev.takeMsg_queues ..
    have hring (huse : usable) (hrank : rank.toNat < t.ctl.rank.toNat) (henabled : q.enabled = true) (h : q.ring = true) :
        got.acceptMsg st qn rank bytes = got.ringDecides st q bytes := by
      rw [Dev.acceptMsg_of_ring (husable.1 huse) (by rwa [hctl]) (by rwa [hqueues]) (by rwa [hqueues]), hqueues]
    have hqueue (huse : usable) (hrank : rank.toNat < t.ctl.rank.toNat) (henabled : q.enabled = true) (h : q.ring = false) :
        got.acceptMsg st qn rank bytes = got.queueDecides st qn bytes :=
      Dev.acceptMsg_of_queue (husable.1 huse) (by rwa [hctl]) (by rwa [hqueues]) (by rwa [hqueues])
    rw [exec_messageDelivery, onEvent_holds _ hen]
    refine ⟨fun hnot => ?_, fun huse hrank => ?_, fun huse hrank hdisabled => ?_,
      fun huse hrank henabled h => ⟨fun hnoRoom => ?_, fun t' hroom => ?_⟩,
      fun huse hrank henabled h hfull => ?_, fun huse hrank henabled h hfree => ?_⟩
    · rw [messageEffect_of_answer hfirst (Dev.acceptMsg_of_unusable (Bool.eq_false_iff.2 (mt husable.2 hnot)))]
      rfl
    · rw [messageEffect_of_answer hfirst (Dev.acceptMsg_of_rank (husable.1 huse) (by rwa [hctl]))]
      rfl
    · rw [messageEffect_of_answer hfirst (Dev.acceptMsg_of_disabled (husable.1 huse) (by rwa [hctl]) (by rwa [hqueues]))]
      rfl
    · rw [messageEffect_of_answer hfirst ((hring huse hrank henabled h).trans (Dev.ringDecides_of_noRoom hnoRoom))]
      rfl
    · rw [messageEffect_of_answer hfirst ((hring huse hrank henabled h).trans (Dev.ringDecides_of_room hroom))]
      rfl
    · rw [messageEffect_of_held hfirst ((hqueue huse hrank henabled h).trans (Dev.queueDecides_of_full (by rwa [hqueues])))]
      rfl
    · rw [messageEffect_of_answer hfirst ((hqueue huse hrank henabled h).trans (Dev.queueDecides_of_free (by rwa [hqueues])))]
      rfl
  · rw [Dev.settleMsg_of_held hheld]
    exact ⟨fun hfull => if_pos hfull, fun hfree => if_neg (Nat.not_le.2 hfree)⟩
  · refine ⟨fun hen hfirst hflight hcurrent => ⟨fun hfull htries => ?_, fun hrefused => ?_⟩, fun hen => ?_, fun hen => ?_,
      fun rec_ skip hen hheld hplace => ?_⟩
    · rw [exec_messageResponse, onEvent_holds _ hen, respEffect_of_first hfirst, hfull,
        Dev.msgAnswer_of_full (by rwa [Dev.takeMsg_chan]) (by rwa [Dev.takeMsg_chan]) (by rwa [Dev.takeMsg_chan]),
        Dev.takeMsg_timer]
      rfl
    · rw [exec_messageResponse, onEvent_holds _ hen, respEffect_of_first hfirst,
        Dev.msgAnswer_of_refusal (by rwa [Dev.takeMsg_chan]) (by rwa [Dev.takeMsg_chan]) hrefused]
    · rw [exec_backoffResend, onEvent_holds _ hen]
    · rw [exec_channelStuck, onEvent_holds _ hen]
      rfl
    · rw [exec_sampleRecordWrite, onEvent_holds _ hen, sampleEffect_of_placed hheld hplace]

end Sys2Proof.Machine
end

section
/-!
PROOFS. The scrubber (R308 to R314, R488): one rule per command, the vote by what the copies say, the known-answer scan, what a
retirement leaves of the kinds of sites, and the statement about them.
-/
namespace Sys2Proof.Machine

/-! ### Accesses (R309 to R311) -/

theorem exec_scrubberAccess (st : SiteId) (a : CfgArea) (word : Nat) (ecc : Ecc) (s : State) :
    exec (.scrubberAccess st a word ecc) s =
      onEvent s (fun d => d.running && d.hasTile st && (d.walks st a word || (ecc == .uncorrectable && d.power st < 3)))
        (accessEffect st a word ecc) := rfl

/-- The next word of the walker whose turn it is: the walker's access, and then what an uncorrectable word does. -/
theorem scrubberAccess_of_walks {st : SiteId} {a : CfgArea} {word : Nat} {s : State} (hrun : s.dev.running = true)
    (htile : s.dev.hasTile st = true) (hwalks : s.dev.walks st a word = true) (ecc : Ecc) :
    exec (.scrubberAccess st a word ecc) s = .next (s.put
      (if ecc == .uncorrectable then
        (s.dev.modTile st fun t => { t with scrub := t.scrub.walk a ecc s.dev.now }).cfgUncorrectable st a word
      else s.dev.modTile st fun t => { t with scrub := t.scrub.walk a ecc s.dev.now })) := by
  rw [exec_scrubberAccess, onEvent_holds _ (by simp only [hrun, htile, hwalks, Bool.true_or, Bool.and_self])]
  simp only [accessEffect, hwalks, if_true]

/-! ### Votes (R312, R488) -/

theorem exec_scrubberVote (st : SiteId) (x y z : Nat) (s : State) :
    exec (.scrubberVote st x y z) s =
      onEvent s (fun d => d.running && d.hasTile st && d.power st < 3 && !(d.tile st).scrub.halted) (voteEffect st x y z) := rfl

/-- A vote over copies that agree is the vote alone. -/
theorem voteEffect_of_agree (st : SiteId) (x : Nat) (fz : Fuse) (d : Dev) :
    voteEffect st x x x fz d = d.modTile st fun t => { t with scrub := t.scrub.voted x x x d.now } := by
  simp only [voteEffect, beq_self_eq_true, Bool.and_self, if_true]

section
variable {x y z : Nat} (hx : x < 2 ^ scrubBits) (hy : y < 2 ^ scrubBits) (hz : z < 2 ^ scrubBits) (c : Scrubber) (now : Nat)

include hx in
/-- Copies that agree stand. -/
theorem Scrubber.voted_of_agree : c.voted x x x now = { c with copyA := x, copyB := x, copyC := x } := by
  simp only [Scrubber.voted, Nat.mod_eq_of_lt hx, beq_self_eq_true, Bool.and_self, if_true]

include hx hy hz

/-- The second copy carries the vote with the first or the third, against the other. -/
theorem Scrubber.voted_of_middle (hne : x ≠ z) (htwo : x = y ∨ y = z) : c.voted x y z now =
    { c with copyA := y, copyB := y, copyC := y, vote := c.vote.inc now } := by
  simp only [Scrubber.voted, Nat.mod_eq_of_lt hx, Nat.mod_eq_of_lt hy, Nat.mod_eq_of_lt hz]
  rcases htwo with rfl | rfl <;> simp [hne]

/-- The first and the third copy carry the vote against the second. -/
theorem Scrubber.voted_of_outer (hxz : x = z) (hne : x ≠ y) : c.voted x y z now =
    { c with copyA := x, copyB := x, copyC := x, vote := c.vote.inc now } := by
  simp only [Scrubber.voted, Nat.mod_eq_of_lt hx, Nat.mod_eq_of_lt hy, Nat.mod_eq_of_lt hz]
  simp [hxz ▸ hne, hxz]

/-- Three copies that differ stand as they are, and the scrubber halts. -/
theorem Scrubber.voted_of_differ (hxy : x ≠ y) (hyz : y ≠ z) (hxz : x ≠ z) : c.voted x y z now =
    { c with copyA := x, copyB := y, copyC := z, vote := c.vote.inc now, halted := true } := by
  simp only [Scrubber.voted, Nat.mod_eq_of_lt hx, Nat.mod_eq_of_lt hy, Nat.mod_eq_of_lt hz]
  simp [hxy, hyz, hxz]

/-- A disagreement counts towards the tile's retirement. -/
theorem voteEffect_of_disagree (st : SiteId) (fz : Fuse) (d : Dev) (hne : ¬ (x = y ∧ y = z)) :
    voteEffect st x y z fz d = (d.modTile st fun t => { t with scrub := t.scrub.voted x y z d.now }).countUpset st
      (·.votes) (fun h l => { h with votes := l }) hour 16 := by
  simp [voteEffect, Nat.mod_eq_of_lt hx, Nat.mod_eq_of_lt hy, Nat.mod_eq_of_lt hz, hne]

end

/-! ### The known-answer scan and the yardmaster's checks (R313, R314, R488) -/

theorem exec_tileScrubKatCmd (st : SiteId) (src : Accessor) (seed : Word) (s : State) :
    exec (.tileScrubKatCmd st src seed) s =
      onEvent s (fun d => d.running && d.hasTile st && d.power st < 2 && src == .yardmaster)
        fun _ d => d.modTile st fun t => t.askScan seed := rfl

theorem exec_scrubberCheck (st : SiteId) (s : State) :
    exec (.scrubberCheck st) s =
      onEvent s (fun d => d.worvis && d.hasTile st && d.power st < 2 && d.ym.handover.isEmpty &&
        (d.tile st).scrub.checkedAt + msN 1 ≤ d.now) (scrubCheckEffect st) := rfl

theorem exec_remountSelfTest (st : SiteId) (pass : Bool) (s : State) :
    exec (.remountSelfTest st pass) s =
      onEvent s (fun d => d.worvis && d.kinds[st] == .darkRemount && (d.ym.hist[st]).testedAt + day ≤ d.now)
        fun _ d => if pass then d.noteTest st else (d.noteTest st).retireTile st none := rfl

/-- The three test words come out as R314 expects them: every bit of the result is set. -/
theorem katResult_katWords (seed : Word) : katResult seed (katWords seed) = BitVec.ofNat 64 (seed.toNat + 31 * 2 ^ 32) := by
  have hsum (n : Nat) : n + 2 ^ 32 + 2 ^ 33 + 2 ^ 34 + 2 ^ 35 + 2 ^ 36 = n + 31 * 2 ^ 32 := by omega
  simp only [katResult, katWords, List.map_cons, List.map_nil, TestWord.scrub, beq_self_eq_true, List.isEmpty_nil, Bool.and_self,
    bit, if_true, hsum]

/-- A scrubber that works passes its scan. -/
theorem Tile.scan_scanOk {t : Tile} (seed : Word) (h : t.scrub.works = true) :
    ((t.askScan seed).scan).scrub.scanOk seed = true := by
  have hworks : (t.askScan seed).scrub.works = true := h
  have hkat : ((t.askScan seed).scan).scrub.kat = katResult seed (katWords seed) := by
    rw [Tile.scan, show (t.askScan seed).scrub.katSeed = some seed from rfl]
    simp only [hworks, Bool.not_true, Bool.false_eq_true, if_false]
  rw [Scrubber.scanOk, hkat, katResult_katWords, beq_self_eq_true]

/-- A heartbeat that stands still fails the check without a scan; the seed has been drawn all the same. -/
theorem scrubCheckEffect_of_still {st : SiteId} {d : Dev} (fz : Fuse)
    (h : BitVec.ofNat 32 (d.tile st).scrub.beat = (d.tile st).scrub.lastBeat) :
    scrubCheckEffect st fz d = ({ d with freeCtr := d.freeCtr + 1 }.modTile st fun t => { t with
      scrub := { t.scrub with checkedAt := d.now } }).retireTile st (some 0xE004) := by
  simp only [scrubCheckEffect, h, bne_self_eq_false, Bool.false_and, Bool.false_eq_true, if_false, Dev.draw]
  refine congrArg (Dev.retireTile · st (some 0xE004)) (Dev.modTile_congr _ st ?_)
  rfl

/-! ### A retirement leaves the kinds of the other sites -/

@[simp] theorem Dev.forSites_kinds (d : Dev) (ss : List SiteId) (f : Tile → Tile) : (d.forSites ss f).kinds = d.kinds :=
  foldl_keeps (·.kinds) (fun e s => e.modTile_kinds s f) ss d

@[simp] theorem Dev.faultEvent_kinds (d : Dev) (k : PadId) (owner : Nat) (f : FaultInfo) :
    (d.faultEvent k owner f).kinds = d.kinds := by
  unfold Dev.faultEvent
  dsimp only
  split <;> rfl

@[simp] theorem Dev.setOp_kinds (d : Dev) (i : Fin 64) (st : OpState) (code : Nat) : (d.setOp i st code).kinds = d.kinds := by
  unfold Dev.setOp
  dsimp only
  split <;> rfl

@[simp] theorem Dev.endOp_kinds (d : Dev) (i : Option (Fin 64)) (st : OpState) (code : Nat) : (d.endOp i st code).kinds = d.kinds := by
  unfold Dev.endOp
  split
  · split
    · exact Dev.setOp_kinds ..
    · rfl
  · rfl

@[simp] theorem Dev.settle_kinds (d : Dev) (k : PadId) : (d.settle k).kinds = d.kinds := by
  unfold Dev.settle
  split
  · rfl
  split
  · rfl
  · simp only [Dev.endOp_kinds, Dev.forSites_kinds, Dev.modPad_kinds]
    split
    · exact Dev.faultEvent_kinds ..
    · rfl

@[simp] theorem Dev.raise_kinds (d : Dev) (k : PadId) (ctx : Option (SiteId × CtxId)) (snap : Bool) (f : FaultInfo) :
    (d.raise k ctx snap f).kinds = d.kinds := by
  unfold Dev.raise
  split
  · rfl
  split
  · rfl
  · extract_lets event noted posted
    have hnoted : noted.kinds = d.kinds := by
      unfold noted
      split <;> rfl
    have hposted : posted.kinds = noted.kinds := by
      unfold posted
      split
      · rfl
      · exact Dev.faultEvent_kinds ..
    exact hposted.trans hnoted

theorem Dev.retireStop_kinds (d : Dev) (k : PadId) (p : Paddock) (s : SiteId) (code : Nat) :
    (d.retireStop k p s code).kinds = d.kinds := by
  unfold Dev.retireStop
  split
  · exact Dev.settle_kinds ..
  · rw [Dev.settle_kinds]
    split
    · rfl
    · rw [Dev.raise_kinds]
      rfl

/-- What sending on a link keeps, a message to a hitch position keeps. -/
theorem Dev.sendHitch_keeps {α : Type} (f : Dev → α) (h : ∀ d n p, f (Dev.sendOn d n p) = f d) (d : Dev) (q : Nat) (m : HitchMsg)
    (job : Bytes) (code : Nat) (data : Bytes) : f (d.sendHitch q m job code data) = f d := by
  unfold Dev.sendHitch
  split
  · split
    · exact h ..
    · rfl
  · rfl

@[simp] theorem Dev.sendHitch_kinds (d : Dev) (q : Nat) (m : HitchMsg) (job : Bytes) (code : Nat) (data : Bytes) :
    (d.sendHitch q m job code data).kinds = d.kinds :=
  Dev.sendHitch_keeps (·.kinds) (fun _ _ _ => Dev.carry_keeps (·.kinds) (fun _ _ => rfl) ..) d q m job code data

@[simp] theorem Dev.tellMembers_kinds (d : Dev) (m : HitchMsg) (job : Bytes) : (d.tellMembers m job).kinds = d.kinds :=
  foldl_keeps (·.kinds) (fun _ _ => Dev.sendHitch_kinds ..) _ d

@[simp] theorem Dev.dropShadow_kinds (d : Dev) (k : PadId) : (d.dropShadow k).kinds = d.kinds := by
  unfold Dev.dropShadow
  split
  · exact Dev.forSites_kinds ..
  · rfl

@[simp] theorem Dev.leaveLoading_kinds (d : Dev) (k : PadId) : (d.leaveLoading k).kinds = d.kinds := rfl

@[simp] theorem Dev.closeStream_kinds (d : Dev) (i : Nat) : (d.closeStream i).kinds = d.kinds := rfl

@[simp] theorem Dev.endLoad_kinds (d : Dev) (slot : Fin 64) (st : OpState) (code : Nat) : (d.endLoad slot st code).kinds = d.kinds := by
  unfold Dev.endLoad
  split
  · exact Dev.setOp_kinds ..
  · extract_lets told left cleared
    have htold : told.kinds = d.kinds := by
      unfold told
      split
      · exact Dev.tellMembers_kinds ..
      · rfl
    have hleft : left.kinds = d.kinds := by
      unfold left
      split
      · exact htold
      · rfl
    clear_value left
    have hcleared : cleared.kinds = left.kinds := (Dev.leaveLoading_kinds ..).trans (Dev.dropShadow_kinds ..)
    rw [Dev.setOp_kinds, Dev.closeStream_kinds]
    exact hcleared.trans hleft

theorem Dev.failLoad_kinds (d : Dev) (k : PadId) (code : Nat) : (d.failLoad k code).kinds = d.kinds := by
  unfold Dev.failLoad
  split
  · exact Dev.endLoad_kinds ..
  · split
    · exact (Dev.sendHitch_kinds ..).trans (Dev.dropShadow_kinds ..)
    · rfl
  · rfl

theorem Dev.endPadOps_kinds (d : Dev) (k : PadId) (code : Nat) : (d.endPadOps k code).kinds = d.kinds := by
  refine (Dev.failLoad_kinds ..).trans (foldl_keeps (·.kinds) (fun e i => ?_) _ d)
  split
  · exact Dev.setOp_kinds ..
  · rfl

theorem Dev.loseTile_kinds (d : Dev) (k : PadId) (n : Nat) : (d.loseTile k n).kinds = d.kinds := by
  unfold Dev.loseTile
  dsimp only
  split
  · exact Dev.forSites_kinds ..
  · rfl

/-- A retirement makes its site RETIRED and changes the kind of no other. -/
theorem Dev.retireTile_kinds (d : Dev) (s : SiteId) (code : Option Nat) :
    (d.retireTile s code).kinds = vmod d.kinds s fun _ => .retired := by
  unfold Dev.retireTile
  split
  · exact (vmod_keeps _ _ (eq_of_beq ‹_›).symm).symm
  · extract_lets ctl marked stops stopped
    have hstopped : stopped.kinds = marked.kinds := by
      unfold stopped
      split
      · rfl
      split
      · rfl
      · rw [Dev.loseTile_kinds, Dev.endPadOps_kinds, Dev.retireStop_kinds]
    exact hstopped

/-- A retirement is for good. -/
theorem Dev.retireTile_retired (d : Dev) (s : SiteId) (code : Option Nat) : (d.retireTile s code).kinds[s] = .retired :=
  (congrArg (·[s]) (d.retireTile_kinds s code)).trans (vmod_same ..)

/-- Settles O22: the copies decide the vote, the heartbeat the check and the self-test the remount; the rest is one rule per command. -/
theorem scrubberWalksVotesAndIsChecked : Obligations.ScrubberWalksVotesAndIsChecked := by
  unfold Obligations.ScrubberWalksVotesAndIsChecked
  refine ⟨fun st a word ecc s hrun htile hwalks => ?_, fun st x y z s hrun htile hpower hhalted hx hy hz => ?_,
    fun st src seed s => ⟨fun hrun htile hpower => ⟨fun hsrc => ?_, fun hsrc => ?_⟩, Tile.scan_scanOk seed,
      fun hworvis htile hpower hhandover hdue hstill => ?_, fun hworvis hdark hdue => ?_, fun code => Dev.retireTile_retired ..⟩⟩
  · rw [scrubberAccess_of_walks hrun htile hwalks]
    exact ⟨fun hfine => by simp [hfine], fun hbad => by simp [hbad]⟩
  · have hen : (s.dev.running && s.dev.hasTile st && s.dev.power st < 3 && !(s.dev.tile st).scrub.halted) = true := by
      simp [hrun, htile, hpower, hhalted]
    rw [exec_scrubberVote, onEvent_holds _ hen]
    refine ⟨fun hxy hyz => ?_, fun hxz htwo => ?_, fun hxz hxy => ?_, fun hxy hyz hxz => ?_⟩
    · subst hxy hyz
      rw [voteEffect_of_agree]
      simp only [Scrubber.voted_of_agree hx]
    · rw [voteEffect_of_disagree hx hy hz _ _ _ fun h => hxz (h.1.trans h.2)]
      simp only [Scrubber.voted_of_middle hx hy hz _ _ hxz htwo]
    · rw [voteEffect_of_disagree hx hy hz _ _ _ fun h => hxy h.1]
      simp only [Scrubber.voted_of_outer hx hy hz _ _ hxz hxy]
    · rw [voteEffect_of_disagree hx hy hz _ _ _ fun h => hxy h.1]
      simp only [Scrubber.voted_of_differ hx hy hz _ _ hxy hyz hxz]
  · rw [exec_tileScrubKatCmd, onEvent_holds _ (by simp [hrun, htile, hpower, hsrc])]
    rfl
  · rw [exec_tileScrubKatCmd, onEvent_fails _ (by simp [hsrc])]
  · rw [exec_scrubberCheck, onEvent_holds _ (by simp [hworvis, htile, hpower, hhandover, hdue]), scrubCheckEffect_of_still _ hstill]
  · have hen : (s.dev.worvis && s.dev.kinds[st] == .darkRemount && (s.dev.ym.hist[st]).testedAt + day ≤ s.dev.now) = true := by
      rw [hworvis, hdark, decide_eq_true hdue]
      rfl
    rw [exec_remountSelfTest, exec_remountSelfTest, onEvent_holds _ hen, onEvent_holds _ hen]
    exact ⟨rfl, rfl⟩

end Sys2Proof.Machine
end

section
/-!
PROOFS. A hitch's members and its lead (R304, R305, R359): who hears a message, one rule per message, and the statement about them.
-/
namespace Sys2Proof.Machine

/-! ### Who hears a message (R358, R359) -/

section
variable {s : State} {q : Nat} {here en : Dev → Bool}

/-- A message that is heard, over a trusted link and where it is expected, has its effect. -/
theorem onHitch_holds (f : Fuse → Dev → Dev) (hhere : here s.dev = true) (hopen : s.dev.hitchOpen q = true)
    (htrust : s.dev.hitchTrusts q = true) (hen : en s.dev = true) : onHitch s q here en f = .next (s.put (f s.fuse s.dev)) := by
  rw [onHitch, onEvent_holds _ (by simp only [hhere, hopen, hen, Bool.or_true, Bool.and_self]), htrust, if_pos rfl]

/-- A message over a link without MGMT_TRUSTED is refused, whether it is expected or not (R359). -/
theorem onHitch_untrusted {n : LinkId} (f : Fuse → Dev → Dev) (hhere : here s.dev = true) (hopen : s.dev.hitchOpen q = true)
    (hlink : s.dev.hitchLink q = some n) (htrust : s.dev.trusted n = false) :
    onHitch s q here en f = .next (s.put ((s.dev.freeFlits n 4).mgmtRefuse [n.val])) := by
  have hstrange : s.dev.hitchTrusts q = false := by simp only [Dev.hitchTrusts, hlink, Option.map_some, htrust, Option.getD_some]
  rw [onHitch, onEvent_holds _ (by simp only [hhere, hopen, hstrange, Bool.not_false, Bool.true_or, Bool.and_self]), hstrange]
  simp only [Bool.false_eq_true, if_false, Dev.tookFrom, hlink, Option.map_some, Option.getD_some]

/-- A message of the lead that a member takes. -/
theorem onMember_holds (f : Fuse → Dev → Dev) (hmember : memberEnabled s.dev = true) (hen : en s.dev = true) :
    onMember s en f = .next (s.put (f s.fuse s.dev)) := by
  simp only [memberEnabled, Bool.and_eq_true] at hmember
  obtain ⟨⟨hrole, hopen⟩, htrust⟩ := hmember
  exact onHitch_holds f hrole hopen htrust hen

/-- A message of a member that the lead takes. -/
theorem onLead_holds (f : Fuse → Dev → Dev) (hrole : s.dev.role = 2) (hmember : s.dev.members.contains q = true)
    (hopen : s.dev.hitchOpen q = true) (htrust : s.dev.hitchTrusts q = true) (hen : en s.dev = true) :
    onLead s q en f = .next (s.put (f s.fuse s.dev)) :=
  onHitch_holds f (by simp only [hrole, hmember, beq_self_eq_true, Bool.and_self]) hopen htrust hen

end

/-! ### Messages of the lead to a member (R304, R305) -/

theorem exec_hitchLoadBegin (slotLen : Nat) (job : Bytes) (s : State) :
    exec (.hitchLoadBegin slotLen job) s = onMember s (fun _ => true) (loadBeginEffect slotLen job) := rfl

theorem exec_hitchLoadData (data : Bytes) (s : State) :
    exec (.hitchLoadData data) s = onMember s (fun d => (d.hitch.map fun h => !h.ended).getD false) fun _ d =>
      { d.tookFrom 0 with hitch := d.hitch.map fun h => { h with data := h.data ++ data } } := rfl

theorem exec_hitchLoadEnd (s : State) :
    exec .hitchLoadEnd s = onMember s (fun d => (d.hitch.map fun h => !h.ended).getD false) loadEndEffect := rfl

theorem exec_hitchCommit (hw : BitVec 16) (s : State) : exec (.hitchCommit hw) s =
    onMember s (fun d => (d.hitch.map fun h => h.verified && !h.committed).getD false) (hitchCommitEffect hw) := rfl

theorem exec_hitchAbort (s : State) :
    exec .hitchAbort s = onMember s (fun d => (d.hitch.map fun h => !h.committed).getD false) fun _ d => (d.tookFrom 0).dropMember :=
  rfl

/-- What REVERT does at a member that has taken it. -/
def hitchRevertEffect (d : Dev) : Dev :=
  match (d.tookFrom 0).hitch with
  | some h => match h.committed, h.pad with
    | true, some k => (d.tookFrom 0).revertMember k
    | _, _ => d.tookFrom 0
  | none => d.tookFrom 0

theorem exec_hitchRevert (s : State) : exec .hitchRevert s = onMember s (fun _ => true) fun _ => hitchRevertEffect := rfl

/-- What RELEASE does at a member that has taken it. -/
def hitchReleaseEffect (d : Dev) : Dev :=
  match (d.tookFrom 0).hitch with
  | some h => match h.committed, h.pad with
    | true, some k =>
      { ((d.tookFrom 0).forSites ((((d.tookFrom 0).pad k).map (·.sites)).getD []) Tile.shadowEmpty).modPad k
          fun p => { p with retained := none } with hitch := none }
    | _, _ => d.tookFrom 0
  | none => d.tookFrom 0

theorem exec_hitchRelease (s : State) : exec .hitchRelease s = onMember s (fun _ => true) fun _ => hitchReleaseEffect := rfl

/-- Every message of the lead to a member is one under `onMember`. -/
theorem exec_toMember {i : Instr} {slotLen : Nat} {job data : Bytes} {hw : BitVec 16}
    (h : i ∈ [.hitchLoadBegin slotLen job, .hitchLoadData data, .hitchLoadEnd, .hitchCommit hw, .hitchAbort, .hitchRevert,
      .hitchRelease]) (s : State) : ∃ en f, exec i s = onMember s en f := by
  simp only [List.mem_cons, List.not_mem_nil, or_false] at h
  rcases h with rfl | rfl | rfl | rfl | rfl | rfl | rfl
  · exact ⟨_, _, exec_hitchLoadBegin slotLen job s⟩
  · exact ⟨_, _, exec_hitchLoadData data s⟩
  · exact ⟨_, _, exec_hitchLoadEnd s⟩
  · exact ⟨_, _, exec_hitchCommit hw s⟩
  · exact ⟨_, _, exec_hitchAbort s⟩
  · exact ⟨_, _, exec_hitchRevert s⟩
  · exact ⟨_, _, exec_hitchRelease s⟩

section
variable {d : Dev} {h : HitchLoad} {k : PadId} {fz : Fuse}

theorem loadBeginEffect_of_free {n : PadId} (slotLen : Nat) (job : Bytes) (hfree : (d.tookFrom 0).dropMember.loadPad = some n) :
    loadBeginEffect slotLen job fz d =
      { (((d.tookFrom 0).dropMember).startLoad n).modPad n fun p => { p with state := .loading } with
        hitch := some { jobId := padTo 32 job, pad := some n, slotLen := slotLen } } := by
  delta loadBeginEffect
  simp only [hfree]

@[simp] theorem Dev.tookFrom_lofts (d : Dev) (q : Nat) : (d.tookFrom q).lofts = d.lofts := by
  unfold Dev.tookFrom
  split <;> rfl

@[simp] theorem Dev.sendHitch_lofts (d : Dev) (q : Nat) (m : HitchMsg) (job : Bytes) (code : Nat) (data : Bytes) :
    (d.sendHitch q m job code data).lofts = d.lofts :=
  Dev.sendHitch_keeps (·.lofts) (fun _ _ _ => Dev.carry_lofts ..) d q m job code data

@[simp] theorem Dev.forSites_lofts (d : Dev) (ss : List SiteId) (f : Tile → Tile) : (d.forSites ss f).lofts = d.lofts :=
  foldl_keeps (·.lofts) (fun e s => e.modTile_lofts s f) ss d

/-- The banks of a sub-image that has passed, staged tile by tile. -/
def Dev.stageBanks (d : Dev) (k : PadId) (img : Bytes) (bodies : List (Nat × Bytes)) : Dev :=
  (List.range (imTiles img)).foldl (fun d n => match d.tileSite k n with
    | some s => d.stageBank s fun _ => imBank img bodies n
    | none => d) d

theorem Dev.stageBanks_lofts (d : Dev) (k : PadId) (img : Bytes) (bodies : List (Nat × Bytes)) :
    (d.stageBanks k img bodies).lofts = d.lofts := by
  refine foldl_keeps (·.lofts) (fun e n => ?_) _ d
  split <;> rfl

section
variable (hhitch : (d.tookFrom 0).hitch = some h) (hpad : h.pad = some k)
include hhitch hpad

/-- A sub-image that fails is dropped, and its failure is the answer. -/
theorem loadEndEffect_of_error {c : Nat} (hfails : (d.tookFrom 0).checkWhole fz k h.slotLen h.data = .error c) :
    loadEndEffect fz d =
      { ((d.tookFrom 0).dropShadow k).sendHitch 0 .verified h.jobId c [] with hitch := some { h with ended := true } } := by
  simp only [loadEndEffect, hhitch, hpad, hfails]

/-- A sub-image that passes is staged and VERIFIED. -/
theorem loadEndEffect_of_ok {bodies : List (Nat × Bytes)} {pass : List (SiteId × Nat)}
    (hpasses : (d.tookFrom 0).checkWhole fz k h.slotLen h.data = .ok (bodies, pass)) :
    loadEndEffect fz d = { (((d.tookFrom 0).stageBanks k h.data bodies).forSites ((((d.tookFrom 0).pad k).map (·.sites)).getD [])
      fun t => { t with ctl := t.ctl.setShadow 2 }).sendHitch 0 .verified h.jobId 0 [] with
        hitch := some { h with ended := true, verified := true } } := by
  simp only [loadEndEffect, hhitch, hpad, hpasses]
  rfl

/-- A COMMIT of a sub-image that passes: COMMITTED is the answer where no hardware error takes the image back. -/
theorem hitchCommitEffect_of_ok {bodies : List (Nat × Bytes)} {pass : List (SiteId × Nat)} (hw : BitVec 16)
    (hpasses : (d.tookFrom 0).checkWhole fz k h.slotLen h.data = .ok (bodies, pass)) :
    hitchCommitEffect hw fz d =
      let c := ((d.tookFrom 0).commitImage k { imInfo h.data bodies pass with key := (imKey fz h.data).getD [] }).leaveLoading k
      if hw != 0#16 then { (c.revertImage k).leaveLoading k with hitch := none }
      else { c.sendHitch 0 .committed h.jobId 0 [] with hitch := some { h with committed := true } } := by
  simp only [hitchCommitEffect, hhitch, hpad, hpasses]

theorem hitchRevertEffect_of_committed (hcommitted : h.committed = true) :
    hitchRevertEffect d = (d.tookFrom 0).revertMember k := by
  simp only [hitchRevertEffect, hhitch, hpad, hcommitted]

theorem hitchReleaseEffect_of_committed (hcommitted : h.committed = true) : hitchReleaseEffect d =
    { ((d.tookFrom 0).forSites ((((d.tookFrom 0).pad k).map (·.sites)).getD []) Tile.shadowEmpty).modPad k
        fun p => { p with retained := none } with hitch := none } := by
  simp only [hitchReleaseEffect, hhitch, hpad, hcommitted]

omit hpad in
theorem hitchRevertEffect_of_uncommitted (hcommitted : h.committed = false) : hitchRevertEffect d = d.tookFrom 0 := by
  simp only [hitchRevertEffect, hhitch, hcommitted]

omit hpad in
theorem hitchReleaseEffect_of_uncommitted (hcommitted : h.committed = false) : hitchReleaseEffect d = d.tookFrom 0 := by
  simp only [hitchReleaseEffect, hhitch, hcommitted]

end

end

/-! ### Messages of a member to the lead, and the two time limits (R305) -/

theorem exec_hitchVerified (pos : Nat) (job : Bytes) (code : BitVec 16) (s : State) :
    exec (.hitchVerified pos job code) s = onLead s pos (leadWaits false) (verifiedEffect pos job code) := rfl

theorem exec_hitchCommitted (pos : Nat) (s : State) :
    exec (.hitchCommitted pos) s = onLead s pos (leadWaits true) (committedEffect pos) := rfl

theorem exec_hitchVerifiedTimeout (s : State) :
    exec .hitchVerifiedTimeout s = onEvent s verifiedLate fun _ d => match d.leadLoad with
      | some l => d.failHitch l.op 0x5009 (d.lateVerified.getD 0)
      | none => d := rfl

theorem exec_hitchCommittedTimeout (s : State) :
    exec .hitchCommittedTimeout s = onEvent s committedLate committedTimeoutEffect := rfl

/-- Every message of a member to the lead is one under `onLead`. -/
theorem exec_toLead {i : Instr} {q : Nat} {job : Bytes} {code : BitVec 16}
    (h : i ∈ [.hitchVerified q job code, .hitchCommitted q]) (s : State) : ∃ en f, exec i s = onLead s q en f := by
  simp only [List.mem_cons, List.not_mem_nil, or_false] at h
  rcases h with rfl | rfl
  · exact ⟨_, _, exec_hitchVerified q job code s⟩
  · exact ⟨_, _, exec_hitchCommitted q s⟩

section
variable {d : Dev} {pos : Nat} {l : ImageLoad} {h : HitchLoad} {fz : Fuse} (hload : (d.tookFrom pos).leadLoad = some l)
  (hhitch : (d.tookFrom pos).hitch = some h)
include hload hhitch

/-- VERIFIED: a failure comes first, then another job; any other report is noted. -/
theorem verifiedEffect_eq (job : Bytes) (code : BitVec 16) : verifiedEffect pos job code fz d =
    if code != 0#16 then (d.tookFrom pos).failHitch l.op code.toNat pos
    else if job != h.jobId then (d.tookFrom pos).failHitch l.op 0x5009 pos
    else { d.tookFrom pos with hitch := some { h with peersVerified := insertNat pos h.peersVerified } } := by
  simp only [verifiedEffect, hload, hhitch]

/-- COMMITTED: the last one ends the load, any other is noted. -/
theorem committedEffect_eq : committedEffect pos fz d =
    if (d.tookFrom pos).members.all (insertNat pos h.peersCommitted).contains then
      { ((d.tookFrom pos).tellMembers .release h.jobId).loadDone l.op l with hitch := none, hitchFailed := false }
    else { d.tookFrom pos with hitch := some { h with peersCommitted := insertNat pos h.peersCommitted } } := by
  simp only [committedEffect, hload, hhitch]

end

theorem committedTimeoutEffect_of_lead {d : Dev} {l : ImageLoad} {h : HitchLoad} (fz : Fuse) (hload : d.leadLoad = some l)
    (hhitch : d.hitch = some h) :
    committedTimeoutEffect fz d =
      let e := (d.tellMembers .revert h.jobId).revertImage l.pad
      { e with hitch := none }.failHitch l.op 0x5009 ((e.members.find? fun q => !h.peersCommitted.contains q).getD 0) := by
  simp only [committedTimeoutEffect, hload, hhitch]

/-- Settles O30: trust decides whether a message is heard, and what stands staged, or what the load waits for, decides its effect. -/
theorem hitchMembersFollowTheLead : Obligations.HitchMembersFollowTheLead := by
  unfold Obligations.HitchMembersFollowTheLead
  refine ⟨fun slotLen job data hw k s hmember => ?_, fun pos job code l h s => ?_,
    fun i q slotLen job data code hw n s hlink hopen htrust hi => ?_⟩
  · intro d fz
    refine ⟨fun n hfree => ?_, fun h hh hended => ?_, fun h c hhitch hh hended hpad hfails => ?_,
      fun h r hhitch hh hended hpad hpasses => ?_, fun h bodies pass hhitch hh hverified hcommitted hpad hpasses => ?_,
      fun h hh hcommitted => ?_, fun h hhitch hpad => ⟨fun hcommitted => ⟨?_, ?_⟩, fun hcommitted => ⟨?_, ?_⟩⟩⟩
    · rw [exec_hitchLoadBegin, onMember_holds _ hmember rfl, loadBeginEffect_of_free _ _ hfree]
    · rw [exec_hitchLoadData, onMember_holds _ hmember (by simp [hh, hended]), hh, Option.map_some]
    · rw [exec_hitchLoadEnd, onMember_holds _ hmember (by simp [hh, hended]), loadEndEffect_of_error hhitch hpad hfails]
    · refine ⟨loadEndEffect s.fuse s.dev, ?_, ?_⟩
      · rw [exec_hitchLoadEnd, onMember_holds _ hmember (by simp [hh, hended])]
      · rw [loadEndEffect_of_ok hhitch hpad hpasses]
        refine ⟨rfl, ?_⟩
        rw [Dev.sendHitch_lofts, Dev.forSites_lofts, Dev.stageBanks_lofts, Dev.tookFrom_lofts]
    · have hen : ((s.dev.hitch.map fun h => h.verified && !h.committed).getD false) = true := by simp [hh, hverified, hcommitted]
      rw [exec_hitchCommit, onMember_holds _ hmember hen, hitchCommitEffect_of_ok hhitch hpad hw hpasses]
      exact ⟨fun hfine => by rw [if_neg (by simp [hfine])], fun herror => by rw [if_pos (by simp [herror])]⟩
    · rw [exec_hitchAbort, onMember_holds _ hmember (by simp [hh, hcommitted])]
    · rw [exec_hitchRevert, onMember_holds _ hmember rfl, hitchRevertEffect_of_committed hhitch hpad hcommitted]
    · rw [exec_hitchRelease, onMember_holds _ hmember rfl, hitchReleaseEffect_of_committed hhitch hpad hcommitted]
    · rw [exec_hitchRevert, onMember_holds _ hmember rfl, hitchRevertEffect_of_uncommitted hhitch hcommitted]
    · rw [exec_hitchRelease, onMember_holds _ hmember rfl, hitchReleaseEffect_of_uncommitted hhitch hcommitted]
  · intro d hload hhitch hears
    refine ⟨?_, ?_, ?_, ?_⟩
    · rintro hwaits ⟨hrole, hpos, hopen, htrust⟩
      rw [exec_hitchVerified, onLead_holds _ hrole hpos hopen htrust hwaits, verifiedEffect_eq hload hhitch]
      refine ⟨fun hfine hjob => ?_, fun hfails => ?_, fun hfine hjob => ?_⟩
      · rw [if_neg (by simp [hfine]), if_neg (by simp [hjob])]
      · rw [if_pos (by simp [hfails])]
      · rw [if_neg (by simp [hfine]), if_pos (by simp [hjob])]
    · rintro hwaits ⟨hrole, hpos, hopen, htrust⟩
      rw [exec_hitchCommitted, onLead_holds _ hrole hpos hopen htrust hwaits, committedEffect_eq hload hhitch]
      exact ⟨fun hall => by rw [if_pos hall], fun hsome => by rw [if_neg (Bool.eq_false_iff.1 hsome)]⟩
    · intro hlate hlead
      rw [exec_hitchVerifiedTimeout, onEvent_holds _ hlate, hlead]
    · intro hlate hlead hwaiting
      rw [exec_hitchCommittedTimeout, onEvent_holds _ hlate, committedTimeoutEffect_of_lead _ hlead hwaiting]
  · rcases hi with ⟨hrole, rfl, hi⟩ | ⟨hrole, hpos, hi⟩
    · obtain ⟨en, f, hexec⟩ := exec_toMember hi s
      rw [hexec]
      exact onHitch_untrusted f (beq_iff_eq.2 hrole) hopen hlink htrust
    · obtain ⟨en, f, hexec⟩ := exec_toLead hi s
      rw [hexec]
      exact onHitch_untrusted f (by simp only [hrole, hpos, beq_self_eq_true, Bool.and_self]) hopen hlink htrust

end Sys2Proof.Machine
end

section
/-!
PROOFS. The load of an image (R298 to R302): one rule per check, the end of a load, and the statement about them.
-/
namespace Sys2Proof.Machine

/-! ### The load under check (R298) -/

theorem withLoad_of_some {slot : Fin 64} {d : Dev} {l : ImageLoad} (f : ImageLoad → Dev → Dev) (h : d.loadOf slot = some l) :
    withLoad slot f d = f l d := by
  simp only [withLoad, h]

/-- A load that proceeds is the operation's load. -/
theorem Dev.loading_eq_some {slot : Fin 64} {d : Dev} {l : ImageLoad} (h : d.loading slot = some l) : d.loadOf slot = some l := by
  unfold Dev.loading at h
  dsimp only at h
  split at h
  · obtain ⟨q, hq, hql⟩ := Option.bind_eq_some_iff.1 h
    split at hql
    · cases hql
    · cases hql
      exact hq
  · cases h

theorem exec_loadHeaderCheck (slot : Fin 64) (s : State) :
    exec (.loadHeaderCheck slot) s = onEvent s (loadEnabled slot fun _ => (1, 0)) (headerEffect slot) := rfl

theorem exec_sectionTableCheck (slot : Fin 64) (s : State) :
    exec (.sectionTableCheck slot) s = onEvent s (loadEnabled slot fun _ => (2, 256)) (tableEffect slot) := rfl

theorem exec_wrappedKeyCheck (slot : Fin 64) (s : State) :
    exec (.wrappedKeyCheck slot) s = onEvent s (loadEnabled slot fun l => (3, keyOff l.img)) (wrappedKeyEffect slot) := rfl

theorem exec_signatureCheck (slot : Fin 64) (s : State) :
    exec (.signatureCheck slot) s = onEvent s (loadEnabled slot fun _ => (1, 32)) (signatureEffect slot) := rfl

theorem exec_bodyCheck (slot : Fin 64) (n : Nat) (s : State) :
    exec (.bodyCheck slot n) s =
      onEvent s (loadEnabled slot fun l => (5, if n < imSections l.img then (secOf l.img n).off else 0)) (bodyEffect slot n) := rfl

theorem exec_tileCheck (slot : Fin 64) (n : Nat) (s : State) :
    exec (.tileCheck slot n) s = onEvent s (loadEnabled slot fun _ => (6, n)) (tileCheckEffect slot n) := rfl

theorem exec_imageCheck (slot : Fin 64) (s : State) :
    exec (.imageCheck slot) s = onEvent s (loadEnabled slot fun _ => (7, 0)) (imageCheckEffect slot) := rfl

/-! ### What the checks find (R298, R300, R301, R303) -/

/-- Failures of the container's header, where the load is a lead's. -/
def ImageLoad.conFails (l : ImageLoad) : List (Nat × Nat) := if l.hitch then containerFails l.count l.bytes l.data else []

/-- All that stage 1 can name: the container's failures, the header's own, and a lead's place in its hitch. -/
def Dev.headFails (d : Dev) (fz : Fuse) (l : ImageLoad) : List (Nat × Nat) :=
  l.conFails ++ headerFails (d.headerEnv fz l.pad l.imgBytes) l.img ++
    (if l.hitch then failAt (subHeaderOk d.hitchSize 0 (imJob l.img) l.img) 36 0x5009 else [])

/-- A write of the configuration port stages into a shadow bank and leaves the tile's control block. -/
theorem Dev.stageBank_ctl (d : Dev) (s t : SiteId) (f : Bank → Bank) : ((d.stageBank s f).tile t).ctl = (d.tile t).ctl := by
  by_cases h : t = s
  · rw [h, Dev.stageBank, Dev.modTile_tile]
  · rw [Dev.stageBank, Dev.modTile_tile_ne _ _ _ _ h]

theorem Dev.stageBank_padStriped (d : Dev) (s : SiteId) (f : Bank → Bank) (k : PadId) :
    (d.stageBank s f).padStriped k = d.padStriped k := by
  unfold Dev.padStriped
  rw [show (d.stageBank s f).pad k = d.pad k from rfl]
  split
  · rw [Dev.stageBank_ctl]
  · rfl

section
variable {slot : Fin 64} {d : Dev} {l : ImageLoad} {fz : Fuse} (hload : d.loadOf slot = some l)
include hload

theorem headerEffect_eq : headerEffect slot fz d =
    ((if l.hitch && (lowest (d.headFails fz l)).isNone then { d with hitch := some { jobId := imJob l.img } } else d).checked slot 1
      (if l.conFails.isEmpty then lowest (d.headFails fz l) else lowest l.conFails) fun l => { l with passed := 1 :: l.passed }).passOn
        slot := by
  rw [headerEffect, withLoad_of_some _ hload]
  rfl

/-- Stage 1 of a lead whose header passes opens the hitch's load. -/
theorem headerEffect_of_lead (hhitch : l.hitch = true) (hpasses : lowest (d.headFails fz l) = none) :
    headerEffect slot fz d =
      ({ d with hitch := some { jobId := imJob l.img } }.checked slot 1 (if l.conFails.isEmpty then none else lowest l.conFails)
        fun l => { l with passed := 1 :: l.passed }).passOn slot := by
  rw [headerEffect_eq hload, hpasses, if_pos (by rw [hhitch]; rfl)]

/-- Any other stage 1 records what it finds. -/
theorem headerEffect_of_not_lead (h : ¬ (l.hitch = true ∧ lowest (d.headFails fz l) = none)) :
    headerEffect slot fz d =
      (d.checked slot 1 (if l.conFails.isEmpty then lowest (d.headFails fz l) else lowest l.conFails)
        fun l => { l with passed := 1 :: l.passed }).passOn slot := by
  rw [headerEffect_eq hload, if_neg (by rwa [Bool.and_eq_true, Option.isNone_iff_eq_none])]

/-- A body that fails leaves its place empty. -/
theorem bodyEffect_of_error {n c : Nat} (hbody : bodyCheckOf l.img l.imageKey n = .error c) : bodyEffect slot n fz d =
    d.checked slot 5 (some ((secOf l.img n).off, c)) fun l => { l with bodies := setKey n [] l.bodies } := by
  simp only [bodyEffect, withLoad_of_some _ hload, hbody]

/-- A body of the whole image, or of a tile that no site holds, is kept and staged nowhere. -/
theorem bodyEffect_of_unplaced {n : Nat} {b : Bytes} (hbody : bodyCheckOf l.img l.imageKey n = .ok b)
    (hplace : d.tileSite l.pad (secOf l.img n).tile = none ∨ 0x10 ≤ (secOf l.img n).kind) : bodyEffect slot n fz d =
      d.checked slot 5 none fun l => { l with bodies := setKey n b l.bodies } := by
  simp only [bodyEffect, withLoad_of_some _ hload, hbody]
  rcases hplace with hnone | hkind
  · simp only [hnone]
  · simp only [Nat.not_lt.2 hkind, if_false]
    split <;> rfl

/-- A body of a tile goes through that tile's configuration port. -/
theorem bodyEffect_of_placed {n : Nat} {b : Bytes} {site : SiteId} (hbody : bodyCheckOf l.img l.imageKey n = .ok b)
    (hsite : d.tileSite l.pad (secOf l.img n).tile = some site) (hkind : (secOf l.img n).kind < 0x10) : bodyEffect slot n fz d =
      (d.stageBank site fun k => k.put (secOf l.img n).kind (secOf l.img n).idx b).checked slot 5 none
        fun l => { l with bodies := setKey n b l.bodies } := by
  simp only [bodyEffect, withLoad_of_some _ hload, hbody, hsite, hkind, if_true]

theorem tileCheckEffect_of_site {n : Nat} {site : SiteId} (hsite : d.tileSite l.pad n = some site) : tileCheckEffect slot n fz d =
    (d.stageBank site fun _ => imBank l.img l.bodies n).checked slot 6
      (if (imBank l.img l.bodies n).tileOk (d.padStriped l.pad) then none else some (n, 0x5003))
      fun l => { l with tiles := insertNat n l.tiles } := by
  simp only [tileCheckEffect, withLoad_of_some _ hload, hsite, Dev.stageBank_padStriped]

theorem imageCheckEffect_of_error {c : Nat} (hfits : d.imageFits l.pad l.img l.bodies = .error c) : imageCheckEffect slot fz d =
    d.checked slot 7 (some (0, c)) fun l => { l with passed := 7 :: l.passed } := by
  simp only [imageCheckEffect, withLoad_of_some _ hload, hfits]

theorem imageCheckEffect_of_ok {pass : List (SiteId × Nat)} (hfits : d.imageFits l.pad l.img l.bodies = .ok pass) :
    imageCheckEffect slot fz d =
      let e := (d.forSites (((d.pad l.pad).map (·.sites)).getD []) fun t => { t with ctl := t.ctl.setShadow 2 }).checked slot 7 none
        fun l => { l with passed := 7 :: l.passed }
      if l.hitch then { e with hitch := e.hitch.map fun h => { h with verified := true } } else e := by
  simp only [imageCheckEffect, withLoad_of_some _ hload, hfits]

/-! ### The end of a load (R299, R302) -/

/-- With a failure recorded no commit is due. -/
theorem commitEnabled_of_failure (hfailure : l.failure.isSome = true) : commitEnabled slot d = false := by
  unfold commitEnabled
  split
  · rename_i q hq
    obtain rfl : q = l := Option.some.inj ((Dev.loading_eq_some hq).symm.trans hload)
    rw [← Option.not_isSome, hfailure]
    rfl
  · rfl

/-- A commit of an image that fits: taken back on a hardware error, left to the members at a lead, done otherwise. -/
theorem imageCommitEffect_of_ok {pass : List (SiteId × Nat)} (hw : BitVec 16)
    (hfits : d.imageFits l.pad l.img l.bodies = .ok pass) : imageCommitEffect slot hw fz d =
      let im := d.commitImage l.pad { imInfo l.img l.bodies pass with key := l.imageKey.getD [] }
      if hw != 0#16 then
        ((im.revertImage l.pad).modLoad slot fun l => { l with committing := true }).endLoad slot .failed hw.toNat
      else if l.hitch then
        let e := (im.modLoad slot fun l => { l with committing := true }).tellMembers .commit (imJob l.img)
        { e with hitch := e.hitch.map fun h => { h with committed := true, since := e.now } }
      else im.loadDone slot l := by
  simp only [imageCommitEffect, withLoad_of_some _ hload, hfits]

end

theorem exec_imageDeliveryEnd (slot : Fin 64) (s : State) :
    exec (.imageDeliveryEnd slot) s = onEvent s (endsEarly slot) fun _ d => d.endLoad slot .failed 0x5001 := rfl

theorem exec_imageCommit (slot : Fin 64) (hw : BitVec 16) (s : State) :
    exec (.imageCommit slot hw) s = onEvent s (commitEnabled slot) (imageCommitEffect slot hw) := rfl

/-- Settles O29: a check that is due has its effect on the operation's load, and what it finds, or the hardware's error at the commit,
decides which. -/
theorem loadChecksThenCommitsOrReverts : Obligations.LoadChecksThenCommitsOrReverts := by
  unfold Obligations.LoadChecksThenCommitsOrReverts
  refine ⟨fun slot l n s hload => ?_, fun slot l hw pass s hload => ?_⟩
  · intro d con own lead
    refine ⟨fun hen hlead => ?_, fun hen hlead => ?_, fun hen => ?_, fun hen => ?_, fun hen => ?_, fun hen => ?_,
      fun c hen hbody => ?_, fun b hen hbody => ⟨fun hplace => ?_, fun site hsite hkind => ?_⟩, fun site hen hsite => ?_,
      fun c hen hfits => ?_, fun pass hen hfits => ?_⟩
    · rw [exec_loadHeaderCheck, onEvent_holds _ hen, headerEffect_of_not_lead hload hlead]
      rfl
    · rw [exec_loadHeaderCheck, onEvent_holds _ hen, headerEffect_of_lead hload hlead.1 hlead.2]
      rfl
    · rw [exec_loadHeaderCheck, onEvent_fails _ hen]
    · rw [exec_sectionTableCheck, onEvent_holds _ hen, tableEffect, withLoad_of_some _ hload]
    · rw [exec_wrappedKeyCheck, onEvent_holds _ hen, wrappedKeyEffect, withLoad_of_some _ hload]
    · rw [exec_signatureCheck, onEvent_holds _ hen, signatureEffect, withLoad_of_some _ hload]
    · rw [exec_bodyCheck, onEvent_holds _ hen, bodyEffect_of_error hload hbody]
    · rw [exec_bodyCheck, onEvent_holds _ hen, bodyEffect_of_unplaced hload hbody hplace]
    · rw [exec_bodyCheck, onEvent_holds _ hen, bodyEffect_of_placed hload hbody hsite hkind]
      rfl
    · rw [exec_tileCheck, onEvent_holds _ hen, tileCheckEffect_of_site hload hsite]
      rfl
    · rw [exec_imageCheck, onEvent_holds _ hen, imageCheckEffect_of_error hload hfits]
    · rw [exec_imageCheck, onEvent_holds _ hen, imageCheckEffect_of_ok hload hfits]
  · intro d im
    refine ⟨fun hen => ?_, fun hfailure => ?_, fun hen hfits hhitch hw => ?_, fun hen hfits hhitch hw => ?_, fun hen hfits hw => ?_⟩
    · rw [exec_imageDeliveryEnd, onEvent_holds _ hen]
    · rw [exec_imageCommit, onEvent_fails _ (commitEnabled_of_failure hload hfailure)]
    · rw [exec_imageCommit, onEvent_holds _ hen, imageCommitEffect_of_ok hload _ hfits, hw, hhitch]
      rfl
    · rw [exec_imageCommit, onEvent_holds _ hen, imageCommitEffect_of_ok hload _ hfits, hw, hhitch]
      rfl
    · rw [exec_imageCommit, onEvent_holds _ hen, imageCommitEffect_of_ok hload _ hfits, if_pos (bne_iff_ne.2 hw)]

end Sys2Proof.Machine
end

section
/-!
PROOFS. Routers and the seam (R323 to R327, R331, R503): what a router makes of a packet by its error check, where a branch takes it,
what the failure of the device leaves alone, the retirement of a seam link, and the statement about them.
-/
namespace Sys2Proof.Machine

/-! ### Forwarding (R323 to R327, R331) -/

theorem exec_routerForward (st : SiteId) (n : Nat) (ecc : FlitEcc) (s : State) :
    exec (.routerForward st n ecc) s = onEvent s (forwardEnabled st n) fun _ => forwardEffect st n ecc := rfl

section
variable {st : SiteId} {n : Nat} {p : MeshPkt} {d : Dev} (hpkt : (d.atRouter st)[n]? = some p)
include hpkt

/-- A packet with an uncorrectable word in its payload or its header begins to leave and is discarded. -/
theorem forwardEffect_of_badPayload : forwardEffect st n .badPayload d = (d.beginLeave p).flitBad p false := by
  simp only [forwardEffect, hpkt]

theorem forwardEffect_of_badHeader : forwardEffect st n .badHeader d = (d.beginLeave p).flitBad p true := by
  simp only [forwardEffect, hpkt]

/-- A readable packet takes the branches that it has as it stands in its buffer, once its corrected words have been counted and, at
high priority, its wait noted. -/
theorem forwardEffect_of_fine (words : Fin 529) : forwardEffect st n (.fine words) d =
    (d.branches p).foldl (fun d b => d.branch p b) ((d.beginLeave p).modTile st fun t => { t with router := { t.router with
      ce := t.router.ce.add d.now words.val
      hiWait := if p.prio then t.router.hiWait.note d.now (d.now - p.since) else t.router.hiWait } }) := by
  simp only [forwardEffect, hpkt]
  rfl

end

/-- The device in which an output of the packet's router sends the packet's flits. -/
def Dev.sending (d : Dev) (p : MeshPkt) (o : Nat) : Dev :=
  d.modTile p.at_ fun t => { t with router := { t.router with outs := vmodN t.router.outs o fun r => r.grant p d.now } }

/-- A branch with an exit at this router takes the packet out of the mesh. -/
theorem Dev.branch_of_exit (d : Dev) {p : MeshPkt} {l : List SiteId} (o : Nat) (h : p.at_ ∈ l) :
    d.branch p (o, l) = { d.sending p o with landing := (d.sending p o).landing ++ [(d.now + 6 + (p.flits - 1), p)] } := by
  have hleaves : p.leaves l = true := List.contains_iff_mem.2 h
  simp only [Dev.branch, hleaves, if_true]
  rfl

/-- Any other branch takes it into the next router's buffer. -/
theorem Dev.branch_of_pass (d : Dev) {p : MeshPkt} {l : List SiteId} (o : Nat) (h : p.at_ ∉ l) :
    d.branch p (o, l) = (d.sending p o).join
      { p with at_ := meshNext p.at_ o, dests := if p.pr.isSome then p.dests else l, inPort := inAt o }
      (d.now + (if 8 ≤ o then 6 else 4)) := by
  have hleaves : p.leaves l = false := Bool.eq_false_iff.2 fun hin => h (List.contains_iff_mem.1 hin)
  simp only [Dev.branch, hleaves, Bool.false_eq_true, if_false]
  rfl

/-! ### What the summary of health and the stop of a paddock leave alone (R41, R501) -/

/-- What no stop of a paddock reaches: the seam, the lofts, and whether the device has failed. -/
def Dev.unstopped (d : Dev) : Vector (BitVec 4) 6 × Vector Loft 48 × Bool := (d.seam, d.lofts, d.ym.failed)

/-- The summary of health reaches none of these either, and no tile. -/
theorem Dev.health_tiles_unstopped (d : Dev) : d.health.tiles = d.tiles ∧ d.health.unstopped = d.unstopped := by
  unfold Dev.health
  extract_lets deg newDeg noted posted newRep marked alerted
  have hposted : posted.tiles = d.tiles ∧ posted.unstopped = d.unstopped := by
    unfold posted
    split <;> exact ⟨rfl, rfl⟩
  clear_value posted
  split <;> exact hposted

@[simp] theorem Dev.forSites_unstopped (d : Dev) (ss : List SiteId) (f : Tile → Tile) : (d.forSites ss f).unstopped = d.unstopped :=
  foldl_keeps (·.unstopped) (g := fun e s => e.modTile s f) (fun _ _ => rfl) ss d

@[simp] theorem Dev.faultEvent_unstopped (d : Dev) (k : PadId) (owner : Nat) (f : FaultInfo) :
    (d.faultEvent k owner f).unstopped = d.unstopped := by
  unfold Dev.faultEvent
  dsimp only
  split <;> rfl

@[simp] theorem Dev.endOp_unstopped (d : Dev) (i : Option (Fin 64)) (st : OpState) (code : Nat) :
    (d.endOp i st code).unstopped = d.unstopped := by
  unfold Dev.endOp
  split
  · split
    · unfold Dev.setOp
      dsimp only
      split <;> rfl
    · rfl
  · rfl

theorem Dev.settle_unstopped (d : Dev) (k : PadId) : (d.settle k).unstopped = d.unstopped := by
  unfold Dev.settle
  split
  · rfl
  split
  · rfl
  · extract_lets old g due reported rec_ code stopped
    clear_value g
    have hreported : reported.unstopped = d.unstopped := by
      unfold reported
      split
      · exact Dev.faultEvent_unstopped ..
      · rfl
    rw [Dev.endOp_unstopped, Dev.forSites_unstopped]
    exact hreported

/-- A device that fails keeps its seam and its lofts, and has failed (R502). -/
theorem Dev.fail_unstopped (d : Dev) : d.fail.unstopped = (d.seam, d.lofts, true) := by
  unfold Dev.fail
  split
  · next hfailed => rw [Dev.unstopped, hfailed]
  · extract_lets marked stopped posted
    have hstopped : stopped.unstopped = marked.unstopped := foldl_keeps Dev.unstopped (fun e k => by
      split
      · split <;> exact Dev.settle_unstopped ..
      · rfl) (fins 16) marked
    clear_value stopped
    exact (Dev.health_tiles_unstopped _).2.trans hstopped

/-! ### SEAM_LINK_RETIRED (R323, R503) -/

theorem exec_seamLinkRetired (col : Fin 6) (link : Fin 4) (s : State) :
    exec (.seamLinkRetired col link) s = onEvent s (seamEnabled col link) fun _ => seamEffect col link := rfl

/-- A crossing has no links in service exactly when none of its four bits is set. -/
theorem Dev.seamLinks_eq_zero (d : Dev) (col : Fin 6) : d.seamLinks col = 0 ↔ d.seam[col] = 0#4 := by
  simp only [Dev.seamLinks, List.length_eq_zero_iff, List.filter_eq_nil_iff, List.mem_range, Bool.not_eq_true]
  constructor
  · exact fun h => BitVec.eq_of_getLsbD_eq fun i hi => by rw [h i hi, BitVec.getLsbD_zero]
  · intro h i _
    rw [h, BitVec.getLsbD_zero]

/-- The device in which a seam link has been taken out of service, before anything follows from it. -/
def Dev.withoutSeamLink (d : Dev) (col : Fin 6) (link : Fin 4) : Dev :=
  { d with seam := vmod d.seam col fun b => b &&& ~~~ BitVec.ofNat 4 (2 ^ link.val) }

/-- The device in which the retirement of a seam link has been reported, and its health brought up to date. -/
def Dev.seamLinkTold (d : Dev) (col : Fin 6) (link : Fin 4) : Dev :=
  let e := d.withoutSeamLink col link
  (e.post 0 1 (18 + col.val) 0xE00F (payloadE 0 (18 + col.val) 0xFF 3 0xFF link.val (e.seamLinks col))).health

section
variable (d : Dev) (col : Fin 6) (link : Fin 4)

theorem Dev.seamLinkTold_tiles : (d.seamLinkTold col link).tiles = d.tiles := (Dev.health_tiles_unstopped _).1

theorem Dev.seamLinkTold_unstopped : (d.seamLinkTold col link).unstopped = (d.withoutSeamLink col link).unstopped :=
  (Dev.health_tiles_unstopped _).2

/-- The device goes on as it is reported, or fails where the crossing has no link left. -/
theorem seamEffect_eq : seamEffect col link d =
    if (d.withoutSeamLink col link).seam[col] = 0#4 then (d.seamLinkTold col link).fail else d.seamLinkTold col link := by
  have hseam : (d.seamLinkTold col link).seam = (d.withoutSeamLink col link).seam :=
    congrArg Prod.fst (Dev.seamLinkTold_unstopped d col link)
  rw [← hseam]
  simp only [← Dev.seamLinks_eq_zero, seamEffect, beq_iff_eq]
  rfl

/-- Whether or not the device fails by it, its seam is the one without the link, and its lofts are as before. -/
theorem seamEffect_seam_lofts :
    (seamEffect col link d).seam = (d.withoutSeamLink col link).seam ∧ (seamEffect col link d).lofts = d.lofts := by
  have htold := Dev.seamLinkTold_unstopped d col link
  simp only [Dev.unstopped, Prod.mk.injEq] at htold
  obtain ⟨hseam, hlofts, -⟩ := htold
  rw [seamEffect_eq]
  split
  · have hfail := Dev.fail_unstopped (d.seamLinkTold col link)
    simp only [Dev.unstopped, Prod.mk.injEq] at hfail
    obtain ⟨hseam', hlofts', -⟩ := hfail
    exact ⟨hseam'.trans hseam, hlofts'.trans hlofts⟩
  · exact ⟨hseam, hlofts⟩

variable {d col link}

theorem seamEffect_tiles_of_left (hleft : (d.withoutSeamLink col link).seam[col] ≠ 0#4) : (seamEffect col link d).tiles = d.tiles := by
  rw [seamEffect_eq, if_neg hleft, Dev.seamLinkTold_tiles]

theorem seamEffect_failed_of_last (hlast : (d.withoutSeamLink col link).seam[col] = 0#4) :
    (seamEffect col link d).ym.failed = true := by
  rw [seamEffect_eq, if_pos hlast]
  exact congrArg (·.2.2) (Dev.fail_unstopped (d.seamLinkTold col link))

end

/-- Settles O23: of a packet that its outputs grant, the check of its words decides between its branches and its discard, and a branch
ends at the router's endpoint or in the next buffer by its exits; a retired seam link changes its own column, and the device fails by
the last one of a crossing. -/
theorem routerForwardsOrDiscards : Obligations.RouterForwardsOrDiscards := by
  unfold Obligations.RouterForwardsOrDiscards
  intro st n p col link s d left sent
  refine ⟨fun hen hpkt => ⟨?_, ?_, fun words => ?_⟩, fun o l => ⟨d.branch_of_exit o, d.branch_of_pass o⟩, fun hen => ?_⟩
  · rw [exec_routerForward, onEvent_holds _ hen, forwardEffect_of_badPayload hpkt]
  · rw [exec_routerForward, onEvent_holds _ hen, forwardEffect_of_badHeader hpkt]
  · rw [exec_routerForward, onEvent_holds _ hen, forwardEffect_of_fine hpkt]
  · obtain ⟨hseam, hlofts⟩ := seamEffect_seam_lofts d col link
    refine ⟨seamEffect col link d, ?_, ?_, fun col' hne => ?_, hlofts, fun hleft => ?_, fun hlast => ?_⟩
    · rw [exec_seamLinkRetired, onEvent_holds _ hen]
    · rw [hseam]
      exact vmod_same ..
    · rw [hseam]
      exact vmod_other _ _ _ _ hne
    · exact seamEffect_tiles_of_left (hseam ▸ hleft)
    · exact seamEffect_failed_of_last (hseam ▸ hlast)

end Sys2Proof.Machine
end

section
/-!
PROOFS. Training, lanes and alignment of the fabric links (R338, R352, R353): what a codeword of an alignment does, the frame of
the operations that align or retire a lane, and the statement about them.
-/
namespace Sys2Proof.Machine

/-! ### Links of two devices -/

theorem Link.SameButFreed.refl (a : Link) : a.SameButFreed a := rfl

theorem Dev.link_of_links {d e : Dev} (h : e.links = d.links) (m : LinkId) : e.link m = d.link m := congrArg (·[m]) h

theorem Dev.linkEvent_links (d : Dev) (n : LinkId) (code : Nat) (more : List Nat) : (d.linkEvent n code more).links = d.links := rfl

@[simp] theorem Dev.linkEvent_link (d : Dev) (n m : LinkId) (code : Nat) (more : List Nat) :
    (d.linkEvent n code more).link m = d.link m := rfl

@[simp] theorem Dev.linkEvent_now (d : Dev) (n : LinkId) (code : Nat) (more : List Nat) : (d.linkEvent n code more).now = d.now := rfl

@[simp] theorem Dev.modLink_now (d : Dev) (n : LinkId) (f : Link → Link) : (d.modLink n f).now = d.now := rfl

@[simp] theorem Dev.health_link (d : Dev) (m : LinkId) : d.health.link m = d.link m := Dev.link_of_links d.health_links m

@[simp] theorem Dev.reportUp_link (d : Dev) (x : BitVec 64) (m : LinkId) : (d.reportUp x).link m = d.link m :=
  Dev.link_of_links (d.reportUp_links x) m

@[simp] theorem Dev.onLinkUp_link (d : Dev) (x : BitVec 64) (n m : LinkId) : (d.onLinkUp x n).link m = d.link m :=
  Dev.link_of_links (d.onLinkUp_links x n) m

@[simp] theorem Dev.linkDown_link_self (d : Dev) (fz : Fuse) (n : LinkId) :
    (d.linkDown fz n).link n = (d.link n).fresh .down d.now := (d.linkDown_link fz n n).1 rfl

@[simp] theorem Dev.retrain_link_self (d : Dev) (fz : Fuse) (n : LinkId) :
    (d.retrain fz n).link n = (d.link n).retraining d.now :=
  (congrArg (·[n]) (d.retrain_links fz n)).trans (vmod_same ..)

theorem Dev.retrain_link_ne (d : Dev) (fz : Fuse) {n m : LinkId} (h : m ≠ n) : (d.retrain fz n).link m = d.link m :=
  (congrArg (·[m]) (d.retrain_links fz n)).trans (vmod_other _ _ _ _ h)

/-! ### What a change of a link's state keeps -/

/-- From `d` to `e` link `n` keeps its lanes, and another link changes at most in what it counts as freed. -/
structure Dev.KeepsLanes (n : LinkId) (d e : Dev) : Prop where
  lanes : (e.link n).lanes = (d.link n).lanes
  others : ∀ m, m ≠ n → (d.link m).SameButFreed (e.link m)

namespace Dev.KeepsLanes
variable {n : LinkId} {d e f : Dev}

theorem refl (n : LinkId) (d : Dev) : KeepsLanes n d d := ⟨rfl, fun m _ => .refl (d.link m)⟩

theorem trans (h : KeepsLanes n d e) (g : KeepsLanes n e f) : KeepsLanes n d f :=
  ⟨g.lanes.trans h.lanes, fun m hm => (h.others m hm).trans (g.others m hm)⟩

theorem of_links (h : f.links = e.links) (g : KeepsLanes n d e) : KeepsLanes n d f :=
  ⟨by rw [link_of_links h, g.lanes], fun m hm => by rw [link_of_links h]; exact g.others m hm⟩

theorem modLink {g : Link → Link} (h : KeepsLanes n d e) (hg : (g (e.link n)).lanes = (e.link n).lanes) :
    KeepsLanes n d (e.modLink n g) :=
  h.trans ⟨by rw [modLink_link, hg], fun m hm => by rw [modLink_link_ne _ _ _ _ hm]; exact .refl _⟩

theorem reportUp (h : KeepsLanes n d e) (x : BitVec 64) : KeepsLanes n d (e.reportUp x) := of_links (e.reportUp_links x) h

theorem becameUp (h : KeepsLanes n d e) (code : Nat) (more : List Nat) (x : BitVec 64) :
    KeepsLanes n d ((e.linkEvent n code more).onLinkUp x n).health :=
  of_links (health_links _) (of_links (onLinkUp_links ..) (of_links (linkEvent_links ..) h))

theorem linkDown (d : Dev) (fz : Fuse) (n : LinkId) : KeepsLanes n d (d.linkDown fz n) :=
  ⟨by rw [linkDown_link_self]; rfl, fun m => (d.linkDown_link fz n m).2⟩

theorem retrain (d : Dev) (fz : Fuse) (n : LinkId) : KeepsLanes n d (d.retrain fz n) :=
  ⟨by rw [retrain_link_self]; rfl, fun m hm => by rw [d.retrain_link_ne fz hm]; exact .refl _⟩

theorem realign (d : Dev) (fz : Fuse) (n : LinkId) : KeepsLanes n d (d.realign fz n) := by
  unfold Dev.realign
  split
  · exact retrain d fz n
  · exact linkDown d fz n

theorem startHandshake (d : Dev) (fz : Fuse) (n : LinkId) : KeepsLanes n d (d.startHandshake fz n) := by
  have hdraw : KeepsLanes n d d.draw.2 := of_links (e := d) rfl (refl n d)
  unfold Dev.startHandshake
  split
  · exact linkDown d fz n
  · refine reportUp (modLink hdraw ?_) _
    rfl

/-- Alignment leaves the link as it is, ends it, or changes what it knows of its width and its state. -/
theorem checkAlign (d : Dev) (fz : Fuse) (n : LinkId) : KeepsLanes n d (d.checkAlign fz n) := by
  unfold Dev.checkAlign
  dsimp only
  split
  case isTrue => exact linkDown d fz n
  split
  case isTrue => exact refl n d
  split
  case isTrue => exact linkDown d fz n
  split
  case isTrue =>
    refine reportUp (modLink (modLink (refl n d) ?_) ?_) _
    · rfl
    · rfl
  split
  case isTrue =>
    refine becameUp (modLink (modLink (refl n d) ?_) ?_) ..
    · rfl
    · rfl
  case isFalse =>
    refine (modLink (refl n d) ?_).trans (startHandshake _ fz n)
    rfl

end Dev.KeepsLanes

/-! ### ALIGN codewords (R337, R338, R352) -/

theorem exec_pmdTrainingComplete (n : LinkId) (s : State) :
    exec (.pmdTrainingComplete n) s = onEvent s (pmdEnabled n) (pmdEffect n) := rfl

/-- A codeword that may be one of an alignment comes in on a lane of the link. -/
def alignEnabled (n : LinkId) (lane : Fin 8) (fec : FecResult) (h : CwHdr) (d : Dev) : Bool :=
  d.running && (d.link n).hears && lane.val < d.linkLanes n && (fec.isNone || cwMark h != 0)

theorem exec_alignCodeword (n : LinkId) (lane : Fin 8) (fec : FecResult) (h : CwHdr) (payload : Bytes) (s : State) :
    exec (.alignCodeword n lane fec h payload) s =
      onEvent s (alignEnabled n lane fec h) (alignEffect n lane fec h payload) := rfl

/-- An ALIGN codeword that counts: of the right SYNC and MARK, its reserved bytes zero, on a good lane. -/
def Link.AlignGood (l : Link) (lane : Fin 8) (fec : FecResult) (h : CwHdr) (payload : Bytes) : Prop :=
  fec.isSome = true ∧ cwSync h = true ∧ cwMark h = 1 ∧ allZero (payload.drop 2) = true ∧ l.lanes[lane].good = true

/-- The lane and the peer's mask and lanes as the link holds them after a good ALIGN codeword. -/
theorem Link.aligned_eq (l : Link) (lane : Fin 8) (mask width : Byte) : l.aligned lane mask width = { l with
    lanes := vmod l.lanes lane fun x => { x with locked := true }
    alignSeen := if l.peerMask = some mask then l.alignSeen + 1 else 1
    peerMask := some mask, peerWidth := width.toNat } := by
  simp only [aligned, beq_iff_eq]

section
variable {n : LinkId} {lane : Fin 8} {fec : FecResult} {h : CwHdr} {payload : Bytes} {d : Dev} (fz : Fuse)

/-- The device in which the codeword has been counted for its lane. -/
def Dev.cwCounted (d : Dev) (n : LinkId) (lane : Fin 8) (fec : FecResult) (h : CwHdr) : Dev :=
  d.modLink n fun l => l.countFec lane fec h d.now

/-- The device in which a good ALIGN codeword of the payload has been taken. -/
def Dev.alignTaken (d : Dev) (fz : Fuse) (n : LinkId) (lane : Fin 8) (payload : Bytes) : Dev :=
  (d.modLink n fun l => l.aligned lane ((payload[0]?).getD 0#8) ((payload[1]?).getD 0#8)).checkAlign fz n

/-- The test of `alignEffect` is `Link.AlignGood`. -/
theorem Link.alignGood_iff (l : Link) : l.AlignGood lane fec h payload ↔
    ¬ (fec.isNone || !cwSync h || cwMark h != 1 || !allZero (payload.drop 2) || !l.lanes[lane].good) = true := by
  simp [AlignGood, and_assoc, Option.isSome_iff_ne_none]

theorem alignEffect_of_bad (hbad : ¬ (d.link n).AlignGood lane fec h payload) :
    alignEffect n lane fec h payload fz d = d.cwCounted n lane fec h :=
  if_pos (not_not.1 (mt (Link.alignGood_iff _).2 hbad))

variable (hgood : (d.link n).AlignGood lane fec h payload)
include hgood

/-- What a good ALIGN codeword does follows from what the link does. -/
theorem alignEffect_of_good : alignEffect n lane fec h payload fz d =
    if (d.link n).aligning = true then (d.cwCounted n lane fec h).alignTaken fz n lane payload
    else if (d.link n).rxSlot.isSome = true then ((d.cwCounted n lane fec h).retrain fz n).alignTaken fz n lane payload
    else d.cwCounted n lane fec h :=
  if_neg ((Link.alignGood_iff _).1 hgood)

end

/-! ### Lanes that do not lock, retired lanes, and the back-off (R338, R352, R353) -/

theorem exec_laneLockTimeout (n : LinkId) (lane : Fin 8) (s : State) :
    exec (.laneLockTimeout n lane) s = onEvent s (lockLate n lane) (lockTimeoutEffect n lane) := rfl

theorem exec_laneRetire (n : LinkId) (lane : Fin 8) (cause : LaneCause) (s : State) :
    exec (.laneRetire n lane cause) s = onEvent s (retireLaneEnabled n lane cause) (retireLaneEffect n lane cause) := rfl

theorem exec_downRetry (n : LinkId) (s : State) : exec (.downRetry n) s = onEvent s (downRetryEnabled n) (downRetryEffect n) := rfl

/-- The device in which a lane that has not locked is bad, and the mask without it. -/
def Dev.lockFailed (d : Dev) (n : LinkId) (lane : Fin 8) : Dev :=
  let e := d.modLink n fun l => { l with lanes := vmod l.lanes lane fun x => { x with bad := true }, alignSent := 0 }
  e.modLink n fun l => { l with mask := l.goodMask (e.linkLanes n) }

theorem lockTimeoutEffect_eq (n : LinkId) (lane : Fin 8) (fz : Fuse) (d : Dev) :
    lockTimeoutEffect n lane fz d = (d.lockFailed n lane).checkAlign fz n := rfl

theorem Dev.lockFailed_link (d : Dev) (n : LinkId) (lane : Fin 8) : (((d.lockFailed n lane).link n).lanes[lane]).bad = true := by
  simp only [lockFailed, modLink_link, vmod_same]

theorem Dev.lockFailed_link_ne (d : Dev) {n m : LinkId} (lane : Fin 8) (h : m ≠ n) : (d.lockFailed n lane).link m = d.link m := by
  simp only [lockFailed, modLink_link_ne _ _ _ _ h]

/-- The device in which a lane is retired, reported, and left out of the mask. -/
def Dev.laneRetired (d : Dev) (n : LinkId) (lane : Fin 8) (cause : LaneCause) : Dev :=
  let e := d.modLink n fun l => { l with lanes := vmod l.lanes lane fun x => { x with
    retired := true, locked := x.locked && cause != .lostSync } }
  (e.linkEvent n 0x6005 [lane.val, widthOf (d.linkLanes n) ((e.link n).common (d.linkLanes n)).length]).modLink n fun l =>
    { l with mask := l.goodMask (d.linkLanes n), alignSent := 0 }

/-- How a link goes on that has retired a lane (R352): lost SYNC is a loss of alignment. -/
def Dev.withoutLane (d : Dev) (fz : Fuse) (n : LinkId) (cause : LaneCause) : Dev :=
  if (d.link n).state == .retrain then d else if cause == .lostSync then d.realign fz n else d.retrain fz n

theorem retireLaneEffect_eq (n : LinkId) (lane : Fin 8) (cause : LaneCause) (fz : Fuse) (d : Dev) :
    retireLaneEffect n lane cause fz d = ((d.laneRetired n lane cause).withoutLane fz n cause).health := rfl

theorem Dev.laneRetired_link (d : Dev) (n : LinkId) (lane : Fin 8) (cause : LaneCause) :
    (((d.laneRetired n lane cause).link n).lanes[lane]).retired = true ∧
      ((d.laneRetired n lane cause).link n).state = (d.link n).state := by
  simp only [laneRetired, modLink_link, linkEvent_link, vmod_same, and_self]

theorem Dev.laneRetired_link_ne (d : Dev) {n m : LinkId} (lane : Fin 8) (cause : LaneCause) (h : m ≠ n) :
    (d.laneRetired n lane cause).link m = d.link m := by
  simp only [laneRetired, modLink_link_ne _ _ _ _ h, linkEvent_link]

theorem Dev.KeepsLanes.withoutLane (d : Dev) (fz : Fuse) (n : LinkId) (cause : LaneCause) :
    KeepsLanes n d (d.withoutLane fz n cause) := by
  unfold Dev.withoutLane
  split
  · exact refl n d
  split
  · exact realign d fz n
  · exact retrain d fz n

/-- Loss of alignment leaves a link that is UP in RETRAIN, and another one in DOWN. -/
theorem Dev.realign_state (d : Dev) (fz : Fuse) (n : LinkId) :
    ((d.realign fz n).link n).state = if (d.link n).state = .up then .retrain else .down := by
  simp only [realign, beq_iff_eq]
  split
  · rw [retrain_link_self]
    rfl
  · rw [linkDown_link_self]
    rfl

/-- A link with a lane retired retrains, but for one that lost SYNC in HANDSHAKE (R348, R352). -/
theorem Dev.withoutLane_state {d : Dev} {n : LinkId} {cause : LaneCause} (fz : Fuse)
    (h : (d.link n).state = .up ∨ (d.link n).state = .handshake ∨ (d.link n).state = .retrain) :
    ((d.withoutLane fz n cause).link n).state =
      if (d.link n).state = .handshake ∧ cause = .lostSync then .down else .retrain := by
  simp only [withoutLane, beq_iff_eq]
  split
  next hretrain => simp [hretrain]
  next hretrain =>
  split
  next hsync =>
    rw [realign_state]
    rcases h with hup | hshaking | hretrain'
    · simp [hup]
    · simp [hshaking, hsync]
    · exact absurd hretrain' hretrain
  next hother =>
    rw [retrain_link_self, if_neg fun hdown => hother hdown.2]
    rfl

theorem retireLaneEnabled_state {n : LinkId} {lane : Fin 8} {cause : LaneCause} {d : Dev} (h : retireLaneEnabled n lane cause d = true) :
    (d.link n).state = .up ∨ (d.link n).state = .handshake ∨ (d.link n).state = .retrain := by
  simp only [retireLaneEnabled, Bool.and_eq_true, Bool.or_eq_true, beq_iff_eq] at h
  obtain ⟨⟨⟨⟨-, hstate⟩, -⟩, -⟩, -⟩ := h
  exact or_assoc.1 hstate

/-- The device in which a link that was DOWN trains over all its lanes, its back-off doubled. -/
def Dev.retried (d : Dev) (n : LinkId) : Dev :=
  (d.modLink n fun l => { l with backoff := min 64 (2 * l.backoff) }).startTraining n

theorem downRetryEffect_eq (n : LinkId) (fz : Fuse) (d : Dev) :
    downRetryEffect n fz d = ((d.retried n).reportUp fz.serial).health := rfl

theorem Dev.retried_link_ne (d : Dev) {n m : LinkId} (h : m ≠ n) : (d.retried n).link m = d.link m := by
  simp only [retried, startTraining, modLink_link_ne _ _ _ _ h]

theorem Dev.retried_link (d : Dev) (n : LinkId) :
    ((d.retried n).link n).state = .training ∧ ((d.retried n).link n).since = d.now ∧
      ((d.retried n).link n).backoff = min 64 (2 * (d.link n).backoff) := by
  simp only [retried, startTraining, modLink_link, modLink_now, Link.fresh, and_self]

theorem Dev.retried_lane (d : Dev) (n : LinkId) (i : Fin 8) :
    (((d.retried n).link n).lanes[i]).good = true ∧ (((d.retried n).link n).lanes[i]).locked = false := by
  simp [retried, startTraining, Lane.good]

theorem Dev.reportUp_tiles_lofts (d : Dev) (x : BitVec 64) : (d.reportUp x).tiles = d.tiles ∧ (d.reportUp x).lofts = d.lofts := by
  unfold reportUp
  split
  · split <;> simp [sendOn]
  · simp

/-- Settles O31: a good ALIGN codeword is told from another, and what it does follows from what the link does; a lane out of service
leaves its link's other state to the operation that follows, which keeps the lanes and the other links. -/
theorem linksAlignGoodLanes : Obligations.LinksAlignGoodLanes := by
  unfold Obligations.LinksAlignGoodLanes
  intro n lane fec h payload cause s d l
  refine ⟨fun hen => ?_, fun hrun hhears hlane hmark => ?_, fun hen => ?_, fun hen => ?_, fun hen => ?_⟩
  · rw [exec_pmdTrainingComplete, onEvent_holds _ hen]
    rfl
  · intro c good mask took
    have hen : alignEnabled n lane fec h s.dev = true := by
      simp only [alignEnabled, Bool.and_eq_true, Bool.or_eq_true, decide_eq_true_eq, bne_iff_ne]
      refine ⟨⟨⟨hrun, hhears⟩, hlane⟩, ?_⟩
      cases fec with
      | none => exact .inl rfl
      | some k => exact .inr (hmark rfl)
    have htook (e : Dev) : e.alignTaken s.fuse n lane payload = took e := by
      simp only [Dev.alignTaken, Link.aligned_eq]
      rfl
    rw [exec_alignCodeword, onEvent_holds _ hen]
    refine ⟨fun hbad => ?_, fun hgood haligning => ?_, fun hgood hdone htaken => ?_, fun hgood hdone hnone => ?_⟩
    · rw [alignEffect_of_bad _ hbad]
      rfl
    · rw [alignEffect_of_good _ hgood, if_pos haligning, htook]
      rfl
    · rw [alignEffect_of_good _ hgood, if_neg (Bool.eq_false_iff.1 hdone), if_pos htaken, htook]
      rfl
    · rw [alignEffect_of_good _ hgood, if_neg (Bool.eq_false_iff.1 hdone), if_neg (Option.not_isSome_iff_eq_none.2 hnone)]
      rfl
  · have hkeeps := Dev.KeepsLanes.checkAlign (d.lockFailed n lane) s.fuse n
    refine ⟨_, by rw [exec_laneLockTimeout, onEvent_holds _ hen, lockTimeoutEffect_eq], ?_, fun m hm => ?_⟩
    · rw [hkeeps.lanes, Dev.lockFailed_link]
    · exact Dev.lockFailed_link_ne d lane hm ▸ hkeeps.others m hm
  · have hkeeps := Dev.KeepsLanes.withoutLane (d.laneRetired n lane cause) s.fuse n cause
    obtain ⟨hretired, hstate⟩ := d.laneRetired_link n lane cause
    refine ⟨_, by rw [exec_laneRetire, onEvent_holds _ hen, retireLaneEffect_eq], ?_, ?_, fun m hm => ?_⟩
    · rw [Dev.health_link, hkeeps.lanes, hretired]
    · rw [Dev.health_link, Dev.withoutLane_state, hstate]
      exact hstate ▸ retireLaneEnabled_state hen
    · rw [Dev.health_link]
      exact Dev.laneRetired_link_ne d lane cause hm ▸ hkeeps.others m hm
  · obtain ⟨htiles, hlofts⟩ := (d.retried n).reportUp_tiles_lofts s.fuse.serial
    have hlink (m : LinkId) : (((d.retried n).reportUp s.fuse.serial).health).link m = (d.retried n).link m := by
      rw [Dev.health_link, Dev.reportUp_link]
    obtain ⟨hstate, hsince, hbackoff⟩ := d.retried_link n
    refine ⟨_, by rw [exec_downRetry, onEvent_holds _ hen, downRetryEffect_eq], fun m hm => ?_, ?_, ?_, ?_, ?_, ?_, fun i => ?_⟩
    · exact (hlink m).trans (d.retried_link_ne hm)
    · exact (Dev.health_tiles_unstopped _).1.trans htiles
    · exact (Dev.health_lofts _).trans hlofts
    · exact (congrArg Link.state (hlink n)).trans hstate
    · exact (congrArg Link.since (hlink n)).trans hsince
    · exact (congrArg Link.backoff (hlink n)).trans hbackoff
    · rw [hlink]
      exact d.retried_lane n i

end Sys2Proof.Machine
end

section
/-!
PROOFS. What a fabric link sends (R336, R339, R343 to R345): one rule per case of a frame, in the order of their priority, and the
statement about them.
-/
namespace Sys2Proof.Machine

theorem exec_frameTransmit (n : LinkId) (s : State) : exec (.frameTransmit n) s = onEvent s (transmitEnabled n) (transmitEffect n) := rfl

theorem exec_replayTimeout (n : LinkId) (s : State) : exec (.replayTimeout n) s = onEvent s (replayLate n) (replayTimeoutEffect n) := rfl

/-! ### When a link sends (R336) -/

theorem transmitEnabled_iff {n : LinkId} {d : Dev} : transmitEnabled n d = true ↔
    d.running = true ∧ ((d.link n).aligning = true ∨ (d.link n).state = .handshake ∨ (d.link n).state = .up) := by
  simp only [transmitEnabled, Bool.and_eq_true, Bool.or_eq_true, beq_iff_eq, or_assoc]

theorem transmitEnabled_of_silent {n : LinkId} {d : Dev} (haligning : (d.link n).aligning = false)
    (hshaking : (d.link n).state ≠ .handshake) (hup : (d.link n).state ≠ .up) : transmitEnabled n d = false := by
  rw [Bool.eq_false_iff, Ne, transmitEnabled_iff]
  rintro ⟨-, h | h | h⟩
  · exact Bool.eq_false_iff.1 haligning h
  · exact hshaking h
  · exact hup h

/-! ### The start of a frame (R345) -/

theorem Link.enterReplay_begins {l : Link} (now : Nat) (hwait : l.replayWait = true) (hslot : l.slotStart = true) (hne : l.replay ≠ []) :
    l.enterReplay now = { l with replayWait := false, replayFrom := some (l.acked + 1), replays := l.replays.inc now } := by
  simp [enterReplay, hwait, hslot, hne]

theorem Link.enterReplay_waits {l : Link} (now : Nat) (h : l.replayWait = false ∨ l.slotStart = false) : l.enterReplay now = l := by
  rcases h with h | h <;> simp [enterReplay, h]

/-- The device in which the replay that was asked for has begun, where a slot starts. -/
def Dev.frameBegun (d : Dev) (n : LinkId) : Dev := d.modLink n fun l => l.enterReplay d.now

/-! ### The frame that is sent, by priority (R339, R343 to R346) -/

/-- The device once its link has sent an IDLE frame. -/
def Dev.sentIdle (d : Dev) (n : LinkId) : Dev := d.modLink n fun l => l.emit .idle 0#32 [] [] d.now

/-- The device once its link has sent a frame of its replay. -/
def Dev.sentReplay (d : Dev) (n : LinkId) (r : BitVec 32) : Dev := d.modLink n fun l => l.emitReplay r d.now

/-- The oldest frame of the replay buffer has been sent 8 times. -/
def Link.sentOften (l : Link) : Bool := (l.replay.head?.map fun e => decide (8 ≤ e.times)).getD false

theorem Link.sentOften_iff (l : Link) : l.sentOften = true ↔ ∃ e, l.replay.head? = some e ∧ 8 ≤ e.times := by
  unfold sentOften
  cases l.replay.head? with
  | none => simp
  | some e => simp

theorem transmitEffect_of_aligning {n : LinkId} {d : Dev} (fz : Fuse) (h : (d.link n).aligning = true) :
    transmitEffect n fz d = (d.modLink n fun l => l.emitAlign (d.linkLanes n)).checkAlign fz n := by
  simp only [transmitEffect, h, if_true]

theorem transmitEffect_of_aligned {n : LinkId} {d : Dev} (fz : Fuse) (h : (d.link n).aligning = false) :
    transmitEffect n fz d = sendFrame n fz d := by
  simp only [transmitEffect, h, Bool.false_eq_true, if_false]

/-- Flits for a frame are none only where the first is none, and then the device is as it was. (The equations of `takeFlits` are past
the recursion depth, so its body is taken by `delta`.) -/
theorem Dev.takeFlits_nil {n : LinkId} {k : Nat} {d e : Dev} (h : Dev.takeFlits n (k + 1) d = (e, [])) : e = d := by
  delta takeFlits takeFlits._f at h
  dsimp only at h
  cases hnext : d.nextFlit n with
  | none =>
    rw [hnext] at h
    exact (congrArg Prod.fst h).symm
  | some x =>
    rw [hnext] at h
    exact absurd (congrArg Prod.snd h) (List.cons_ne_nil _ _)

section
variable {n : LinkId} {d : Dev} (fz : Fuse)

theorem sendFrame_of_nak (h : ((d.frameBegun n).link n).nakNow = true) : sendFrame n fz d =
    (d.frameBegun n).modLink n fun l => { l.emit .nak 0#32 [] [] d.now with nakDue := false, nakAt := some d.now } := by
  unfold Dev.frameBegun at *
  simp only [sendFrame, h, if_true, Dev.modLink_now]

variable (hnak : ((d.frameBegun n).link n).nakNow = false)
include hnak

/-- A replay sends its next frame, and the link retrains where its oldest frame has been sent 8 times. -/
theorem sendFrame_of_replay {r : BitVec 32} (hreplay : ((d.frameBegun n).link n).replayFrom = some r) : sendFrame n fz d =
    if (((d.frameBegun n).link n).emitReplay r d.now).sentOften = true then ((d.frameBegun n).sentReplay n r).retrain fz n
    else (d.frameBegun n).sentReplay n r := by
  have hlink : ((d.frameBegun n).sentReplay n r).link n = ((d.frameBegun n).link n).emitReplay r d.now := Dev.modLink_link ..
  rw [← hlink]
  unfold Dev.frameBegun at hnak hreplay ⊢
  simp only [sendFrame, hnak, hreplay, Bool.false_eq_true, if_false]
  rfl

variable (hreplay : ((d.frameBegun n).link n).replayFrom = none)
include hreplay

theorem sendFrame_of_full (h : 256 ≤ ((d.frameBegun n).link n).replay.length) : sendFrame n fz d = (d.frameBegun n).sentIdle n := by
  unfold Dev.frameBegun at *
  simp only [sendFrame, hnak, hreplay, h, Bool.false_eq_true, if_false, if_true, Dev.sentIdle]

variable (hroom : ((d.frameBegun n).link n).replay.length < 256)
include hroom

theorem sendFrame_of_frag {b : Bytes} {rest : List Bytes} (h : ((d.frameBegun n).link n).txFrags = b :: rest) : sendFrame n fz d =
    ((d.frameBegun n).modLink n fun l => l.sendFrag b d.now).tryUp fz n := by
  unfold Dev.frameBegun at *
  simp only [sendFrame, hnak, hreplay, Nat.not_le.2 hroom, h, Bool.false_eq_true, if_false, Dev.modLink_now]

variable (hnone : ((d.frameBegun n).link n).txFrags = [])
include hnone

/-- Flits are sent in UP alone; a link that has none sends IDLE. -/
theorem sendFrame_of_noFrag : sendFrame n fz d =
    if ((d.frameBegun n).link n).state = .up ∧ (Dev.takeFlits n 9 (d.frameBegun n)).2 ≠ [] then
      (Dev.takeFlits n 9 (d.frameBegun n)).1.modLink n fun l =>
        l.emitNew .data (Dev.takeFlits n 9 (d.frameBegun n)).2 [] (Dev.takeFlits n 9 (d.frameBegun n)).1.now
    else (d.frameBegun n).sentIdle n := by
  unfold Dev.frameBegun at *
  simp only [sendFrame, hnak, hreplay, Nat.not_le.2 hroom, hnone, Bool.false_eq_true, if_false, List.isEmpty_iff, beq_iff_eq]
  split
  next hup =>
    split
    next hempty => rw [if_neg fun h => h.2 hempty]; rfl
    next hflits => rw [if_pos ⟨hup, hflits⟩]
  next hother => rw [if_neg fun h => hother h.1]; rfl

end

/-- Settles O32: a link that is to send takes the first case that holds, of NAK, replay, IDLE while too many frames wait, fragment
and flits, in the device in which the replay asked for has begun. -/
theorem linksSendByPriority : Obligations.LinksSendByPriority := by
  unfold Obligations.LinksSendByPriority
  intro n s d begun l idle
  rw [exec_frameTransmit, exec_replayTimeout]
  refine ⟨fun haligned hshaking hup => ?_, fun hrun haligning => ?_, fun hrun haligned hstate => ?_, fun hlate => ?_⟩
  · exact onEvent_fails _ (transmitEnabled_of_silent haligned hshaking hup)
  · rw [onEvent_holds _ (transmitEnabled_iff.2 ⟨hrun, .inl haligning⟩), transmitEffect_of_aligning _ haligning]
  · rw [onEvent_holds _ (transmitEnabled_iff.2 ⟨hrun, .inr hstate⟩), transmitEffect_of_aligned _ haligned]
    refine ⟨fun r hwait hslot hr hne => ?_, fun h => ?_, fun hnak => ?_, fun r hnak hreplay htimes => ?_,
      fun r e hnak hreplay he htimes => ?_, fun hnak hreplay hfull => ?_, fun b rest hnak hreplay hroom hfrag => ?_,
      fun hnak hreplay hroom hnone hshaking => ?_, fun e fl hnak hreplay hroom hnone hup hfl => ?_⟩
    · have hbegun : l = (d.link n).enterReplay d.now := Dev.modLink_link ..
      rw [hbegun, Link.enterReplay_begins _ hwait hslot (hr ▸ hne)]
      exact ⟨rfl, rfl⟩
    · exact vmod_keeps d.links n (f := fun l => l.enterReplay d.now) (Link.enterReplay_waits d.now h)
    · rw [sendFrame_of_nak _ hnak]
      rfl
    · have hfew : ¬ (l.emitReplay r d.now).sentOften = true := by
        rw [Link.sentOften_iff]
        rintro ⟨e, he, h⟩
        exact Nat.not_lt.2 h (htimes e he)
      rw [sendFrame_of_replay _ hnak hreplay]
      exact congrArg (fun e => Host.Outcome.next (s.put e)) (if_neg hfew)
    · have hmany : (l.emitReplay r d.now).sentOften = true := (Link.sentOften_iff _).2 ⟨e, he, htimes⟩
      rw [sendFrame_of_replay _ hnak hreplay]
      exact congrArg (fun e => Host.Outcome.next (s.put e)) (if_pos hmany)
    · rw [sendFrame_of_full _ hnak hreplay hfull]
      rfl
    · rw [sendFrame_of_frag _ hnak hreplay hroom hfrag]
      rfl
    · have hother : ¬ l.state = .up := by rw [hshaking]; exact LinkState.noConfusion
      rw [sendFrame_of_noFrag _ hnak hreplay hroom hnone, if_neg fun h => hother h.1]
      rfl
    · rw [sendFrame_of_noFrag _ hnak hreplay hroom hnone]
      have hflits : (Dev.takeFlits n 9 (d.frameBegun n)).2 = fl := congrArg Prod.snd hfl
      have hdev : (Dev.takeFlits n 9 (d.frameBegun n)).1 = e := congrArg Prod.fst hfl
      rw [hflits, hdev]
      by_cases hempty : fl = []
      · have he : e = begun := Dev.takeFlits_nil (hempty ▸ hfl)
        rw [if_neg fun h => h.2 hempty, if_pos hempty, he]
        rfl
      · rw [if_pos ⟨hup, hempty⟩, if_neg hempty]
  · rw [onEvent_holds _ hlate]
    rfl

end Sys2Proof.Machine
end

section
/-!
PROOFS. Frames that a fabric link receives (R339, R342, R349): what a codeword does by its lane and slot, the checks of a frame whose
turn has come, one rule per outcome, and the statements about them.
-/
namespace Sys2Proof.Machine

theorem exec_frameOf (ft : FrameType) (n : LinkId) (f : Frame) (s : State) :
    exec (frameOf ft n f) s = onEvent s (receiveEnabled n ft f) (receiveFrame n ft f) := by
  cases ft with
  | idle => rfl
  | data => rfl
  | nak => rfl
  | control => rfl

/-! ### The place of a frame (R339) -/

/-- Counting a codeword changes the record of its lane alone. -/
theorem Link.countFec_cw (l : Link) (f : Frame) (now : Nat) : ((l.countFec f.lane f.fec f.hdr now).lanes[f.lane]).cw =
    if f.fec.isNone then (l.lanes[f.lane]).cw + 1 else cwCount f.hdr := by
  simp only [countFec, vmod_same]
  rfl

/-- The next frame in order leaves those that wait, which are none beside it. -/
theorem Link.nextHeld_of_only {l : Link} {ft : FrameType} {f : Frame} (h : l.rxHeld = [(l.rxNo, ft, f)]) : l.nextHeld = some
    ({ l with rxHeld := [], rxNo := l.rxNo + 1,
              rxSlot := if (l.rxNo + 1) % max 1 l.width == 0 then l.rxSlot.map (· + 1) else l.rxSlot }, ft, f) := by
  simp [nextHeld, h]

theorem Link.nextHeld_of_missing {l : Link} (h : ∀ q ∈ l.rxHeld, q.1 ≠ l.rxNo) : l.nextHeld = none := by
  have hnone : l.rxHeld.find? (fun q => q.1 == l.rxNo) = none := by
    rw [List.find?_eq_none]
    exact fun q hq => by simpa using h q hq
  rw [nextHeld, hnone]
  rfl

theorem Dev.takeHeld_of_missing {n : LinkId} (fz : Fuse) (k : Nat) {d : Dev} (h : (d.link n).nextHeld = none) :
    Dev.takeHeld n fz k d = d := by
  cases k with
  | zero => rfl
  | succ k => simp [takeHeld, h]

/-- The device in which the codeword of a frame has been counted for its lane. -/
def Dev.frameCounted (d : Dev) (n : LinkId) (f : Frame) : Dev := d.modLink n fun l => l.countFec f.lane f.fec f.hdr d.now

/-- The device in which the frame waits for its turn, its codeword counted. -/
def Dev.frameHeld (d : Dev) (n : LinkId) (no : Nat) (ft : FrameType) (f : Frame) : Dev :=
  (d.frameCounted n f).modLink n fun l => { l with
    rxSlot := some (l.rxSlot.getD l.lanes[f.lane].cw), rxHeld := (no, ft, f) :: l.rxHeld }

/-- The codeword is of the link's SYNC, or cannot be decoded. -/
theorem syncFits_iff {f : Frame} : (f.fec.isNone || cwSync f.hdr) = true ↔ (f.fec.isSome && !cwSync f.hdr) = false := by
  cases f.fec <;> simp

section
variable {n : LinkId} {ft : FrameType} {f : Frame} {d : Dev} (fz : Fuse)

theorem receiveFrame_of_untaken (h : (d.link n).takes = false ∨ (d.link n).logical f.lane = none) :
    receiveFrame n ft f fz d = d.frameCounted n f := by
  rcases h with h | h <;> simp only [receiveFrame, h, Option.isNone_none, Bool.not_false, Bool.or_true, Bool.true_or, if_true] <;> rfl

variable (htakes : (d.link n).takes = true) (hlane : ((d.link n).logical f.lane).isSome = true)
include htakes hlane

theorem receiveFrame_of_strange (hfec : f.fec.isSome = true) (hsync : cwSync f.hdr = false) :
    receiveFrame n ft f fz d = (d.frameCounted n f).modLink n fun l => l.unlock f.lane := by
  simp only [receiveFrame, htakes, Option.isNone_eq_false_iff.2 hlane, hfec, hsync]
  rfl

variable (hsync : (f.fec.isNone || cwSync f.hdr) = true)
include hsync

theorem receiveFrame_of_placeless (h : (d.link n).frameIndex f = none) :
    receiveFrame n ft f fz d = (d.frameCounted n f).realign fz n := by
  simp only [receiveFrame, htakes, Option.isNone_eq_false_iff.2 hlane, syncFits_iff.1 hsync, h]
  rfl

theorem receiveFrame_of_placed {no : Nat} (h : (d.link n).frameIndex f = some no) :
    receiveFrame n ft f fz d = Dev.takeHeld n fz ((d.link n).rxHeld.length + 1) (d.frameHeld n no ft f) := by
  have hheld : (d.frameCounted n f).modLink n (fun x => { x with
        rxSlot := ((d.link n).hold no ft f).rxSlot, rxHeld := ((d.link n).hold no ft f).rxHeld }) = d.frameHeld n no ft f := by
    refine Dev.modLink_congr _ _ ?_
    simp only [Dev.frameCounted, Dev.modLink_link, Link.countFec_cw]
    rfl
  rw [← hheld]
  simp only [receiveFrame, htakes, Option.isNone_eq_false_iff.2 hlane, syncFits_iff.1 hsync, h]
  rfl

end

theorem Dev.frameHeld_link (d : Dev) (n : LinkId) (no : Nat) (ft : FrameType) (f : Frame) :
    ((d.frameHeld n no ft f).link n).takes = (d.link n).takes ∧ ((d.frameHeld n no ft f).link n).rxNo = (d.link n).rxNo ∧
      ((d.frameHeld n no ft f).link n).rxHeld = (no, ft, f) :: (d.link n).rxHeld := by
  simp only [frameHeld, frameCounted, modLink_link]
  exact ⟨rfl, rfl, rfl⟩

/-- A frame ahead of its turn waits where none that waits is the next in order. -/
theorem receiveFrame_of_ahead {n : LinkId} {ft : FrameType} {f : Frame} {d : Dev} (fz : Fuse) {no : Nat}
    (htakes : (d.link n).takes = true) (hlane : ((d.link n).logical f.lane).isSome = true)
    (hsync : (f.fec.isNone || cwSync f.hdr) = true) (hplace : (d.link n).frameIndex f = some no) (hahead : no ≠ (d.link n).rxNo)
    (hmissing : ∀ q ∈ (d.link n).rxHeld, q.1 ≠ (d.link n).rxNo) : receiveFrame n ft f fz d = d.frameHeld n no ft f := by
  obtain ⟨-, hno, hheld⟩ := d.frameHeld_link n no ft f
  rw [receiveFrame_of_placed fz htakes hlane hsync hplace]
  refine Dev.takeHeld_of_missing fz _ (Link.nextHeld_of_missing ?_)
  rw [hheld, hno]
  exact List.forall_mem_cons.2 ⟨hahead, hmissing⟩

/-- The device in which a frame whose turn has come has left those that wait. -/
def Dev.frameTurned (d : Dev) (n : LinkId) (f : Frame) : Dev := (d.frameCounted n f).modLink n fun l => l.turned f.lane

theorem receiveFrame_of_inTurn {n : LinkId} {ft : FrameType} {f : Frame} {d : Dev} (fz : Fuse) (h : (d.link n).InTurn f) :
    receiveFrame n ft f fz d = takeFrame n ft f fz (d.frameTurned n f) := by
  obtain ⟨htakes, hlane, hsync, hplace, hnone⟩ := h
  obtain ⟨htakes', hno, hheld⟩ := d.frameHeld_link n (d.link n).rxNo ft f
  have honly : ((d.frameHeld n (d.link n).rxNo ft f).link n).rxHeld = [(((d.frameHeld n (d.link n).rxNo ft f).link n).rxNo, ft, f)] := by
    rw [hheld, hno, hnone]
  rw [receiveFrame_of_placed fz htakes hlane hsync hplace, hnone]
  simp only [List.length_nil, Dev.takeHeld, htakes', htakes, Link.nextHeld_of_only honly, Bool.not_true,
    Bool.false_eq_true, if_false]
  refine congrArg (takeFrame n ft f fz) ?_
  rw [Dev.frameHeld, Dev.modLink_modLink]
  refine Dev.modLink_congr _ _ ?_
  simp only [Dev.modLink_link, Link.turned, beq_iff_eq, Option.map_some, apply_ite some]

/-! ### The checks of a frame whose turn has come (R342) -/

/-- The device once its link has applied epoch, ACK and CREDIT of a frame that passes (R342, R350). -/
def Dev.frameApplied (d : Dev) (n : LinkId) (f : Frame) : Dev :=
  d.modLink n fun l => (l.tookEpoch f d.now).apply f.ack f.credit d.now

/-- The device once its link has taken a frame in sequence. -/
def Dev.frameNext (d : Dev) (n : LinkId) : Dev :=
  d.modLink n fun l => { l with expected := l.expected + 1, rxFrames := satInc l.rxFrames }

/-- The test of CRC, format and lane in `takeFrame`, where the frame can be read. -/
theorem Link.formed_iff {l : Link} {ft : FrameType} {f : Frame} (hfec : f.fec.isSome = true) : l.Formed ft f ↔
    (!frameCrcOk f || !frameFormed ft f || some (cwLane f.hdr) != l.logical f.lane) = false := by
  simp [Formed, hfec, and_assoc]

section
variable {n : LinkId} {ft : FrameType} {f : Frame} {d : Dev} (fz : Fuse)

theorem takeFrame_of_unread (h : f.fec = none) : takeFrame n ft f fz d = d.modLink n fun l => l.askReplay d.now := by
  simp only [takeFrame, h, Option.isNone_none, if_true]

theorem takeFrame_of_malformed (hfec : f.fec.isSome = true) (h : ¬ (d.link n).Formed ft f) : takeFrame n ft f fz d =
    d.modLink n fun l => { l with crcErr := l.crcErr.inc d.now }.askReplay d.now := by
  have hbad := Bool.eq_true_of_not_eq_false (mt (Link.formed_iff hfec).2 h)
  simp only [takeFrame, Option.isNone_eq_false_iff.2 hfec, hbad, Bool.false_eq_true, if_false, if_true]

theorem Link.Formed.tests {l : Link} (h : l.Formed ft f) : f.fec.isNone = false ∧
    (!frameCrcOk f || !frameFormed ft f || some (cwLane f.hdr) != l.logical f.lane) = false :=
  ⟨Option.isNone_eq_false_iff.2 h.1, (Link.formed_iff h.1).1 h⟩

section
variable (hformed : (d.link n).Formed ft f)
include hformed

theorem takeFrame_of_ackBad (hack : (d.link n).ackBad f.ack = true) : takeFrame n ft f fz d =
    (d.modLink n fun l => { l with crcErr := l.crcErr.inc d.now }).linkDown fz n := by
  obtain ⟨hread, hgood⟩ := hformed.tests
  simp only [takeFrame, hread, hgood, hack, Bool.false_eq_true, if_false, if_true]

variable (hack : (d.link n).ackBad f.ack = false)
include hack

theorem takeFrame_of_notAdmitted (hadmit : (d.link n).notAdmitted ft f = true) : takeFrame n ft f fz d =
    d.modLink n fun l => { l with tagFail := l.tagFail.inc d.now } := by
  obtain ⟨hread, hgood⟩ := hformed.tests
  simp only [takeFrame, hread, hgood, hack, hadmit, Bool.false_eq_true, if_false, if_true]

variable (hadmit : (d.link n).notAdmitted ft f = false)
include hadmit

theorem takeFrame_of_sealed (hopen : (d.link n).openFrame f = none) : takeFrame n ft f fz d = d.tagFailed fz n := by
  obtain ⟨hread, hgood⟩ := hformed.tests
  simp only [takeFrame, hread, hgood, hack, hadmit, hopen, Bool.false_eq_true, if_false]

variable {slots : Bytes} (hopen : (d.link n).openFrame f = some slots)
include hopen

theorem takeFrame_of_idle (hft : ft = .idle) : takeFrame n ft f fz d = d.frameApplied n f := by
  obtain ⟨hread, hgood⟩ := hformed.tests
  subst hft
  simp only [takeFrame, hread, hgood, hack, hadmit, hopen, Bool.false_eq_true, if_false]
  rfl

theorem takeFrame_of_nak (hft : ft = .nak) : takeFrame n ft f fz d = (d.frameApplied n f).modLink n fun l => l.startReplay := by
  obtain ⟨hread, hgood⟩ := hformed.tests
  subst hft
  simp only [takeFrame, hread, hgood, hack, hadmit, hopen, Bool.false_eq_true, if_false]
  rfl

theorem takeFrame_of_content (hft : ft = .data ∨ ft = .control) :
    takeFrame n ft f fz d = acceptFrame n ft f slots fz (d.frameApplied n f) := by
  obtain ⟨hread, hgood⟩ := hformed.tests
  rcases hft with rfl | rfl
  · simp only [takeFrame, hread, hgood, hack, hadmit, hopen, Bool.false_eq_true, if_false]
    rfl
  · simp only [takeFrame, hread, hgood, hack, hadmit, hopen, Bool.false_eq_true, if_false]
    rfl

end

/-! ### Frames by their SEQ (R342) -/

theorem acceptFrame_of_data (slots : Bytes) (hseq : f.seq = (d.link n).expected) : acceptFrame n .data f slots fz d =
    (d.frameNext n).modLink n fun l => { l with rxFlits := l.rxFlits ++ frameFlits f slots } := by
  simp only [acceptFrame, hseq, beq_self_eq_true, if_true]
  rfl

theorem acceptFrame_of_control (slots : Bytes) (hseq : f.seq = (d.link n).expected) :
    acceptFrame n .control f slots fz d = fragEffect n slots fz (d.frameNext n) := by
  simp only [acceptFrame, hseq, beq_self_eq_true, if_true]
  rfl

theorem acceptFrame_of_duplicate (ft : FrameType) (slots : Bytes) (hseq : f.seq ≠ (d.link n).expected)
    (hold : seqDist f.seq (d.link n).expected ≤ 256) : acceptFrame n ft f slots fz d = d := by
  simp only [acceptFrame, beq_eq_false_iff_ne.2 hseq, hold, Bool.false_eq_true, if_false, if_true]

theorem acceptFrame_of_gap (ft : FrameType) (slots : Bytes) (hseq : f.seq ≠ (d.link n).expected)
    (hnew : 256 < seqDist f.seq (d.link n).expected) : acceptFrame n ft f slots fz d = d.modLink n fun l => l.askReplay d.now := by
  simp only [acceptFrame, beq_eq_false_iff_ne.2 hseq, Nat.not_le.2 hnew, Bool.false_eq_true, if_false]

end

/-- Settles O33: the lane and the slot decide what becomes of a codeword, and of a frame whose turn has come the first check that
fails, and after the checks its type and SEQ. -/
theorem framesCheckedInOrder : Obligations.FramesCheckedInOrder := by
  unfold Obligations.FramesCheckedInOrder
  intro ft n f s hen d c l0
  rw [exec_frameOf, onEvent_holds _ hen]
  refine ⟨fun hidle => ?_, fun htakes hlane => ⟨fun hfec hsync => ?_, fun hsync hplace => ?_,
    fun no hsync hplace hahead hmissing => ?_⟩, fun hturn => ?_⟩
  · rw [receiveFrame_of_untaken _ hidle]
    rfl
  · rw [receiveFrame_of_strange _ htakes hlane hfec hsync]
    rfl
  · rw [receiveFrame_of_placeless _ htakes hlane hsync hplace]
    rfl
  · rw [receiveFrame_of_ahead _ htakes hlane hsync hplace hahead hmissing]
    rfl
  · intro t l bad
    have ht : d.frameTurned n f = t := rfl
    rw [receiveFrame_of_inTurn _ hturn, ht]
    refine ⟨fun hfec => ?_, fun hfec hbad => ?_, fun hformed hack => ?_, fun hformed hack hadmit => ?_, ?_⟩
    · rw [takeFrame_of_unread _ hfec]
      rfl
    · rw [takeFrame_of_malformed _ hfec hbad]
      rfl
    · rw [takeFrame_of_ackBad _ hformed hack]
      rfl
    · rw [takeFrame_of_notAdmitted _ hformed hack hadmit]
      rfl
    · intro slots hformed hack hadmit hopen e next data
      have he : t.frameApplied n f = e := rfl
      have hcontent (hft : data) : takeFrame n ft f s.fuse t = acceptFrame n ft f slots s.fuse e := by
        rw [takeFrame_of_content _ hformed hack hadmit hopen hft, he]
      refine ⟨fun hft => ?_, fun hft => ?_, fun hft hseq => ?_, fun hft hseq => ?_, fun hft hseq hold => ?_, fun hft hseq hnew => ?_⟩
      · rw [takeFrame_of_idle _ hformed hack hadmit hopen hft]
        rfl
      · rw [takeFrame_of_nak _ hformed hack hadmit hopen hft]
        rfl
      · rw [hcontent (.inl hft), hft, acceptFrame_of_data _ _ hseq]
        rfl
      · rw [hcontent (.inr hft), hft, acceptFrame_of_control _ _ hseq]
        rfl
      · rw [hcontent hft, acceptFrame_of_duplicate _ _ _ hseq hold]
      · rw [hcontent hft, acceptFrame_of_gap _ _ _ hseq hnew]
        rfl

/-! ### Tag failures (R349) -/

/-- The device once its link has counted and noted a tag failure. -/
def Dev.tagFailure (d : Dev) (n : LinkId) : Dev :=
  d.modLink n fun l => { l with tagFail := l.tagFail.inc d.now, tagFailAt := d.now :: within d.now (msN 1000) l.tagFailAt }

theorem Dev.tagFailure_link (d : Dev) (n : LinkId) :
    ((d.tagFailure n).link n).tagFailAt.length = (within d.now (msN 1000) (d.link n).tagFailAt).length + 1 := by
  rw [tagFailure, modLink_link, List.length_cons]

theorem Dev.tagFailed_of_few {d : Dev} {n : LinkId} (fz : Fuse) (h : (within d.now (msN 1000) (d.link n).tagFailAt).length < 2) :
    d.tagFailed fz n = (d.tagFailure n).modLink n fun l => l.askReplay d.now := by
  refine if_neg ?_
  have hlen := d.tagFailure_link n
  unfold tagFailure at hlen
  omega

theorem Dev.tagFailed_of_third {d : Dev} {n : LinkId} (fz : Fuse) (h : 2 ≤ (within d.now (msN 1000) (d.link n).tagFailAt).length) :
    d.tagFailed fz n = (d.tagFailure n).quarantine fz n 0x6003 := by
  refine if_pos ?_
  have hlen := d.tagFailure_link n
  unfold tagFailure at hlen
  omega

/-- A link in QUARANTINED sends nothing (R336). -/
theorem transmitEnabled_of_quarantined {n : LinkId} {d : Dev} (h : (d.link n).state = .quarantined) : transmitEnabled n d = false := by
  refine transmitEnabled_of_silent ?_ ?_ ?_
  · rw [Link.aligning, h]
    rfl
  · rw [h]
    exact LinkState.noConfusion
  · rw [h]
    exact LinkState.noConfusion

/-- Settles O34: a frame in its turn whose tag fails is counted, and the number of failures within the second decides. -/
theorem thirdTagFailureQuarantines : Obligations.ThirdTagFailureQuarantines := by
  unfold Obligations.ThirdTagFailureQuarantines
  intro ft n f s hen d c l hturn hformed hack hadmit hopen failed
  have hc : d.frameTurned n f = c := Dev.modLink_modLink ..
  rw [exec_frameOf, onEvent_holds _ hen, receiveFrame_of_inTurn _ hturn, hc, takeFrame_of_sealed _ hformed hack hadmit hopen]
  refine ⟨fun hfew => ?_, fun hthird => ?_⟩
  · rw [Dev.tagFailed_of_few _ hfew]
    rfl
  · have hlink := ((c.tagFailure n).quarantine_link s.fuse n n 0x6003).1 rfl
    have hstate : (((c.tagFailure n).quarantine s.fuse n 0x6003).link n).state = .quarantined := by
      rw [hlink]
      rfl
    refine ⟨(c.tagFailure n).quarantine s.fuse n 0x6003, ?_, rfl, hstate, ?_, ?_, ?_⟩
    · rw [Dev.tagFailed_of_third _ hthird]
    · rw [hlink]
      rfl
    · rw [hlink]
      rfl
    · rw [exec_frameTransmit, onEvent_fails _ (transmitEnabled_of_quarantined hstate)]

end Sys2Proof.Machine
end

section
/-!
PROOFS. The handshake of a fabric link and its rekeying (R347, R348, R350, R351, R458, R480): one rule per message and outcome, and
the statements about them.
-/
namespace Sys2Proof.Machine

/-! ### Messages that a link expects -/

theorem exec_hello (n : LinkId) (h : Hello) (s : State) : exec (.hello n h) s = onEvent s (msgEnabled n .handshake) (helloEffect n h) := rfl

theorem exec_kemKey (n : LinkId) (bs : Bytes) (s : State) :
    exec (.kemKey n bs) s = onEvent s (msgEnabled n .handshake) (kemKeyEffect n bs) := rfl

theorem exec_kemCt (n : LinkId) (bs : Bytes) (s : State) :
    exec (.kemCt n bs) s = onEvent s (msgEnabled n .handshake) (kemCtEffect n bs) := rfl

theorem exec_cert (n : LinkId) (bs : Bytes) (s : State) :
    exec (.cert n bs) s = onEvent s (msgEnabled n .handshake) (certEffect n bs) := rfl

theorem exec_sig (n : LinkId) (bs : Bytes) (s : State) :
    exec (.sig n bs) s = onEvent s (msgEnabled n .handshake) (sigEffect n bs) := rfl

theorem exec_finished (n : LinkId) (bs : Bytes) (s : State) :
    exec (.finished n bs) s = onEvent s (msgEnabled n .handshake) (finishedEffect n bs) := rfl

theorem exec_handshakeTimeout (n : LinkId) (s : State) :
    exec (.handshakeTimeout n) s = onEvent s (handshakeLate n) (handshakeTimeoutEffect n) := rfl

theorem msgEnabled_of_state {n : LinkId} {st : LinkState} {d : Dev} (hrun : d.running = true) (h : (d.link n).state = st) :
    msgEnabled n st d = true := by
  rw [msgEnabled, hrun, h, beq_self_eq_true]
  rfl

/-- A link that expects a message is in HANDSHAKE, so that the message can arrive. -/
theorem msgEnabled_of_expects {n : LinkId} {m : HsMsg} {want : List HsMsg} {d : Dev} (hrun : d.running = true)
    (h : (d.link n).expects m want = true) : msgEnabled n .handshake d = true := by
  simp only [Link.expects, Bool.and_eq_true, beq_iff_eq] at h
  obtain ⟨⟨hstate, -⟩, -⟩ := h
  exact msgEnabled_of_state hrun hstate

theorem padTo_length (n : Nat) (bs : Bytes) : (padTo n bs).length = n := by
  simp only [padTo, List.length_append, List.length_take, List.length_replicate]
  omega

theorem Dev.draw_link (d : Dev) (n : LinkId) : d.draw.2.link n = d.link n := rfl

/-! ### HELLO (R347) -/

/-- The link once the peer's HELLO is known. -/
def Link.heard (l : Link) (h : Hello) (initiator : Bool) : Link :=
  { l.note .hello with hs := { (l.note .hello).hs with
      initiator := initiator, peerSerial := h.serial, peerRole := h.role, peerHello := helloBytes h } }

/-- The link once the initiator has queued its key of the seed. -/
def Link.sentKey (l : Link) (seed : Bytes) : Link :=
  let key := padTo 1568 (Config.kemPublic seed)
  { l.say .kemKey key with hs := { (l.say .kemKey key).hs with seed := seed, kemKey := key } }

/-- A HELLO of the version, its reserved byte zero, its nonce whole. -/
def HelloFormed (h : Hello) : Prop := h.version = 1#16 ∧ h.reserved = 0#8 ∧ h.nonce.length = 32

section
variable {n : LinkId} {h : Hello} {fz : Fuse} {d : Dev} (hexp : (d.link n).expects .hello [] = true) (hformed : HelloFormed h)
include hexp hformed

theorem helloEffect_of_loopback (hserial : h.serial = fz.serial) : helloEffect n h fz d =
    (d.modLink n fun l => { l with hs := { l.hs with peerSerial := h.serial } }).quarantine fz n 0x6007 := by
  obtain ⟨hversion, hreserved, hnonce⟩ := hformed
  simp [helloEffect, hexp, hversion, hreserved, hnonce, hserial]

/-- The end of the lower serial is the initiator, and sends a key of a fresh seed. -/
theorem helloEffect_of_lower (hserial : fz.serial.toNat < h.serial.toNat) : helloEffect n h fz d =
    ((d.modLink n fun l => l.heard h true).draw.2.modLink n fun l => l.sentKey (leBytes 64 d.draw.1)) := by
  obtain ⟨hversion, hreserved, hnonce⟩ := hformed
  have hother : (h.serial == fz.serial) = false := beq_eq_false_iff_ne.2 fun he => by simp [he] at hserial
  simp only [helloEffect, hexp, hversion, hreserved, hnonce, hother, hserial, Bool.not_true, bne_self_eq_false, Bool.or_self,
    Bool.false_eq_true, if_false, if_true, decide_true]
  rfl

theorem helloEffect_of_higher (hserial : h.serial.toNat < fz.serial.toNat) :
    helloEffect n h fz d = d.modLink n fun l => l.heard h (decide (fz.serial.toNat < h.serial.toNat)) := by
  obtain ⟨hversion, hreserved, hnonce⟩ := hformed
  have hother : (h.serial == fz.serial) = false := beq_eq_false_iff_ne.2 fun he => by simp [he] at hserial
  simp only [helloEffect, hexp, hversion, hreserved, hnonce, hother, Nat.lt_asymm hserial, Bool.not_true, bne_self_eq_false,
    Bool.or_self, Bool.false_eq_true, if_false]
  rfl

end

/-! ### KEM_KEY and KEM_CT (R347, R348) -/

/-- The link once the responder has queued its ciphertext and its chain. -/
def Link.answeredKey (l : Link) (key chain : Bytes) (e : Bytes × Bytes) : Link :=
  let ct := padTo 1568 e.1
  let x := ((l.note .kemKey).say .kemCt ct).say .cert chain
  { x with hs := { x.hs with kemKey := key, kemCt := ct, secret := e.2, myCert := chain } }

theorem kemKeyEffect_of_key {n : LinkId} {key : Bytes} {fz : Fuse} {d : Dev} (hexp : (d.link n).expects .kemKey [.hello] = true)
    (hrole : (d.link n).hs.initiator = false) (hlen : key.length = 1568) : kemKeyEffect n key fz d =
      d.draw.2.modLink n fun l => l.answeredKey key (d.linkChain fz) (Config.kemEncaps key d.draw.1) := by
  simp only [kemKeyEffect, hexp, hrole, hlen, Bool.not_true, bne_self_eq_false, Bool.or_self, Bool.false_eq_true, if_false]
  rfl

section
variable {n : LinkId} {ct : Bytes} {fz : Fuse} {d : Dev} (hexp : (d.link n).expects .kemCt [.hello] = true)
  (hrole : (d.link n).hs.initiator = true) (hlen : ct.length = 1568)
include hexp hrole hlen

theorem kemCtEffect_of_none (h : Config.kemDecaps (d.link n).hs.seed ct = none) : kemCtEffect n ct fz d = d.quarantine fz n 0x6001 := by
  simp only [kemCtEffect, hexp, hrole, hlen, h, Bool.not_true, bne_self_eq_false, Bool.or_self, Bool.false_eq_true, if_false]

theorem kemCtEffect_of_some {ss : Bytes} (h : Config.kemDecaps (d.link n).hs.seed ct = some ss) : kemCtEffect n ct fz d =
    d.modLink n fun l =>
      let l := (l.note .kemCt).say .cert (d.linkChain fz)
      { l with hs := { l.hs with kemCt := ct, secret := ss, myCert := d.linkChain fz } } := by
  simp only [kemCtEffect, hexp, hrole, hlen, h, Bool.not_true, bne_self_eq_false, Bool.or_self, Bool.false_eq_true, if_false]

end

/-! ### CERT, SIG and FINISHED (R348, R458) -/

section
variable {n : LinkId} {bs : Bytes} {fz : Fuse} {d : Dev}

section
variable (hexp : (d.link n).expects .cert [.hello, if (d.link n).hs.initiator then .kemCt else .kemKey] = true)
include hexp

theorem certEffect_of_bad (h : d.chainOk fz (d.link n).hs.peerSerial bs = false) : certEffect n bs fz d = d.quarantine fz n 0x6001 := by
  simp only [certEffect, hexp, h, Bool.not_true, Bool.not_false, Bool.false_eq_true, if_false, if_true]

theorem certEffect_of_good (h : d.chainOk fz (d.link n).hs.peerSerial bs = true) : certEffect n bs fz d = d.modLink n fun l =>
    let l := (l.note .cert).say .sig
      (padTo 1280 (Config.falconSign (d.fwid fz) (roleByte l.hs.initiator ++ (d.link n).hs.transcript bs)))
    { l with hs := { l.hs with peerCert := bs, digest := (d.link n).hs.transcript bs } } := by
  simp only [certEffect, hexp, h, Bool.not_true, Bool.false_eq_true, if_false]
  exact Dev.modLink_congr d n rfl

end

/-- SIG verifies under the key that the peer's chain names, over the peer's role and the transcript. -/
def Link.sigGood (l : Link) (bs : Bytes) : Bool :=
  Config.falconVerify (certKey (chainFwid l.hs.peerCert)) (roleByte (!l.hs.initiator) ++ l.hs.digest) bs

/-- The keys of the link's two directions, its own first. -/
def Link.freshKeys (l : Link) : Bytes × Bytes :=
  let ks := linkKeys l.hs.secret l.hs.digest []
  (if l.hs.initiator then ks.1 else ks.2, if l.hs.initiator then ks.2 else ks.1)

section
variable (hexp : (d.link n).expects .sig [.cert] = true) (hlen : bs.length = 1280)
include hexp hlen

theorem sigEffect_of_bad (h : (d.link n).sigGood bs = false) : sigEffect n bs fz d = d.quarantine fz n 0x6001 := by
  unfold Link.sigGood at h
  simp only [sigEffect, hexp, hlen, h, Bool.not_true, Bool.not_false, bne_self_eq_false, Bool.false_eq_true, if_false, if_true]

theorem sigEffect_of_good (h : (d.link n).sigGood bs = true) : sigEffect n bs fz d = d.modLink n fun l =>
    { l.note .sig with
      txKey := (d.link n).freshKeys.1, rxKey := (d.link n).freshKeys.2, keyEpoch := false, rxEpoch := false, txCount := 0 }.say .finished
        (Config.shake256 32 ((d.link n).freshKeys.1 ++ l.hs.digest)) := by
  unfold Link.sigGood at h
  simp only [sigEffect, hexp, hlen, h, Bool.not_true, bne_self_eq_false, Bool.false_eq_true, if_false]
  rfl

end

section
variable (hexp : (d.link n).expects .finished [.sig] = true)
include hexp

theorem finishedEffect_of_bad (h : bs ≠ Config.shake256 32 ((d.link n).rxKey ++ (d.link n).hs.digest)) :
    finishedEffect n bs fz d = d.quarantine fz n 0x6001 := by
  simp only [finishedEffect, hexp, bne_iff_ne.2 h, Bool.not_true, Bool.false_eq_true, if_false, if_true]

theorem finishedEffect_of_good (h : bs = Config.shake256 32 ((d.link n).rxKey ++ (d.link n).hs.digest)) :
    finishedEffect n bs fz d = (d.modLink n fun l => l.note .finished).tryUp fz n := by
  simp only [finishedEffect, hexp, ← h, Bool.not_true, bne_self_eq_false, Bool.false_eq_true, if_false]

end
end

/-- Settles O35: each message has its effect where the link expects it; serials, chain, signature and confirmation decide. -/
theorem handshakeAuthenticates : Obligations.HandshakeAuthenticates := by
  unfold Obligations.HandshakeAuthenticates
  intro n h bs s d l fz q
  refine ⟨fun hlate => ?_, fun hrun hexp hversion hreserved hnonce => ?_, fun hrun hexp hrole hlen => ?_, fun hrun hexp hrole hlen => ?_,
    fun hrun hexp => ?_, fun hrun hexp hlen => ?_, fun hrun hexp => ?_⟩
  · rw [exec_handshakeTimeout, onEvent_holds _ hlate]
    rfl
  · intro heard
    have hformed : HelloFormed h := ⟨hversion, hreserved, hnonce⟩
    rw [exec_hello, onEvent_holds _ (msgEnabled_of_expects hrun hexp)]
    refine ⟨fun hserial => ?_, fun hserial => ?_, fun hserial => ?_⟩
    · rw [helloEffect_of_loopback hexp hformed hserial]
    · rw [helloEffect_of_lower hexp hformed hserial]
      refine ⟨_, padTo 1568 (Config.kemPublic (leBytes 64 (d.modLink n fun l => l.heard h true).draw.1)), rfl, padTo_length .., ?_⟩
      rw [Dev.modLink_link, Dev.draw_link, Dev.modLink_link]
      exact ⟨rfl, rfl, rfl, rfl⟩
    · rw [helloEffect_of_higher hexp hformed hserial]
      rfl
  · rw [exec_kemKey, onEvent_holds _ (msgEnabled_of_expects hrun hexp)]
    rw [kemKeyEffect_of_key hexp hrole hlen]
    refine ⟨_, padTo 1568 (Config.kemEncaps bs d.draw.1).1, rfl, padTo_length .., ?_⟩
    rw [Dev.modLink_link, Dev.draw_link]
    exact ⟨rfl, rfl, rfl, rfl⟩
  · rw [exec_kemCt, onEvent_holds _ (msgEnabled_of_expects hrun hexp)]
    refine ⟨fun hnone => ?_, fun ss hsome => ?_⟩
    · rw [kemCtEffect_of_none hexp hrole hlen hnone]
    · rw [kemCtEffect_of_some hexp hrole hlen hsome]
  · rw [exec_cert, onEvent_holds _ (msgEnabled_of_expects hrun hexp)]
    refine ⟨fun hbad => ?_, fun hgood => ?_⟩
    · rw [certEffect_of_bad hexp hbad]
    · rw [certEffect_of_good hexp hgood]
  · rw [exec_sig, onEvent_holds _ (msgEnabled_of_expects hrun hexp)]
    refine ⟨fun hbad => ?_, fun hgood => ?_⟩
    · rw [sigEffect_of_bad hexp hlen hbad]
    · rw [sigEffect_of_good hexp hlen hgood]
      rfl
  · rw [exec_finished, onEvent_holds _ (msgEnabled_of_expects hrun hexp)]
    refine ⟨fun hbad => ?_, fun hgood => ?_⟩
    · rw [finishedEffect_of_bad hexp hbad]
    · rw [finishedEffect_of_good hexp hgood]

/-! ### Rekeying (R350, R351, R480) -/

theorem exec_rekeyReq (n : LinkId) (s : State) : exec (.rekeyReq n) s = onEvent s (msgEnabled n .up) (rekeyReqEffect n) := rfl

theorem exec_rekeyTrigger (n : LinkId) (s : State) : exec (.rekeyTrigger n) s = onEvent s (rekeyDue n) (rekeyTriggerEffect n) := rfl

theorem exec_rekeyKey (n : LinkId) (bs : Bytes) (s : State) :
    exec (.rekeyKey n bs) s = onEvent s (msgEnabled n .up) (rekeyKeyEffect n bs) := rfl

theorem exec_rekeyCt (n : LinkId) (bs : Bytes) (s : State) :
    exec (.rekeyCt n bs) s = onEvent s (msgEnabled n .up) (rekeyCtEffect n bs) := rfl

/-- The link once the initiator has started a rekey with a key of the seed. -/
def Link.askedRekey (l : Link) (seed : Bytes) (now : Nat) : Link :=
  let key := padTo 1568 (Config.kemPublic seed)
  { l with rekeying := true, hs := { l.hs with seed := seed, kemKey := key, since := now } }.say .rekeyKey key

/-- The link once the responder holds both new keys and has queued its ciphertext. -/
def Link.answeredRekey (l : Link) (key : Bytes) (e : Bytes × Bytes) (now : Nat) : Link :=
  let ct := padTo 1568 e.1
  let x := { l with rekeying := true, hs := { l.hs with kemKey := key, since := now } }
  { x with txNew := some (x.rekeyed e.2 ct).1, rxNew := some (x.rekeyed e.2 ct).2 }.say .rekeyCt ct

section
variable {n : LinkId} {fz : Fuse} {d : Dev}

theorem Dev.startRekey_of_noEntropy (h : d.entropyOk = false) : d.startRekey fz n = d.linkDown fz n := by
  simp only [startRekey, h, Bool.not_false, if_true]

theorem Dev.startRekey_of_entropy (h : d.entropyOk = true) :
    d.startRekey fz n = d.draw.2.modLink n fun l => l.askedRekey (leBytes 64 d.draw.1) d.now := by
  simp only [startRekey, h, Bool.not_true, Bool.false_eq_true, if_false]
  rfl

theorem rekeyReqEffect_of_ignored (h : (d.link n).hs.initiator = false ∨ (d.link n).rekeying = true) : rekeyReqEffect n fz d = d := by
  rcases h with h | h <;> simp [rekeyReqEffect, h]

theorem rekeyReqEffect_of_initiator (hup : (d.link n).state = .up) (hrole : (d.link n).hs.initiator = true)
    (hidle : (d.link n).rekeying = false) : rekeyReqEffect n fz d = d.startRekey fz n := by
  simp only [rekeyReqEffect, hup, hrole, hidle, bne_self_eq_false, Bool.not_true, Bool.or_self, Bool.false_eq_true, if_false]

theorem rekeyTriggerEffect_of_initiator (h : (d.link n).hs.initiator = true) : rekeyTriggerEffect n fz d = d.startRekey fz n := by
  simp only [rekeyTriggerEffect, h, if_true]

theorem rekeyTriggerEffect_of_responder (h : (d.link n).hs.initiator = false) :
    rekeyTriggerEffect n fz d = d.modLink n fun l => l.say .rekeyReq [] := by
  simp only [rekeyTriggerEffect, h, Bool.false_eq_true, if_false]

section
variable {key : Bytes} (hup : (d.link n).state = .up) (hrole : (d.link n).hs.initiator = false) (hidle : (d.link n).rekeying = false)
  (hlen : key.length = 1568)
include hup hrole hidle hlen

theorem rekeyKeyEffect_of_noEntropy (h : d.entropyOk = false) : rekeyKeyEffect n key fz d = d.linkDown fz n := by
  simp only [rekeyKeyEffect, hup, hrole, hidle, hlen, h, bne_self_eq_false, Bool.or_self, Bool.not_false, Bool.false_eq_true, if_false,
    if_true]

theorem rekeyKeyEffect_of_entropy (h : d.entropyOk = true) : rekeyKeyEffect n key fz d =
    d.draw.2.modLink n fun l => l.answeredRekey key (Config.kemEncaps key d.draw.1) d.now := by
  simp only [rekeyKeyEffect, hup, hrole, hidle, hlen, h, bne_self_eq_false, Bool.or_self, Bool.not_true, Bool.false_eq_true, if_false]
  rfl

end

section
variable {ct : Bytes} (hup : (d.link n).state = .up) (hrole : (d.link n).hs.initiator = true) (hopen : (d.link n).rekeying = true)
  (hnew : (d.link n).rxNew = none) (hlen : ct.length = 1568)
include hup hrole hopen hnew hlen

theorem rekeyCtEffect_of_none (h : Config.kemDecaps (d.link n).hs.seed ct = none) : rekeyCtEffect n ct fz d = d.linkDown fz n := by
  simp only [rekeyCtEffect, hup, hrole, hopen, hnew, hlen, h, bne_self_eq_false, Option.isSome_none, Bool.not_true, Bool.or_self,
    Bool.false_eq_true, if_false]

theorem rekeyCtEffect_of_some {ss : Bytes} (h : Config.kemDecaps (d.link n).hs.seed ct = some ss) : rekeyCtEffect n ct fz d =
    d.modLink n fun l =>
      let ks := l.rekeyed ss ct
      { l with txKey := ks.1, rxNew := some ks.2, keyEpoch := !l.keyEpoch, txCount := 0 } := by
  simp only [rekeyCtEffect, hup, hrole, hopen, hnew, hlen, h, bne_self_eq_false, Option.isSome_none, Bool.not_true, Bool.or_self,
    Bool.false_eq_true, if_false]

end
end

/-- A start of a rekey: the link goes to DOWN without entropy, and else is rekeying and has queued its fresh key. -/
theorem Dev.startRekey_starts (d : Dev) (fz : Fuse) (n : LinkId) : (d.entropyOk = false → d.startRekey fz n = d.linkDown fz n) ∧
    (d.entropyOk = true → ∃ key : Bytes, key.length = 1568 ∧ ((d.startRekey fz n).link n).rekeying = true ∧
      ((d.startRekey fz n).link n).txFrags = (d.link n).txFrags ++ fragsOf 7 key ∧
      ((d.startRekey fz n).link n).hs.since = d.now ∧ ((d.startRekey fz n).link n).txKey = (d.link n).txKey) := by
  refine ⟨startRekey_of_noEntropy, fun h => ⟨padTo 1568 (Config.kemPublic (leBytes 64 d.draw.1)), padTo_length .., ?_⟩⟩
  rw [startRekey_of_entropy h, modLink_link, draw_link]
  exact ⟨rfl, rfl, rfl, rfl⟩

/-- Settles O36: roles, a rekey under way and entropy decide; the two ways to start one lead to the same operation. -/
theorem rekeyReplacesKeys : Obligations.RekeyReplacesKeys := by
  unfold Obligations.RekeyReplacesKeys
  intro n bs s hrun hup d l fz starts
  have hstarts {i : Instr} (h : exec i s = .next (s.put (d.startRekey fz n))) : starts i := by
    obtain ⟨hdown, hstart⟩ := d.startRekey_starts fz n
    refine ⟨fun hno => by rw [h, hdown hno], fun hok => ?_⟩
    obtain ⟨key, hkey⟩ := hstart hok
    exact ⟨_, key, h, hkey⟩
  have hen : msgEnabled n .up s.dev = true := msgEnabled_of_state hrun hup
  rw [exec_rekeyReq, exec_rekeyTrigger, exec_rekeyKey, exec_rekeyCt, onEvent_holds _ hen, onEvent_holds _ hen, onEvent_holds _ hen]
  refine ⟨fun hignored => ?_, fun hrole hidle => ?_, fun hdue hrole => ?_, fun hdue hrole => ?_,
    fun hrole hidle hlen => ⟨fun hno => ?_, fun hok => ?_⟩, fun hrole hopen hnew hlen => ⟨fun hnone => ?_, fun ss hsome => ?_⟩⟩
  · rw [rekeyReqEffect_of_ignored hignored, State.put_self]
  · exact hstarts (by rw [exec_rekeyReq, onEvent_holds _ hen, rekeyReqEffect_of_initiator hup hrole hidle])
  · exact hstarts (by rw [exec_rekeyTrigger, onEvent_holds _ hdue, rekeyTriggerEffect_of_initiator hrole])
  · rw [onEvent_holds _ hdue, rekeyTriggerEffect_of_responder hrole]
  · rw [rekeyKeyEffect_of_noEntropy hup hrole hidle hlen hno]
  · rw [rekeyKeyEffect_of_entropy hup hrole hidle hlen hok]
    refine ⟨_, padTo 1568 (Config.kemEncaps bs d.draw.1).1, rfl, padTo_length .., ?_⟩
    rw [Dev.modLink_link, Dev.draw_link]
    exact ⟨rfl, rfl, rfl, rfl, rfl⟩
  · rw [rekeyCtEffect_of_none hup hrole hopen hnew hlen hnone]
  · rw [rekeyCtEffect_of_some hup hrole hopen hnew hlen hsome]

end Sys2Proof.Machine
end

section
/-!
PROOFS. What a command can do to fuses and flash, and the queue of commands (R424, R434, R451, R452, R459, R461, R478): the changes of the
fuses, the commands that make them, and the statements about every step.
-/
namespace Sys2Proof.Machine

/-! ### Elements by number -/

theorem vgetN_val {α : Type} {n : Nat} (v : Vector α n) (i : Fin n) (x : α) : vgetN v i.val x = v[i] := by
  simp [vgetN]

theorem vsetN_ne {α : Type} {n : Nat} (v : Vector α n) (i : Fin n) (j : Nat) (x : α) (h : i.val ≠ j) : (vsetN v j x)[i] = v[i] := by
  by_cases hj : j < n
  · simp [vsetN, vmodN, hj, h.symm]
  · simp [vsetN, vmodN, hj]

/-! ### Changes of the fuses -/

/-- A change that a command can make to fuses and flash: firmware slots are written, the floor rises at boot (R478), a row is added to
every setting bank while there is room (R461), an unowned device takes keys and with FINISH an owner (R459), or it is retired (R452). -/
inductive Fuse.Change (a : Fuse) : Fuse → Prop
  | slots (v : Vector (Option Bytes) 2) : Fuse.Change a { a with slots := v }
  | floor (x y : Bytes) : Fuse.Change a { a with svnFloor := risenFloor a x y }
  | setting (e : Env) (he : e.fz = a) (hroom : ∀ b ∈ a.banks.toList, b.length < 1024) : Fuse.Change a (settingWriteEffect e)
  | provision (e : Env) (st : TrustStore) (he : e.fz = a) (hcycle : a.lifecycle = .unprovisioned) (hst : e.newStore = some st)
      (howner : e.f 8 1 ≠ 0 → st.owner.isSome = true) : Fuse.Change a (provisionEffect e st)
  | retire (hcycle : a.lifecycle = .unprovisioned ∨ a.lifecycle = .provisioned) : Fuse.Change a a.retired

theorem Fuse.Change.refl (a : Fuse) : a.Change a := .slots a.slots

/-- Every key of one trust store is in another. -/
def TrustStore.Within (s t : TrustStore) : Prop :=
  (∀ k, s.owner = some k → t.owner = some k) ∧ ∀ (i : Fin 8) k, s.signers[i] = some k → t.signers[i] = some k

theorem TrustStore.Within.trans {s t u : TrustStore} (h : s.Within t) (g : t.Within u) : s.Within u :=
  ⟨fun k hk => g.1 k (h.1 k hk), fun i k hk => g.2 i k (h.2 i k hk)⟩

/-- A key that is added joins those that are there (R459). -/
theorem addKey_within {s t : TrustStore} {k : KeyEntry} (h : addKey s k = some t) : s.Within t := by
  unfold addKey at h
  split at h
  · split at h
    · cases h
    · rename_i hnone
      cases h
      exact ⟨fun x hx => absurd (by simp [hx]) hnone, fun _ _ hx => hx⟩
  · split at h
    · cases h
    · rename_i hnone
      cases h
      refine ⟨fun _ hx => hx, fun i x hx => ?_⟩
      have hi : i.val ≠ k.slot := fun hi => hnone (by rw [← hi, vgetN_val, hx]; rfl)
      rw [← hx]
      exact vsetN_ne _ i _ _ hi

theorem newStore_within {e : Env} {t : TrustStore} (h : e.newStore = some t) : e.fz.store.Within t := by
  unfold Env.newStore at h
  generalize e.keyEntries = l at h
  generalize e.fz.store = s at h
  induction l generalizing s with
  | nil => cases h; exact ⟨fun _ hk => hk, fun _ _ hk => hk⟩
  | cons k l ih =>
    rw [List.foldlM_cons] at h
    obtain ⟨u, hu, hl⟩ := Option.bind_eq_some_iff.mp h
    exact (addKey_within hu).trans (ih u hl)

theorem risenFloor_le (a : Fuse) (x y : Bytes) (h : a.svnFloor ≤ 255) : risenFloor a x y ≤ 255 := by
  unfold risenFloor
  dsimp only
  split <;> omega

/-- The floor never falls where it lies within its 256 steps, or where a signed firmware of a version beyond them does not exist. -/
theorem le_risenFloor (a : Fuse) (x y : Bytes)
    (h : a.svnFloor ≤ 255 ∨ (slotSigned x = true → Config.fwSecurityVersion x ≤ 256)) : a.svnFloor ≤ risenFloor a x y := by
  unfold risenFloor
  dsimp only
  split
  · rename_i hrise
    simp only [Bool.and_eq_true, decide_eq_true_eq] at hrise
    obtain ⟨⟨⟨hx, _⟩, hlx⟩, hly⟩ := hrise
    have := h.imp_right fun hv => hv hx
    omega
  · exact Nat.le_refl _

/-- PROVISION without FINISH adds keys alone. -/
theorem provisionEffect_open {e : Env} (st : TrustStore) (h : e.f 8 1 = 0) : provisionEffect e st = { e.fz with store := st } := by
  simp [provisionEffect, h]

/-- PROVISION with FINISH names the owner. -/
theorem provisionEffect_finish {e : Env} (st : TrustStore) (h : e.f 8 1 ≠ 0) : provisionEffect e st = { e.fz with
    store := { st with kemCert := kemCertOf { e.fz with store := st } (e.fz.ownerEpoch + 1) (keyId (st.owner.getD [])) }
    ownerId := some (keyId (st.owner.getD [])), trustDigest := Config.shake256 64 st.bytes
    ownerEpoch := e.fz.ownerEpoch + 1, lifecycle := .provisioned } := by
  simp [provisionEffect, h]

/-- Every change keeps the invariant of the fuses. -/
theorem Fuse.Change.inv {a b : Fuse} (h : a.Change b) (hinv : a.Inv) : b.Inv := by
  obtain ⟨hfloor, hb01, hb12, hrows, howned, hkey, hblown⟩ := hinv
  cases h with
  | slots v => exact ⟨hfloor, hb01, hb12, hrows, howned, hkey, hblown⟩
  | floor x y => exact ⟨risenFloor_le a x y hfloor, hb01, hb12, hrows, howned, hkey, hblown⟩
  | setting e he hroom =>
    subst he
    have hlen : (e.fz.banks[0]).length < 1024 := hroom _ (by simp)
    refine ⟨hfloor, ?_, ?_, ?_, howned, hkey, hblown⟩
    · simp [settingWriteEffect, hb01]
    · simp [settingWriteEffect, hb12]
    · simp [settingWriteEffect]; omega
  | provision e st he hcycle hst howner =>
    subst he
    by_cases hfin : e.f 8 1 = 0
    · rw [provisionEffect_open st hfin]
      exact ⟨hfloor, hb01, hb12, hrows, howned, fun h => absurd (hcycle.symm.trans h) nofun, hblown⟩
    · rw [provisionEffect_finish st hfin]
      exact ⟨hfloor, hb01, hb12, hrows, by simp, fun _ => howner hfin, nofun⟩
  | retire hcycle => exact ⟨hfloor, hb01, hb12, hrows, by simp [Fuse.retired], nofun, fun _ => rfl⟩

/-- Every change moves the fuses on, as long as the floor does not fall. -/
theorem Fuse.Change.onward {a b : Fuse} (h : a.Change b) (hfloor : ∀ x y, a.svnFloor ≤ risenFloor a x y) : a.Onward b := by
  cases h with
  | slots v => simp [Fuse.Onward]
  | floor x y => simp [Fuse.Onward, hfloor]
  | setting e he hroom => subst he; simp [Fuse.Onward, settingWriteEffect]
  | provision e st he hcycle hst howner =>
    subst he
    obtain ⟨hown, hsign⟩ := newStore_within hst
    by_cases hfin : e.f 8 1 = 0
    · rw [provisionEffect_open st hfin]
      exact ⟨rfl, rfl, rfl, Nat.le_refl _, Nat.le_refl _, id, fun _ => List.prefix_rfl, hown, hsign⟩
    · rw [provisionEffect_finish st hfin]
      exact ⟨rfl, rfl, rfl, by simp [hcycle, Lifecycle.code], Nat.le_refl _, id, fun _ => List.prefix_rfl, hown, hsign⟩
  | retire hcycle =>
    refine ⟨rfl, rfl, rfl, ?_, Nat.le_refl _, fun _ => rfl, fun _ => List.prefix_rfl, fun _ h => h, fun _ _ h => h⟩
    rcases hcycle with h | h <;> simp [Fuse.retired, h, Lifecycle.code]

/-! ### Rows of R427 -/

/-- What a row makes of the fuses, where the life cycle admits it and its checks hold, is a change of them. -/
def Cmd.Moves (c : Cmd) : Prop :=
  ∀ e : Env, c.states.contains e.fz.lifecycle = true → (∀ x ∈ c.checks e, x.1 = true) → e.fz.Change (c.run e).1

theorem Cmd.moves_of_keeps {c : Cmd} (h : ∀ e, (c.run e).1 = e.fz) : c.Moves := fun e _ _ => by
  rw [h]; exact .refl _

theorem Cmd.perform_change {c : Cmd} (hc : c.Moves) (port : Port) (hw : Bool) (fz : Fuse) (d : Dev) :
    fz.Change (c.perform port hw fz d).1 := by
  unfold Cmd.perform Cmd.answer
  dsimp only
  split
  · exact .refl _
  · rename_i hfirst
    split
    · exact .refl _
    · rename_i hwoken
      refine hc _ ?_ (firstBad_none.mp hwoken)
      have hstates := firstBad_none.mp hfirst (_, stWrong) (by
        simp only [Cmd.entry, List.mem_append, List.mem_cons]
        exact .inl (.inl (.inr (.inr (.inl rfl)))))
      exact (Bool.and_eq_true_iff.mp hstates).1

theorem paddockCreateCmd_keeps (e : Env) : (paddockCreateCmd.run e).1 = e.fz := by
  simp only [paddockCreateCmd]
  split <;> rfl

theorem opAnswer_keeps (e : Env) (r : Option Dev) : (opAnswer e (r.map fun d => (e.fz, d))).1 = e.fz := by
  cases r <;> rfl

theorem sessionOpenRun_keeps (e : Env) : (sessionOpenRun e).1 = e.fz := by
  unfold sessionOpenRun
  split <;> rfl

/-- CANCEL_OP erases a firmware slot at most (R419). -/
theorem cancelOp_change {i : Fin 64} {a b : Fuse} {d d' : Dev} (h : cancelOp i a d = some (b, d')) : a.Change b := by
  unfold cancelOp at h
  dsimp only at h
  split at h
  case h_1 => cases h; exact .refl _
  case h_2 | h_3 =>
    have h := Option.some.inj h
    split at h <;> cases h
    case h_4 => exact .slots _
    all_goals exact .refl _
  case h_4 | h_5 =>
    have h := Option.some.inj h
    split at h <;> cases h <;> exact .refl _
  case h_6 => cases h

theorem cancelOpCmd_moves : cancelOpCmd.Moves := fun e _ _ => by
  show e.fz.Change (opAnswer e (cancelOp e.slot e.fz e.d)).1
  cases h : cancelOp e.slot e.fz e.d with
  | none => exact .refl _
  | some r => exact cancelOp_change h

theorem fwStageCmd_moves : fwStageCmd.Moves := fun _ _ _ => .slots _

theorem settingWriteCmd_moves : settingWriteCmd.Moves := fun e _ hchecks => by
  have hroom := hchecks (need (e.fz.banks.toList.all fun b => b.length < 1024) stNoRes) (by simp [settingWriteCmd])
  refine .setting e rfl fun b hb => ?_
  simpa using List.all_eq_true.mp hroom b hb

theorem provisionCmd_moves : provisionCmd.Moves := fun e hcycle hchecks => by
  have hstore := hchecks (need e.newStore.isSome stMalformed) (by simp [provisionCmd])
  have howner := hchecks (need (e.f 8 1 == 0 || ((e.newStore.map fun s => s.owner.isSome).getD false)) stMalformed)
    (by simp [provisionCmd])
  obtain ⟨st, hst⟩ := Option.isSome_iff_exists.mp hstore
  have hrun : (provisionCmd.run e).1 = provisionEffect e st := by simp [provisionCmd, hst]
  rw [hrun]
  refine .provision e st rfl (by simpa [provisionCmd, eq_comm] using hcycle) hst fun hfin => ?_
  simpa [need, hst, hfin] using howner

theorem retireCmd_moves : retireCmd.Moves := fun e hcycle _ => .retire (by simpa [retireCmd] using hcycle)

/-- Every row of R427 makes a change of the fuses, or none. -/
theorem worvisRow_moves {i : Instr} {c : Cmd} {port : Port} {hw : Bool} (h : worvisRow i = some (c, port, hw)) : c.Moves := by
  unfold worvisRow at h
  split at h <;> cases h
  case h_4 => exact Cmd.moves_of_keeps paddockCreateCmd_keeps
  case h_17 => exact Cmd.moves_of_keeps fun e => opAnswer_keeps e (e.d.suspendOp e.slot)
  case h_18 => exact Cmd.moves_of_keeps fun e => opAnswer_keeps e (e.d.resumeOp e.slot)
  case h_19 => exact cancelOpCmd_moves
  case h_25 => exact Cmd.moves_of_keeps sessionOpenRun_keeps
  case h_34 => exact fwStageCmd_moves
  case h_38 => exact settingWriteCmd_moves
  case h_42 => exact provisionCmd_moves
  case h_43 => exact retireCmd_moves
  all_goals exact Cmd.moves_of_keeps fun _ => rfl

/-- A command of Worvis is its row, performed. -/
theorem exec_worvisRow {i : Instr} {c : Cmd} {port : Port} {hw : Bool} (h : worvisRow i = some (c, port, hw)) (s : State) :
    exec i s = c.exec port hw s := by
  unfold worvisRow at h
  split at h <;> cases h <;> rfl

/-! ### Every command -/

/-- What is neither a row of R427 nor one of the three events that may write fuses or flash acts on the device alone. -/
theorem exec_onDev {i : Instr} (hrow : worvisRow i = none) (hpoint : ∀ slot, i ≠ .opPointReached slot)
    (hcomplete : ∀ slot code, i ≠ .opComplete slot code) (hchoice : ∀ a b u st ok, i ≠ .firmwareSlotChoice a b u st ok) (s : State) :
    ∃ d, exec i s = .next (s.put d) := by
  cases i
  case opPointReached slot => exact absurd rfl (hpoint slot)
  case opComplete slot code => exact absurd rfl (hcomplete slot code)
  case firmwareSlotChoice a b u st ok => exact absurd rfl (hchoice a b u st ok)
  all_goals first | exact absurd hrow (Option.some_ne_none _) | exact ⟨_, rfl⟩

theorem pointEffect_change (slot : Fin 64) (fz : Fuse) (d : Dev) : fz.Change (pointEffect slot fz d).1 := by
  unfold pointEffect
  dsimp only
  split
  case h_1 => split <;> exact .refl _
  case h_6 => exact .slots _
  all_goals exact .refl _

theorem stageEffect_change (slot : Fin 64) (code : BitVec 16) (fz : Fuse) (d : Dev) : fz.Change (stageEffect slot code fz d).1 := by
  unfold stageEffect
  dsimp only
  rw [apply_ite Prod.fst]
  simp only [ite_self]
  exact .slots _

theorem completeEffect_change (slot : Fin 64) (code : BitVec 16) (fz : Fuse) (d : Dev) :
    fz.Change (completeEffect slot code fz d).1 := by
  unfold completeEffect
  dsimp only
  split
  · exact stageEffect_change slot code fz d
  · split
    · exact .refl _
    · split <;> exact .refl _

theorem slotChoiceEffect_floor (a b : Bytes) (unclean : List (Fin 3 × Nat)) (store : Bytes) (ok : Bool) (fz : Fuse) (d : Dev) :
    (slotChoiceEffect a b unclean store ok fz d).1 = { fz with svnFloor := risenFloor fz a b } := by
  unfold slotChoiceEffect
  dsimp only
  split <;> rfl

theorem slotChoiceEffect_change (a b : Bytes) (unclean : List (Fin 3 × Nat)) (store : Bytes) (ok : Bool) (fz : Fuse) (d : Dev) :
    fz.Change (slotChoiceEffect a b unclean store ok fz d).1 := by
  rw [slotChoiceEffect_floor]
  exact .floor _ _

theorem exec_firmwareSlotChoice (a b : SlotImage) (unclean : List (Fin 3 × Nat)) (store : Option Bytes) (ok : Bool) (s : State) :
    exec (.firmwareSlotChoice a b unclean store ok) s = onBoth s (fun d => d.stage == .rom) fun fz d =>
      slotChoiceEffect (slotBytes fz 0 a) (slotBytes fz 1 b) unclean (store.getD fz.store.bytes) ok fz d := rfl

/-- An event that may write fuses or flash answers a next state with the queue as before. -/
theorem onBoth_change {f : Fuse → Dev → Fuse × Dev} (s : State) (en : Dev → Bool) (h : s.fuse.Change (f s.fuse s.dev).1) :
    ∃ t, onBoth s en f = .next t ∧ t.pending = s.pending ∧ s.fuse.Change t.fuse := by
  cases hen : en s.dev with
  | true => exact ⟨_, onBoth_holds f hen, rfl, h⟩
  | false => exact ⟨_, onBoth_fails f hen, rfl, .refl _⟩

/-- Every command answers a next state; it leaves the queue, and of the fuses makes at most one change. -/
theorem exec_next (i : Instr) (s : State) : ∃ t, exec i s = .next t ∧ t.pending = s.pending ∧ s.fuse.Change t.fuse := by
  by_cases hpoint : ∃ slot, i = .opPointReached slot
  · obtain ⟨slot, rfl⟩ := hpoint
    exact onBoth_change s _ (pointEffect_change slot _ _)
  by_cases hcomplete : ∃ slot code, i = .opComplete slot code
  · obtain ⟨slot, code, rfl⟩ := hcomplete
    exact onBoth_change s _ (completeEffect_change slot code _ _)
  by_cases hchoice : ∃ a b u st ok, i = .firmwareSlotChoice a b u st ok
  · obtain ⟨a, b, u, st, ok, rfl⟩ := hchoice
    rw [exec_firmwareSlotChoice]
    exact onBoth_change s _ (slotChoiceEffect_change ..)
  cases hrow : worvisRow i with
  | some r =>
    rw [exec_worvisRow hrow]
    exact onBoth_change s _ (Cmd.perform_change (worvisRow_moves hrow) _ _ _ _)
  | none =>
    push Not at hpoint hcomplete hchoice
    obtain ⟨d, hd⟩ := exec_onDev hrow hpoint hcomplete hchoice s
    exact ⟨_, hd, rfl, .refl _⟩

/-- On an empty queue a step is one period of the root clock. -/
theorem step_of_nil {s : State} (h : s.pending = []) : step s = .next (s.put s.dev.tick) := by
  obtain ⟨fz, d, q⟩ := s
  cases h
  rfl

theorem step_of_cons {s : State} {c : Instr} {rest : List Instr} (h : s.pending = c :: rest) :
    step s = exec c { s with pending := rest } := by
  obtain ⟨fz, d, q⟩ := s
  cases h
  rfl

/-- Every step answers a next state, takes the front command off the queue, and of the fuses makes at most one change. -/
theorem step_next (s : State) : ∃ t, step s = .next t ∧ t.pending = s.pending.tail ∧ s.fuse.Change t.fuse := by
  cases h : s.pending with
  | nil => exact ⟨_, step_of_nil h, h, .refl _⟩
  | cons c rest =>
    rw [step_of_cons h]
    exact exec_next c { s with pending := rest }

theorem step_change {s t : State} (h : step s = .next t) : s.fuse.Change t.fuse := by
  obtain ⟨u, hu, _, hchange⟩ := step_next s
  cases h.symm.trans hu
  exact hchange

/-! ### The statements -/

/-- Settles O1: the queue's front is the command that `step` runs. -/
theorem stepRunsFrontCommand : Obligations.StepRunsFrontCommand := fun _ _ => rfl

/-- Settles O2: no command stops a run or touches the queue, and an empty queue is a tick. -/
theorem everyStepAnswersNext : Obligations.EveryStepAnswersNext := by
  unfold Obligations.EveryStepAnswersNext
  refine ⟨fun s => ?_, fun s h => ?_⟩
  · obtain ⟨t, ht, hqueue, _⟩ := step_next s
    exact ⟨t, ht, hqueue⟩
  · exact step_of_nil h

/-- Settles O57: nothing is written yet, and the part is unowned. -/
theorem fusesMeetInvariantAtReset : Obligations.FusesMeetInvariantAtReset := by
  unfold Obligations.FusesMeetInvariantAtReset Fuse.Inv
  decide

/-- Settles O58: a step makes at most one change of the fuses, and every change keeps the invariant. -/
theorem everyStepKeepsFuseInvariant : Obligations.EveryStepKeepsFuseInvariant := fun _ _ hinv h => (step_change h).inv hinv

theorem Fuse.testPort_access (fz : Fuse) : fz.testPort = .access ↔ fz.lifecycle = .manufacture := by
  unfold Fuse.testPort
  cases fz.lifecycle <;> simp

theorem Fuse.testPort_idCode {fz : Fuse} (h : fz.lifecycle ≠ .manufacture) : fz.testPort = .idCode Config.testIdCode := by
  simp [Fuse.testPort, h]

/-- The life cycle never returns to MANUFACTURE, so a test port that is shut stays shut (R477). -/
theorem Fuse.Onward.testPort {a b : Fuse} (h : a.Onward b) (hshut : a.testPort ≠ .access) : b.testPort = .idCode Config.testIdCode := by
  obtain ⟨_, _, _, hcycle, _⟩ := h
  refine Fuse.testPort_idCode fun hb => hshut ((Fuse.testPort_access a).mpr ?_)
  rw [hb] at hcycle
  cases ha : a.lifecycle <;> simp [ha, Lifecycle.code] at hcycle ⊢

/-- A step from fuses that meet their invariant moves them on. -/
theorem step_movesFusesOnward {s t : State} (hinv : s.fuse.Inv) (h : step s = .next t) : s.fuse.Onward t.fuse :=
  (step_change h).onward fun x y => le_risenFloor s.fuse x y (.inl hinv.1)

/-- Two copies of a signed firmware whose version exceeds 256 take a floor of 256 steps, which no fuse holds, down to 255. -/
theorem risenFloor_falls {x : Bytes} (hx : slotSigned x = true) (hv : 256 < Config.fwSecurityVersion x) :
    risenFloor { svnFloor := 256 } x x = 255 := by
  simp only [risenFloor, hx, hv, Bool.and_self, decide_true, if_true]
  omega

/-- O59 hangs on what no proof can see: it speaks of every state, those with a floor beyond its 256 steps among them, and holds
exactly if no firmware with a version beyond 256 is signed, of which `Config` leaves both open. -/
theorem everyStepMovesFusesOnward_iff : Obligations.EveryStepMovesFusesOnward ↔
    ∀ x, slotSigned x = true → Config.fwSecurityVersion x ≤ 256 := by
  unfold Obligations.EveryStepMovesFusesOnward
  refine ⟨fun ⟨h, _⟩ x hx => Nat.le_of_not_lt fun hv => ?_, fun h => ⟨fun s t hstep => ?_, Fuse.testPort_access⟩⟩
  · obtain ⟨t, ht⟩ : ∃ t, step { fuse := { svnFloor := 256 }, dev := { stage := .rom }
                                 pending := [.firmwareSlotChoice x x [] none true] } = .next t := ⟨_, rfl⟩
    obtain ⟨⟨_, _, _, _, hfloor, _⟩, _⟩ := h _ t ht
    have hfuse : t.fuse = { svnFloor := risenFloor { svnFloor := 256 } x x } := by
      cases ht
      exact slotChoiceEffect_floor ..
    rw [hfuse, risenFloor_falls hx hv] at hfloor
    exact Nat.not_succ_le_self 255 hfloor
  · have honward := (step_change hstep).onward fun x y => le_risenFloor s.fuse x y (.inr (h x))
    exact ⟨honward, honward.testPort⟩

end Sys2Proof.Machine
end

section
/-!
PROOFS. The check order (R424) and the commands that Worvis answers (R405 to R434, R443, R452, R459 to R468): what a row does with a
command that fails a check and with one that is accepted, what each row's effect is, and the statements about them.
-/
namespace Sys2Proof.Machine

/-! ### The check order (R424) -/

/-- The answer of a command that a check has stopped: the carrier holds the status, under a tag unless the session failed. -/
def State.stopped (s : State) (port : Port) (d : Dev) (st : Nat) (tag : Bool) : State :=
  s.put ((d.countCmd (s.env port).sess st).respond port ((s.env port).reply { status := st } tag))

theorem firstBad_append_of_some {a b : List (Bool × Nat)} {st : Nat} (h : firstBad a = some st) : firstBad (a ++ b) = some st := by
  rw [firstBad_append, h, Option.some_or]

theorem firstBad_append_of_none {a b : List (Bool × Nat)} (h : firstBad a = none) : firstBad (a ++ b) = firstBad b := by
  rw [firstBad_append, h, Option.none_or]

section
variable {c : Cmd} {port : Port} {hw : Bool} {s : State} {st : Nat}

/-- A row that is waited for performs the command: its answer, counted, stands in the carrier. -/
theorem Cmd.exec_waits (h : c.waits port s.dev = true) : c.exec port hw s = .next
    { s with
      fuse := (c.answer (s.env port) hw).1
      dev := ((c.answer (s.env port) hw).2.1.countCmd (s.env port).sess (c.answer (s.env port) hw).2.2.status).respond port
        ((s.env port).reply (c.answer (s.env port) hw).2.2 !(firstBad (c.entry (s.env port)) == some stAuth)) } :=
  onBoth_holds _ h

theorem Cmd.answer_of_bad (h : firstBad (c.entry (s.env port) ++ c.checks (s.env port) ++ [(!hw, stDevice)]) = some st) :
    c.answer (s.env port) hw = (s.fuse, s.dev, { status := st }) := by
  simp only [Cmd.answer, h]
  rfl

theorem Cmd.answer_of_woken (h : firstBad (c.entry (s.env port) ++ c.checks (s.env port) ++ [(!hw, stDevice)]) = none)
    (hbad : firstBad (c.checks (c.woken (s.env port))) = some st) :
    c.answer (s.env port) hw = (s.fuse, c.wakes (s.env port), { status := st }) := by
  simp only [Cmd.answer, h, hbad]
  rfl

theorem Cmd.exec_of_answer {d : Dev} (hwait : c.waits port s.dev = true)
    (h : c.answer (s.env port) hw = (s.fuse, d, { status := st })) :
    c.exec port hw s = .next (s.stopped port d st !(firstBad (c.entry (s.env port)) == some stAuth)) := by
  rw [Cmd.exec_waits hwait, h]
  rfl

theorem firstBad_entry_none (h : ∀ x ∈ c.entry (s.env port) ++ c.checks (s.env port), x.1 = true) :
    firstBad (c.entry (s.env port)) = none :=
  firstBad_none.mpr fun x hx => h x (List.mem_append_left _ hx)

end

/-- Settles O50: the place of the first check that fails decides the answer, and whether its tag is sent. -/
theorem firstFailedCheckAnswers : Obligations.FirstFailedCheckAnswers := by
  unfold Obligations.FirstFailedCheckAnswers
  intro i c port hw st s hrow e answer
  rw [exec_worvisRow hrow]
  refine ⟨Cmd.exec_idle, fun hwait hbad => ?_, fun hwait hentry hbad => ?_, fun hwait hall hhw => ?_, fun hwait hall hhw hbad => ?_⟩
  · have hfirst := firstBad_append_of_some (b := [(!hw, stDevice)]) (firstBad_append_of_some (b := c.checks e) hbad)
    rw [Cmd.exec_of_answer hwait (Cmd.answer_of_bad hfirst), hbad]
    have htag : (!(some st == some stAuth)) = decide (st ≠ stAuth) := by by_cases h : st = stAuth <;> simp [h]
    rw [htag]
    rfl
  · have hfirst := firstBad_append_of_some (b := [(!hw, stDevice)]) ((firstBad_append_of_none hentry).trans hbad)
    rw [Cmd.exec_of_answer hwait (Cmd.answer_of_bad hfirst), hentry]
    rfl
  · have hfirst := firstBad_append_of_none (b := [(!hw, stDevice)]) (firstBad_none.mpr hall)
    rw [Cmd.exec_of_answer hwait (Cmd.answer_of_bad (hfirst.trans (by rw [hhw]; rfl))), firstBad_entry_none hall]
    rfl
  · have hfirst := firstBad_append_of_none (b := [(!hw, stDevice)]) (firstBad_none.mpr hall)
    rw [Cmd.exec_of_answer hwait (Cmd.answer_of_woken (hfirst.trans (by rw [hhw]; rfl)) hbad), firstBad_entry_none hall]
    rfl

/-! ### Accepted commands -/

/-- An accepted command is performed on the device whose tiles are awake, and answered (R424, R528). -/
theorem exec_accepted {i : Instr} {c : Cmd} {p : Port} {s : State} (hrow : worvisRow i = some (c, p, false)) (h : c.Accepted p s) :
    exec i s = .next (s.answered p (c.run (c.woken (s.env p))).1 (c.run (c.woken (s.env p))).2.1
      (c.run (c.woken (s.env p))).2.2) :=
  (exec_worvisRow hrow s).trans (Cmd.exec_accepted h)

/-- A check of an accepted command holds. -/
theorem Cmd.Accepted.check {c : Cmd} {p : Port} {s : State} (h : c.Accepted p s) {b : Bool} {st : Nat}
    (hmem : (b, st) ∈ c.checks (s.env p)) : b = true :=
  h.2.1 _ (List.mem_append_right _ hmem)

/-- So it does once the tiles are awake. -/
theorem Cmd.Accepted.wokenCheck {c : Cmd} {p : Port} {s : State} (h : c.Accepted p s) {b : Bool} {st : Nat}
    (hmem : (b, st) ∈ c.checks (c.woken (s.env p))) : b = true :=
  h.2.2 _ hmem

section
variable {p : Port} {s : State}

theorem ite_beq_nat {α : Type} (a b : Nat) (x y : α) : (if (a == b) = true then x else y) = if a = b then x else y :=
  if_congr beq_iff_eq rfl rfl

theorem exec_opQuery (h : opQueryCmd.Accepted p s) : exec (.opQuery p false) s = .next (s.answered p s.fuse
    (if (s.env p).f 4 1 = 1 then s.dev.releaseOp (s.env p).slot else s.dev) { body := (s.env p).op.report }) := by
  rw [exec_accepted rfl h, ← ite_beq_nat]
  rfl

theorem exec_accountQuery (h : accountQueryCmd.Accepted p s) : exec (.accountQuery p false) s = .next (s.answered p s.fuse
    (if (s.env p).f 1 1 = 1 then { s.dev with accounts := vsetN s.dev.accounts ((s.env p).f 0 1) {} } else s.dev)
    { body := accountBody (s.env p) (s.env p).account }) := by
  rw [exec_accepted rfl h, ← ite_beq_nat]
  rfl

/-- A creation whose number is free and whose needs fit (R435). -/
theorem paddockCreateCmd_run {w : Env} {k : PadId} {sites : List SiteId} {bar work base : Nat} (hk : w.d.freePad = some k)
    (hx : w.fits = some (sites, bar, work, base)) : paddockCreateCmd.run w = (w.fz, createPad w k sites bar work base,
      { body := leBytes 8 k.val ++ leBytes 8 (siteMask sites) ++ leBytes 16 (siteMask
        ((((createPad w k sites bar work base).pad k).map (·.pass)).getD [])) }) := by
  simp only [paddockCreateCmd, hk, hx]
  rfl

theorem exec_paddockCreate (h : paddockCreateCmd.Accepted p s) : ∃ k sites bar work base,
    (paddockCreateCmd.woken (s.env p)).d.freePad = some k ∧
    (paddockCreateCmd.woken (s.env p)).fits = some (sites, bar, work, base) ∧
    exec (.paddockCreate p false) s = .next (s.answered p s.fuse
      (createPad (paddockCreateCmd.woken (s.env p)) k sites bar work base)
      { body := leBytes 8 k.val ++ leBytes 8 (siteMask sites) ++ leBytes 16 (siteMask
        ((((createPad (paddockCreateCmd.woken (s.env p)) k sites bar work base).pad k).map (·.pass)).getD [])) }) := by
  rw [exec_accepted rfl h]
  have hfree := h.wokenCheck (b := (paddockCreateCmd.woken (s.env p)).d.freePad.isSome) (st := stNoRes) (by simp [paddockCreateCmd])
  have hfits := h.wokenCheck (b := (paddockCreateCmd.woken (s.env p)).fits.isSome) (st := stNoRes) (by simp [paddockCreateCmd])
  obtain ⟨k, hk⟩ := Option.isSome_iff_exists.mp hfree
  obtain ⟨⟨sites, bar, work, base⟩, hx⟩ := Option.isSome_iff_exists.mp hfits
  refine ⟨k, sites, bar, work, base, hk, hx, ?_⟩
  rw [paddockCreateCmd_run hk hx]
  rfl

/-- The answer of SUSPEND_OP, RESUME_OP and CANCEL_OP where the state has the change (R418). -/
theorem exec_opAnswer_some {i : Instr} {c : Cmd} {fz : Fuse} {d : Dev} (hrow : worvisRow i = some (c, p, false)) (h : c.Accepted p s)
    (hrun : c.run (c.woken (s.env p)) = opAnswer (s.env p) (some (fz, d))) :
    exec i s = .next (s.answered p fz d { body := leBytes 8 (d.op (s.env p).slot).state.code }) := by
  rw [exec_accepted hrow h, hrun]
  rfl

/-- Their answer where it has none. -/
theorem exec_opAnswer_none {i : Instr} {c : Cmd} (hrow : worvisRow i = some (c, p, false)) (h : c.Accepted p s)
    (hrun : c.run (c.woken (s.env p)) = opAnswer (s.env p) none) :
    exec i s = .next (s.answered p s.fuse s.dev { status := stWrong, body := leBytes 8 (s.env p).op.state.code }) := by
  rw [exec_accepted hrow h, hrun]
  rfl

theorem exec_suspendOp (h : suspendOpCmd.Accepted p s) :
    (∀ d, s.dev.suspendOp (s.env p).slot = some d → exec (.suspendOp p false) s = .next
      (s.answered p s.fuse d { body := leBytes 8 (d.op (s.env p).slot).state.code })) ∧
    (s.dev.suspendOp (s.env p).slot = none → exec (.suspendOp p false) s = .next
      (s.answered p s.fuse s.dev { status := stWrong, body := leBytes 8 (s.env p).op.state.code })) :=
  ⟨fun _ hd => exec_opAnswer_some rfl h (congrArg (fun o : Option Dev => opAnswer (s.env p) (o.map fun d => (s.fuse, d))) hd),
    fun hd => exec_opAnswer_none rfl h (congrArg (fun o : Option Dev => opAnswer (s.env p) (o.map fun d => (s.fuse, d))) hd)⟩

theorem exec_resumeOp (h : resumeOpCmd.Accepted p s) :
    (∀ d, s.dev.resumeOp (s.env p).slot = some d → exec (.resumeOp p false) s = .next
      (s.answered p s.fuse d { body := leBytes 8 (d.op (s.env p).slot).state.code })) ∧
    (s.dev.resumeOp (s.env p).slot = none → exec (.resumeOp p false) s = .next
      (s.answered p s.fuse s.dev { status := stWrong, body := leBytes 8 (s.env p).op.state.code })) :=
  ⟨fun _ hd => exec_opAnswer_some rfl h (congrArg (fun o : Option Dev => opAnswer (s.env p) (o.map fun d => (s.fuse, d))) hd),
    fun hd => exec_opAnswer_none rfl h (congrArg (fun o : Option Dev => opAnswer (s.env p) (o.map fun d => (s.fuse, d))) hd)⟩

theorem exec_cancelOp (h : cancelOpCmd.Accepted p s) :
    (∀ fz d, cancelOp (s.env p).slot s.fuse s.dev = some (fz, d) → exec (.cancelOp p false) s = .next
      (s.answered p fz d { body := leBytes 8 (d.op (s.env p).slot).state.code })) ∧
    (cancelOp (s.env p).slot s.fuse s.dev = none → exec (.cancelOp p false) s = .next
      (s.answered p s.fuse s.dev { status := stWrong, body := leBytes 8 (s.env p).op.state.code })) :=
  ⟨fun _ _ hd => exec_opAnswer_some rfl h (congrArg (opAnswer (s.env p)) hd),
    fun hd => exec_opAnswer_none rfl h (congrArg (opAnswer (s.env p)) hd)⟩

theorem exec_sessionOpen_none (h : sessionOpenCmd.Accepted p s) (hs : (s.env p).secret = none) :
    exec (.sessionOpen p false) s = .next (s.answered p s.fuse s.dev { status := stAuth }) := by
  have hrun : sessionOpenCmd.run (sessionOpenCmd.woken (s.env p)) = (s.fuse, s.dev, { status := stAuth }) := by
    show sessionOpenRun (s.env p) = _
    unfold sessionOpenRun
    rw [hs]
    rfl
  rw [exec_accepted rfl h, hrun]

theorem exec_sessionOpen_some {ss : Bytes} (h : sessionOpenCmd.Accepted p s) (hs : (s.env p).secret = some ss) :
    exec (.sessionOpen p false) s = .next
      (s.answered p s.fuse (sessionOpenEffect (s.env p) ss).1 (sessionOpenEffect (s.env p) ss).2) := by
  have hrun : sessionOpenCmd.run (sessionOpenCmd.woken (s.env p)) = (s.fuse, sessionOpenEffect (s.env p) ss) := by
    show sessionOpenRun (s.env p) = _
    unfold sessionOpenRun
    rw [hs]
    rfl
  rw [exec_accepted rfl h, hrun]

end

/-- Settles O60: of most rows the effect is the row's execution; a creation finds what its checks, made again, say is there, and the
four rows that can refuse have an answer for each case. -/
theorem everyAcceptedCommandCompletes : Obligations.EveryAcceptedCommandCompletes := by
  unfold Obligations.EveryAcceptedCommandCompletes
  intro p s e
  have hcreate (h : paddockCreateCmd.Accepted p s) :
      ∃ d r, exec (.paddockCreate p false) s = .next (s.answered p s.fuse d r) ∧ r.status = 0 := by
    obtain ⟨k, sites, bar, work, base, _, _, hexec⟩ := exec_paddockCreate h
    exact ⟨_, _, hexec, rfl⟩
  have hsuspend (h : suspendOpCmd.Accepted p s) : ∃ d r, exec (.suspendOp p false) s = .next (s.answered p s.fuse d r) ∧
      r.status = (if (s.dev.suspendOp e.slot).isSome then 0 else stWrong) := by
    cases hd : s.dev.suspendOp e.slot with
    | none => exact ⟨_, _, (exec_suspendOp h).2 hd, rfl⟩
    | some d => exact ⟨_, _, (exec_suspendOp h).1 d hd, rfl⟩
  have hresume (h : resumeOpCmd.Accepted p s) : ∃ d r, exec (.resumeOp p false) s = .next (s.answered p s.fuse d r) ∧
      r.status = (if (s.dev.resumeOp e.slot).isSome then 0 else stWrong) := by
    cases hd : s.dev.resumeOp e.slot with
    | none => exact ⟨_, _, (exec_resumeOp h).2 hd, rfl⟩
    | some d => exact ⟨_, _, (exec_resumeOp h).1 d hd, rfl⟩
  have hcancel (h : cancelOpCmd.Accepted p s) : ∃ fz d r, exec (.cancelOp p false) s = .next (s.answered p fz d r) ∧
      r.status = (if (cancelOp e.slot s.fuse s.dev).isSome then 0 else stWrong) := by
    cases hd : cancelOp e.slot s.fuse s.dev with
    | none => exact ⟨_, _, _, (exec_cancelOp h).2 hd, rfl⟩
    | some x => exact ⟨_, _, _, (exec_cancelOp h).1 x.1 x.2 hd, rfl⟩
  have hopen (h : sessionOpenCmd.Accepted p s) : ∃ d r, exec (.sessionOpen p false) s = .next (s.answered p s.fuse d r) ∧
      r.status = (if e.secret.isSome then 0 else stAuth) := by
    cases hs : e.secret with
    | none => exact ⟨_, _, exec_sessionOpen_none h hs, rfl⟩
    | some ss => exact ⟨_, _, exec_sessionOpen_some h hs, rfl⟩
  have row {i : Instr} {c : Cmd} (hrow : worvisRow i = some (c, p, false)) (h : c.Accepted p s) := exec_accepted hrow h
  exact ⟨row rfl, row rfl, row rfl, hcreate, row rfl, row rfl, row rfl, row rfl, row rfl, row rfl, row rfl, row rfl, row rfl, row rfl,
    row rfl, exec_opQuery, hsuspend, hresume, hcancel, row rfl, row rfl, exec_accountQuery, row rfl, row rfl, hopen, row rfl, row rfl,
    row rfl, row rfl, row rfl, row rfl, row rfl, row rfl, fun h => ⟨_, _, row rfl h, rfl⟩, row rfl, row rfl, row rfl, row rfl, row rfl,
    row rfl, row rfl, row rfl, row rfl⟩

/-! ### Commands that only read -/

theorem Env.seq_of_slot {e : Env} {i : Fin 16} (h : e.f 0 1 = i.val) : e.seq = e.d.seqs[i] := by
  simp [Env.seq, Env.seqNo, h, finOf_val]

/-- Settles O51: the execution of such a row is its body alone. -/
theorem queriesOnlyAnswer : Obligations.QueriesOnlyAnswer := by
  unfold Obligations.QueriesOnlyAnswer
  intro p s e d ok
  have row {i : Instr} {c : Cmd} (hrow : worvisRow i = some (c, p, false)) (h : c.Accepted p s) := exec_accepted hrow h
  refine ⟨row rfl, row rfl, row rfl, fun h i k hi hk => ?_, row rfl, row rfl, row rfl, row rfl, row rfl, row rfl⟩
  have hseq : e.seq = d.seqs[i] := Env.seq_of_slot hi
  have hbody : leBytes 4 ((e.seq.bound.map (·.val)).getD 0) ++ leBytes 4 e.seq.length =
      leBytes 4 k.val ++ leBytes 4 (d.seqs[i]).length := by rw [hseq, hk]; rfl
  exact hbody ▸ row (i := .seqRead p false) rfl h

end Sys2Proof.Machine
end

section
/-!
PROOFS. Commands on operations, copies and accounts: the handle that a copy takes, and their statement (R416 to R418, R432, R449).
-/
namespace Sys2Proof.Machine

/-- A handle that is picked is none of those in use, as long as these leave one. -/
theorem pickId_notMem {used : List Nat} (h : used.length < 65535) (r : Nat) : pickId used r ∉ used := by
  unfold pickId
  set l := (List.range (used.length + 1)).map fun i => (r + i) % 65535 + 1 with hl
  cases hfind : l.find? fun v => !used.contains v with
  | some v => simpa using List.find?_some hfind
  | none =>
    have hnodup : l.Nodup := by
      refine (List.nodup_range).map_on fun i hi j hj hij => ?_
      simp only [List.mem_range] at hi hj
      omega
    have hsub : l ⊆ used := fun v hv => by simpa using List.find?_eq_none.mp hfind v hv
    have := (hnodup.subperm hsub).length_le
    simp [hl] at this

theorem Dev.openCopies_length_le (d : Dev) : d.openCopies.length ≤ 16 :=
  (List.length_filter_le ..).trans (by simp)

theorem mem_vmod {α : Type} {n : Nat} (v : Vector α n) (i : Fin n) (f : α → α) : f v[i] ∈ (vmod v i f).toList := by
  rw [Vector.mem_toList_iff, ← vmod_same v i f]
  exact Vector.getElem_mem _

/-- The handle that a copy takes is none of an open copy, and the copy stands open under it (R432). -/
theorem copyOpenEffect_opens (e : Env) : ∃ id, (copyOpenEffect e).2 = { body := leBytes 8 id } ∧
    (∀ c ∈ e.d.openCopies, c.id ≠ id) ∧ (∃ c ∈ (copyOpenEffect e).1.openCopies, c = { e.newCopy with id := id, open_ := true }) ∧
    (copyOpenEffect e).1.lofts = e.d.lofts := by
  refine ⟨_, rfl, fun c hc hid => ?_, ⟨_, ?_, rfl⟩, rfl⟩
  · have hroom : (e.d.openCopies.map (·.id)).length < 65535 := by
      have := e.d.openCopies_length_le
      rw [List.length_map]
      omega
    exact pickId_notMem hroom (Config.freeBits e.d.freeCtr) (List.mem_map.mpr ⟨c, hc, hid⟩)
  · exact List.mem_filter.mpr ⟨mem_vmod _ _ fun _ => _, rfl⟩

/-- Settles O54: an accepted row has its effect, and of a copy the handle picked is none of those in use. -/
theorem operationCommandsAnswerTheState : Obligations.OperationCommandsAnswerTheState := by
  unfold Obligations.OperationCommandsAnswerTheState
  intro p s e d done wrong told
  refine ⟨exec_opQuery, exec_suspendOp, exec_resumeOp, exec_cancelOp, fun h => ?_, exec_accepted rfl, exec_accountQuery⟩
  obtain ⟨id, hbody, hfresh, ⟨c, hmem, hc⟩, hlofts⟩ := copyOpenEffect_opens e
  have hnew : e.newCopy.addr = e.f 8 8 ∧ e.newCopy.bytes = e.f 16 8 := by
    unfold Env.newCopy
    dsimp only
    split <;> exact ⟨rfl, rfl⟩
  refine ⟨(copyOpenEffect e).1, id, hbody ▸ exec_accepted rfl h, hfresh, ⟨c, hmem, ?_⟩, hlofts⟩
  subst hc
  exact ⟨rfl, rfl, hnew⟩

end Sys2Proof.Machine
end

section
/-!
PROOFS. Sessions: what the end of copies in the clear leaves as it was, and the session that opens (R433, R443, R464 to R468, R473).
-/
namespace Sys2Proof.Machine

theorem Dev.mem_openCopies {d : Dev} {c : Copy} : c ∈ d.openCopies ↔ (∃ i : Fin 16, d.copies[i] = c) ∧ c.open_ = true := by
  simp only [Dev.openCopies, List.mem_filter, Vector.mem_toList_iff, Vector.mem_iff_getElem]
  exact and_congr_left fun _ => ⟨fun ⟨i, hi, hc⟩ => ⟨⟨i, hi⟩, hc⟩, fun ⟨i, hc⟩ => ⟨i, i.isLt, hc⟩⟩

/-- A copy that is done is open no more. -/
theorem Dev.copyDone_openCopies {d : Dev} {i : Fin 16} {c : Copy} (h : c ∈ (d.copyDone i).openCopies) : c ∈ d.openCopies := by
  obtain ⟨⟨j, hj⟩, hopen⟩ := Dev.mem_openCopies.mp h
  have hcopies : (d.copyDone i).copies[j] = (vmod d.copies i fun c => { c with open_ := false })[j] := rfl
  by_cases hji : j = i
  · rw [hcopies, hji, vmod_same] at hj
    rw [← hj] at hopen
    cases hopen
  · rw [hcopies, vmod_other _ _ _ _ hji] at hj
    exact Dev.mem_openCopies.mpr ⟨⟨j, hj⟩, hopen⟩

theorem Dev.settleCopies_openCopies {d : Dev} {c : Copy} (h : c ∈ d.settleCopies.openCopies) : c ∈ d.openCopies := by
  unfold Dev.settleCopies at h
  generalize fins 16 = l at h
  induction l generalizing d with
  | nil => exact h
  | cons i l ih =>
    have h := ih h
    dsimp only at h
    split at h
    · exact Dev.copyDone_openCopies h
    · exact h

/-- What the end of a copy leaves as it was, the end of all of them does. -/
theorem Dev.settleCopies_keeps {α : Type} (f : Dev → α) (h : ∀ d i, f (Dev.copyDone d i) = f d) (d : Dev) :
    f d.settleCopies = f d := by
  refine foldl_keeps f (fun e i => ?_) _ d
  dsimp only
  split
  · exact h e i
  · rfl

/-- Once the copies in the clear have ended, none that is open and sends bytes of the paddock in the clear goes on (R473). -/
theorem Dev.endClear_ended {d : Dev} {k : PadId} {c : Copy} (h : c ∈ (d.endClear k).openCopies) (hkind : c.kind = .copyOut)
    (hclear : c.session = none) (hpad : c.paddock = k) : c.ended = true := by
  obtain ⟨⟨i, hi⟩, hopen⟩ := Dev.mem_openCopies.mp (Dev.settleCopies_openCopies h)
  simp only [Fin.getElem_fin, Vector.getElem_map] at hi
  split at hi
  · rw [← hi]
  · rename_i hother
    subst hi
    simp [hopen, hkind, hclear, hpad] at hother

theorem Dev.endClear_keeps {α : Type} (f : Dev → α) (h : ∀ d i, f (Dev.copyDone d i) = f d)
    (hcopies : ∀ d v, f { d with copies := v } = f d) (d : Dev) (k : PadId) : f (d.endClear k) = f d :=
  (Dev.settleCopies_keeps f h _).trans (hcopies d _)

@[simp] theorem Dev.endClear_sessions (d : Dev) (k : PadId) : (d.endClear k).sessions = d.sessions :=
  Dev.endClear_keeps (·.sessions) (fun _ _ => rfl) (fun _ _ => rfl) d k

@[simp] theorem Dev.endClear_seals (d : Dev) (k : PadId) : (d.endClear k).seals = d.seals :=
  Dev.endClear_keeps (·.seals) (fun _ _ => rfl) (fun _ _ => rfl) d k

@[simp] theorem Dev.endClear_digests (d : Dev) (k : PadId) : (d.endClear k).digests = d.digests :=
  Dev.endClear_keeps (·.digests) (fun _ _ => rfl) (fun _ _ => rfl) d k

@[simp] theorem Dev.endClear_lofts (d : Dev) (k : PadId) : (d.endClear k).lofts = d.lofts :=
  Dev.endClear_keeps (·.lofts) (fun _ _ => rfl) (fun _ _ => rfl) d k

/-- The session that a SESSION_OPEN opens (R464, R465). -/
def Env.openedSession (e : Env) (ss : Bytes) : Session :=
  let id := pickId (e.d.sessions.map (·.id)) (Config.freeBits e.d.freeCtr)
  let key := sessionKey e.fz ss e.k id
  { id := id, mailbox := e.mailbox, pad := e.k, key := key, fp := Config.shake256 16 (key ++ ascii "FLEVER-FP-1") }

/-- The device with the session open and its paddock sealed, before the copies in the clear end. -/
def Env.sealedDev (e : Env) (ss : Bytes) : Dev :=
  { e.d with
    freeCtr := e.d.freeCtr + 1
    sessions := e.d.sessions ++ [e.openedSession ss]
    digests := (e.ctDigest :: e.d.digests).take 4096
    seals := vmod e.d.seals e.k fun x => { x with sealed_ := true } }

theorem Env.sealedDev_sealed (e : Env) (ss : Bytes) : ((e.sealedDev ss).seals[e.k]).sealed_ = true :=
  congrArg SealState.sealed_ (vmod_same e.d.seals e.k fun x => { x with sealed_ := true })

theorem sessionOpenEffect_eq (e : Env) (ss : Bytes) :
    sessionOpenEffect e ss = ((e.sealedDev ss).endClear e.k, { body := leBytes 8 (e.openedSession ss).id }) := rfl

theorem Env.openedSession_fp (e : Env) (ss : Bytes) :
    (e.openedSession ss).fp = Config.shake256 16 ((e.openedSession ss).key ++ ascii "FLEVER-FP-1") := by
  unfold Env.openedSession
  rfl

/-- Settles O55: the secret decides; a session that opens is the last of the list, and what ends the copies in the clear leaves
sessions, seals, digests and lofts alone. -/
theorem sessionsOpenUnderAFingerprint : Obligations.SessionsOpenUnderAFingerprint := by
  unfold Obligations.SessionsOpenUnderAFingerprint
  intro p s e d
  refine ⟨exec_sessionOpen_none, fun ss h hs => ?_, fun h => ⟨sessionCloseEffect e, exec_accepted rfl h, ?_, ?_, ?_, rfl⟩,
    exec_accepted rfl⟩
  · have hexec := exec_sessionOpen_some h hs
    simp only [sessionOpenEffect_eq] at hexec
    refine ⟨(e.sealedDev ss).endClear e.k, e.openedSession ss, hexec, Dev.endClear_sessions _ _, rfl, rfl, e.openedSession_fp ss, ?_,
      Dev.endClear_digests _ _, Dev.endClear_lofts _ _, fun c hc => Dev.endClear_ended hc⟩
    rw [Dev.endClear_seals]
    exact e.sealedDev_sealed ss
  · intro q hq
    simpa using (List.mem_filter.mp hq).2
  · intro k o ho
    simp only [sessionCloseEffect, Fin.getElem_fin, Vector.getElem_map] at ho
    simpa using (List.mem_filter.mp ho).2
  · intro k
    simp only [sessionCloseEffect, Fin.getElem_fin, Vector.getElem_map]
    rfl

end Sys2Proof.Machine
end

section
/-!
PROOFS. The owner port's target: what a write to it does, and the statement about it (R423, R544).
-/
namespace Sys2Proof.Machine

/-- A command that is an event: its effect where its condition holds. -/
theorem exec_event {i : Instr} {s : State} {en : Dev → Bool} {f : Fuse → Dev → Dev} {d : Dev} (hi : exec i s = onEvent s en f)
    (h : en s.dev = true) (hd : f s.fuse s.dev = d) : exec i s = .next (s.put d) :=
  hd ▸ hi.trans (onEvent_holds f h)

/-- Where its condition does not hold it changes nothing. -/
theorem exec_event_idle {i : Instr} {s : State} {en : Dev → Bool} {f : Fuse → Dev → Dev} (hi : exec i s = onEvent s en f)
    (h : en s.dev = false) : exec i s = .next s :=
  hi.trans (onEvent_fails f h)

/-- The write that gives a response back has four bytes, of which the first two say so. -/
def releases (data : Bytes) : Bool := data.length == 4 && data.take 2 == [0x01#8, 0xFF#8]

theorem releases_eq_false {data : Bytes} (h : data.length ≠ 4 ∨ data.take 2 ≠ [0x01#8, 0xFF#8]) : releases data = false := by
  rcases h with h | h <;> simp [releases, h]

section
variable {d : Dev} {data : Bytes}

theorem Dev.ownerWrite_release (h : releases data = true) (hready : d.owner.state = .ready)
    (hseq : fieldAt data 2 2 = d.owner.seq.toNat) : d.ownerWrite data = { d with owner := d.owner.release } :=
  (if_pos h).trans (if_pos (by simp [hready, hseq]))

theorem Dev.ownerWrite_command (h : releases data = false) (hempty : d.owner.state = .empty) :
    d.ownerWrite data = { d with owner := d.owner.submit (padTo 4096 data) } :=
  (if_neg (Bool.not_eq_true _ ▸ h)).trans (if_pos (by simp [hempty]))

theorem Dev.ownerWrite_busy (h : releases data = false) (hbusy : d.owner.state ≠ .empty) : d.ownerWrite data = d :=
  (if_neg (Bool.not_eq_true _ ▸ h)).trans (if_neg (by simp [hbusy]))

end

theorem exec_entdaa (addr : BitVec 7) (s : State) :
    exec (.entdaa addr) s = onEvent s (fun d => i3cUp d && d.i3cAddr.isNone) fun _ d => { d with i3cAddr := some addr } := rfl

theorem exec_setdasa (static addr : BitVec 7) (s : State) : exec (.setdasa static addr) s =
    onEvent s (fun d => i3cUp d && d.i3cAddr.isNone && static == 0x3A#7) fun _ d => { d with i3cAddr := some addr } := rfl

theorem exec_rstdaa (s : State) : exec .rstdaa s = onEvent s i3cUp fun _ d => { d with i3cAddr := none } := rfl

theorem exec_getpid (s : State) : exec .getpid s = onEvent s i3cAddressed fun _ d => d.show Config.i3cPid.toNat := rfl

theorem exec_getbcr (s : State) : exec .getbcr s = onEvent s i3cAddressed fun _ d => d.show Config.i3cBcr.toNat := rfl

theorem exec_getdcr (s : State) : exec .getdcr s = onEvent s i3cAddressed fun _ d => d.show Config.i3cDcr.toNat := rfl

theorem exec_getstatus (s : State) : exec .getstatus s = onEvent s i3cAddressed fun _ d =>
    { d.show (Config.i3cStatus d.freeCtr).toNat with freeCtr := d.freeCtr + 1 } := rfl

theorem exec_ownerCommandWrite (data : Bytes) (s : State) :
    exec (.ownerCommandWrite data) s = onEvent s i3cAddressed fun _ d => d.ownerWrite data := rfl

theorem exec_ownerResponseRelease (data : Bytes) (s : State) :
    exec (.ownerResponseRelease data) s = onEvent s i3cAddressed fun _ d => d.ownerWrite data := rfl

/-- Settles O49: whether the target answers and has an address decides each command; a write is a release or a command. -/
theorem ownerPortTakesCommands : Obligations.OwnerPortTakesCommands := by
  unfold Obligations.OwnerPortTakesCommands
  intro st addr data s hstage d b writes
  have hup : i3cUp d = true := bne_iff_ne.mpr hstage
  have hwrites {i : Instr} (hi : exec i s = .next (s.put (d.ownerWrite data))) : writes i := by
    refine ⟨fun hlen hhead hready hseq => ?_, fun hcommand hempty => ?_, fun hcommand hbusy => ?_⟩
    · have hrel : releases data = true := by simp [releases, hlen, hhead]
      rw [hi, Dev.ownerWrite_release hrel hready hseq]
    · rw [hi, Dev.ownerWrite_command (releases_eq_false hcommand) hempty]
    · rw [hi, Dev.ownerWrite_busy (releases_eq_false hcommand) hbusy]
      rfl
  refine ⟨fun hnone => ?_, exec_event (exec_rstdaa s) hup rfl, fun haddr => ?_⟩
  · have hfree : (i3cUp d && d.i3cAddr.isNone) = true := by simp [hup, hnone]
    refine ⟨exec_event (exec_entdaa addr s) hfree rfl, exec_event (exec_setdasa _ addr s) ?_ rfl,
      fun hst => exec_event_idle (exec_setdasa st addr s) ?_⟩
    · simpa using hfree
    · simp [hst]
  · have hheld : i3cAddressed d = true := by simp [i3cAddressed, hup, haddr]
    exact ⟨exec_event (exec_getpid s) hheld rfl, exec_event (exec_getbcr s) hheld rfl, exec_event (exec_getdcr s) hheld rfl,
      exec_event (exec_getstatus s) hheld rfl, hwrites (exec_event (exec_ownerCommandWrite data s) hheld rfl),
      hwrites (exec_event (exec_ownerResponseRelease data s) hheld rfl)⟩

end Sys2Proof.Machine
end

section
/-!
PROOFS. Commands on paddocks, sequence slots and rings: what the release of a paddock leaves as it was, and the statement about these
commands (R428 to R430, R435 to R438, R442, R503).
-/
namespace Sys2Proof.Machine

/-! ### The release of a paddock (R442) -/

/-- What no packet's launch changes, telling tiles does not change. -/
theorem Dev.tellTiles_keeps {α : Type} (f : Dev → α) (h : ∀ d p, f (Dev.launch d p) = f d) (d : Dev) (sites : List SiteId) (k : PadId)
    (n : Nat) : f (d.tellTiles sites k n) = f d := by
  unfold Dev.tellTiles
  split
  · rfl
  · exact h _ _

theorem Dev.returnWindows_pads (d : Dev) (ws : List Window) : (d.returnWindows ws).pads = d.pads := by
  refine foldl_keeps (·.pads) (fun e w => ?_) ws d
  exact e.modLoft_pads _ _

theorem Dev.modLoft_mem {d : Dev} {i : SiteId} {f : Loft → Loft} (h : ∀ lo, (f lo).mem = lo.mem) (l : SiteId) :
    ((d.modLoft i f).loft l).mem = (d.loft l).mem := by
  by_cases hl : l = i
  · rw [hl, d.modLoft_loft, h]
  · rw [d.modLoft_loft_ne i l f hl]

theorem Dev.returnWindows_mem (d : Dev) (ws : List Window) (l : SiteId) : ((d.returnWindows ws).loft l).mem = (d.loft l).mem := by
  refine foldl_keeps (fun e => (Dev.loft e l).mem) (fun e w => ?_) ws d
  refine Dev.modLoft_mem (fun lo => ?_) l
  rfl

theorem Dev.freeSpans_pad_ne (d : Dev) {k j : PadId} (h : j ≠ k) : (d.freeSpans k).pad j = d.pad j := by
  unfold Dev.freeSpans
  split
  · rfl
  · rw [Dev.modPad_pad_ne _ _ _ _ h]
    refine foldl_keeps (fun e => Dev.pad e j) (fun e x => ?_) _ d
    rfl

theorem Dev.freeSpans_lofts (d : Dev) (k : PadId) : (d.freeSpans k).lofts = d.lofts := by
  unfold Dev.freeSpans
  split
  · rfl
  · rw [Dev.modPad_lofts]
    refine foldl_keeps (·.lofts) (fun e x => ?_) _ d
    rfl

/-- The device once the tiles of a paddock have left it, and its windows wait to be zeroed. -/
def Dev.vacated (d : Dev) (k : PadId) (p : Paddock) : Dev :=
  ((((d.freeSpans k).idleBeats k).tellTiles p.sites k 64).forSites p.sites Tile.leave).returnWindows p.windows

theorem Dev.vacated_pad_ne (d : Dev) (p : Paddock) {k j : PadId} (h : j ≠ k) : (d.vacated k p).pad j = d.pad j :=
  calc (d.vacated k p).pad j
    _ = ((((d.freeSpans k).idleBeats k).tellTiles p.sites k 64).forSites p.sites Tile.leave).pad j :=
      congrArg (·[j]) (Dev.returnWindows_pads _ _)
    _ = (((d.freeSpans k).idleBeats k).tellTiles p.sites k 64).pad j :=
      foldl_keeps (fun e => Dev.pad e j) (g := fun e s => e.modTile s Tile.leave) (fun _ _ => rfl) _ _
    _ = ((d.freeSpans k).idleBeats k).pad j := Dev.tellTiles_keeps (fun e => e.pad j) (fun _ _ => rfl) _ _ _ _
    _ = d.pad j := d.freeSpans_pad_ne h

theorem Dev.vacated_mem (d : Dev) (k : PadId) (p : Paddock) (l : SiteId) : ((d.vacated k p).loft l).mem = (d.loft l).mem := by
  have hlofts : ((((d.freeSpans k).idleBeats k).tellTiles p.sites k 64).forSites p.sites Tile.leave).lofts = d.lofts := by
    rw [Dev.forSites_lofts, Dev.tellTiles_keeps (·.lofts) (fun _ _ => rfl)]
    exact d.freeSpans_lofts k
  rw [Dev.vacated, Dev.returnWindows_mem]
  exact congrArg (fun v => (v[l]).mem) hlofts

theorem Dev.releasePad_of_pad {d : Dev} {k : PadId} {p : Paddock} (h : d.pad k = some p) : d.releasePad k =
    { d.vacated k p with
      car := (d.vacated k p).car.close k
      fab := { (d.vacated k p).fab with brands := vmodN (d.vacated k p).fab.brands k.val fun b => b &&& 0xFFFEFFFF#32 }
      seqs := (d.vacated k p).seqs.map fun q => if q.bound == some k then {} else q
      sessions := (d.vacated k p).sessions.filter fun s => s.pad != k
      seals := vmod (d.vacated k p).seals k fun _ => {}
      pads := vmod (d.vacated k p).pads k fun _ => none } := by
  unfold Dev.releasePad
  rw [h]
  rfl

section
variable {d : Dev} {k : PadId} {p : Paddock} (h : d.pad k = some p)
include h

theorem Dev.releasePad_pads : (d.releasePad k).pads = vmod (d.vacated k p).pads k fun _ => none :=
  congrArg (·.pads) (Dev.releasePad_of_pad h)

theorem Dev.releasePad_pad : (d.releasePad k).pad k = none := by
  rw [Dev.pad, Dev.releasePad_pads h, vmod_same]

theorem Dev.releasePad_pad_ne {j : PadId} (hj : j ≠ k) : (d.releasePad k).pad j = d.pad j := by
  rw [Dev.pad, Dev.releasePad_pads h, vmod_other _ _ _ _ hj]
  exact d.vacated_pad_ne p hj

theorem Dev.releasePad_sessions {q : Session} (hq : q ∈ (d.releasePad k).sessions) : q.pad ≠ k := by
  have hsessions : (d.releasePad k).sessions = (d.vacated k p).sessions.filter fun s => s.pad != k :=
    congrArg (·.sessions) (Dev.releasePad_of_pad h)
  rw [hsessions] at hq
  simpa using (List.mem_filter.mp hq).2

theorem Dev.releasePad_seqs (i : Fin 16) : ((d.releasePad k).seqs[i]).bound ≠ some k := by
  have hseqs : (d.releasePad k).seqs = (d.vacated k p).seqs.map fun q => if q.bound == some k then {} else q :=
    congrArg (·.seqs) (Dev.releasePad_of_pad h)
  rw [hseqs, Fin.getElem_fin, Vector.getElem_map]
  split
  · exact nofun
  · next hother => exact fun hbound => hother (beq_iff_eq.mpr hbound)

theorem Dev.releasePad_mem (l : SiteId) : ((d.releasePad k).loft l).mem = (d.loft l).mem := by
  have hlofts : (d.releasePad k).lofts = (d.vacated k p).lofts := congrArg (·.lofts) (Dev.releasePad_of_pad h)
  rw [Dev.loft, hlofts]
  exact d.vacated_mem k p l

end

/-! ### Grants and sequence slots (R429, R430, R438) -/

/-- A sequence slot that is picked is free. -/
theorem seqOpenEffect_opens {e : Env} (h : e.d.freeSeqs.isEmpty = false) : ∃ i : Fin 16, (e.d.seqs[i]).bound = none ∧
    seqOpenEffect e = ({ e.d with
      seqs := vmod e.d.seqs i fun _ => { bound := some e.k, length := 0 }, freeCtr := e.d.freeCtr + 1 }, i.val) := by
  have hpos : 0 < e.d.freeSeqs.length := List.length_pos_iff.mpr (by simpa using h)
  have hlt := Nat.mod_lt (Config.freeBits e.d.freeCtr) hpos
  have hpick : pickFrom e.d.freeSeqs (Config.freeBits e.d.freeCtr) = some (e.d.freeSeqs[Config.freeBits e.d.freeCtr % e.d.freeSeqs.length]) :=
    List.getElem?_eq_getElem hlt
  refine ⟨_, Option.isNone_iff_eq_none.mp (List.mem_filter.mp (List.getElem_mem hlt)).2, ?_⟩
  have heffect : seqOpenEffect e = ({ e.d with
      seqs := vmod e.d.seqs ((pickFrom e.d.freeSeqs (Config.freeBits e.d.freeCtr)).getD 0) fun _ => { bound := some e.k, length := 0 }
      freeCtr := e.d.freeCtr + 1 }, ((pickFrom e.d.freeSeqs (Config.freeBits e.d.freeCtr)).getD 0).val) := rfl
  rw [heffect, hpick, Option.getD_some]

/-- The paddock that a command names, where it is there. -/
theorem Env.pad_k {e : Env} (h : e.pad?.isSome = true) : e.d.pad e.k = some e.p := by
  obtain ⟨q, hq⟩ := Option.isSome_iff_exists.mp h
  obtain ⟨k, hk, hpad⟩ := Option.bind_eq_some_iff.mp hq
  simp [Env.k, Env.p, hk, hq, hpad]

/-- The device with the window that PADDOCK_GRANT asks for added to the paddock (R438). -/
def Env.granted (e : Env) (l : SiteId) : Dev :=
  e.d.modPad e.k fun q => { q with windows := q.windows ++ [{ loft := l, base4k := e.f 4 4, size4k := e.f 8 4 }] }

theorem padGrantEffect_of_loft {e : Env} {l : SiteId} (hl : finOf 48 (e.f 1 1) = some l) : padGrantEffect e =
    (if e.sess == 0 then e.granted l
      else { e.granted l with
        seals := vmod (e.granted l).seals e.k fun x => { x with owned := x.owned ++ [(e.p.windows.length, e.sess)] } }).deadWindows := by
  have h : e.grantLoft = some l := hl
  unfold padGrantEffect
  rw [h]
  rfl

/-- Settles O52: an accepted row has its effect; a release takes the paddock, its sessions and its slots off the device. -/
theorem paddockCommandsTakeEffect : Obligations.PaddockCommandsTakeEffect := by
  unfold Obligations.PaddockCommandsTakeEffect
  intro p s e d done
  refine ⟨fun h => ?_, fun h => ?_, fun l h hl => ?_, exec_accepted rfl, fun h => ?_,
    fun i hi => ⟨fun h => ?_, fun h => ?_⟩, exec_accepted rfl⟩
  · obtain ⟨k, sites, bar, work, base, hk, hx, hexec⟩ := exec_paddockCreate h
    exact ⟨k, sites, bar, work, base, _, hk, hx, hexec, rfl⟩
  · have hpad : d.pad e.k = some e.p := Env.pad_k (e := e) (h.check (st := stNoRes) (by simp [paddockReleaseCmd, Env.padChecks, e]))
    exact ⟨d.releasePad e.k, exec_accepted rfl h, Dev.releasePad_pad hpad, fun q hq => Dev.releasePad_sessions hpad hq,
      fun i => Dev.releasePad_seqs hpad i, fun k hk => Dev.releasePad_pad_ne hpad hk, fun l => Dev.releasePad_mem hpad l⟩
  · have hexec : done (.paddockGrant p false) (padGrantEffect e) {} := exec_accepted rfl h
    rw [padGrantEffect_of_loft hl] at hexec
    exact ⟨fun hsess => by rwa [if_pos (by simp [hsess])] at hexec, fun hsess => by rwa [if_neg (by simp [hsess])] at hexec⟩
  · have hroom : (!e.d.freeSeqs.isEmpty) = true := h.check (st := stNoRes) (by simp [seqOpenCmd, e])
    obtain ⟨i, hfree, heffect⟩ := seqOpenEffect_opens (Bool.not_eq_true' _ ▸ hroom)
    refine ⟨i, hfree, (exec_accepted rfl h).trans ?_⟩
    show Host.Outcome.next (s.answered p s.fuse (seqOpenEffect e).1 { body := leBytes 8 (seqOpenEffect e).2 }) = _
    rw [heffect]
    rfl
  · have hexec : done (.seqSet p false) { d with seqs := vmodN d.seqs (e.f 0 1) fun q => { q with length := e.f 4 4 } } {} :=
      exec_accepted rfl h
    rwa [hi, vmodN_val] at hexec
  · have hexec : done (.seqClose p false) { d with seqs := vmodN d.seqs (e.f 0 1) fun _ => {} } {} := exec_accepted rfl h
    rwa [hi, vmodN_val] at hexec

end Sys2Proof.Machine
end

section
/-!
PROOFS. Waking a paddock's tiles (R527 to R529): what a wake can change of the paddocks' lists and of the other tiles, and why a
paddock that has been woken needs no second wake.
-/
namespace Sys2Proof.Machine

/-! ### What faults and ended operations leave standing

The tiles that each paddock lists, and each tile's power state and number. -/

def Dev.standing (d : Dev) : (PadId → Option (List (Option SiteId))) × (SiteId → BitVec 8 × Option (PadId × Nat)) :=
  (fun k => (d.pad k).map (·.tiles), fun s => ((d.tile s).power, (d.tile s).ctl.bound))

theorem Dev.modPad_standing (d : Dev) (k : PadId) {f : Paddock → Paddock} (h : ∀ p, (f p).tiles = p.tiles) :
    (d.modPad k f).standing = d.standing := by
  refine Prod.ext (funext fun j => ?_) rfl
  show ((d.modPad k f).pad j).map (·.tiles) = (d.pad j).map (·.tiles)
  by_cases hj : j = k
  · rw [hj, d.modPad_pad, Option.map_map]
    exact congrArg (Option.map · (d.pad k)) (funext h)
  · rw [d.modPad_pad_ne k j f hj]

theorem Dev.modTile_standing (d : Dev) (s : SiteId) {f : Tile → Tile} (h : ∀ t, ((f t).power, (f t).ctl.bound) = (t.power, t.ctl.bound)) :
    (d.modTile s f).standing = d.standing := by
  refine Prod.ext rfl (funext fun r => ?_)
  show (((d.modTile s f).tile r).power, ((d.modTile s f).tile r).ctl.bound) = ((d.tile r).power, (d.tile r).ctl.bound)
  by_cases hr : r = s
  · rw [hr, d.modTile_tile, h]
  · rw [d.modTile_tile_ne s r f hr]

theorem Dev.forSites_standing (d : Dev) (ss : List SiteId) {f : Tile → Tile}
    (h : ∀ t, ((f t).power, (f t).ctl.bound) = (t.power, t.ctl.bound)) : (d.forSites ss f).standing = d.standing := by
  refine foldl_keeps Dev.standing (fun e s => ?_) ss d
  exact e.modTile_standing s h

@[simp] theorem Dev.faultEvent_standing (d : Dev) (k : PadId) (owner : Nat) (f : FaultInfo) :
    (d.faultEvent k owner f).standing = d.standing := by
  unfold Dev.faultEvent
  dsimp only
  split <;> rfl

@[simp] theorem Dev.setOp_standing (d : Dev) (i : Fin 64) (st : OpState) (code : Nat) : (d.setOp i st code).standing = d.standing := by
  unfold Dev.setOp
  dsimp only
  split
  · exact Dev.modPad_standing _ _ fun _ => rfl
  · rfl

@[simp] theorem Dev.endOp_standing (d : Dev) (i : Option (Fin 64)) (st : OpState) (code : Nat) :
    (d.endOp i st code).standing = d.standing := by
  unfold Dev.endOp
  split
  · split
    · exact Dev.setOp_standing ..
    · rfl
  · rfl

theorem Tile.dropSample_standing (t : Tile) (now : Nat) :
    ((t.dropSample now).power, (t.dropSample now).ctl.bound) = (t.power, t.ctl.bound) := by
  unfold Tile.dropSample
  split <;> rfl

@[simp] theorem Dev.settle_standing (d : Dev) (k : PadId) : (d.settle k).standing = d.standing := by
  unfold Dev.settle
  split
  · rfl
  split
  · rfl
  · refine (Dev.endOp_standing ..).trans ((Dev.forSites_standing _ _ fun t => t.dropSample_standing _).trans
      ((Dev.modPad_standing _ _ fun q => ?_).trans ?_))
    · rfl
    · split
      · exact Dev.faultEvent_standing ..
      · rfl

theorem Dev.dueFault_standing (d : Dev) (k : PadId) (p : Paddock) (snap : Bool) (f : FaultInfo) (event : Bytes) :
    (d.dueFault k p snap f event).standing = d.standing := d.modPad_standing k fun _ => rfl

@[simp] theorem Dev.raise_standing (d : Dev) (k : PadId) (ctx : Option (SiteId × CtxId)) (snap : Bool) (f : FaultInfo) :
    (d.raise k ctx snap f).standing = d.standing := by
  unfold Dev.raise
  split
  · rfl
  split
  · rfl
  · extract_lets event noted posted
    have hnoted : noted.standing = d.standing := by
      unfold noted
      split
      · exact d.modTile_standing _ fun _ => rfl
      · rfl
    have hposted : posted.standing = noted.standing := by
      unfold posted
      split
      · rfl
      · exact Dev.faultEvent_standing ..
    exact (Dev.dueFault_standing ..).trans (hposted.trans hnoted)

@[simp] theorem Dev.retireStop_standing (d : Dev) (k : PadId) (p : Paddock) (s : SiteId) (code : Nat) :
    (d.retireStop k p s code).standing = d.standing := by
  unfold Dev.retireStop
  split
  · exact Dev.settle_standing ..
  · dsimp only
    rw [Dev.settle_standing]
    split
    · exact (Dev.dueFault_standing ..).trans (d.modPad_standing k fun _ => rfl)
    · exact (Dev.raise_standing ..).trans (d.modPad_standing k fun _ => rfl)

@[simp] theorem Dev.sendHitch_standing (d : Dev) (q : Nat) (m : HitchMsg) (job : Bytes) (code : Nat) (data : Bytes) :
    (d.sendHitch q m job code data).standing = d.standing :=
  Dev.sendHitch_keeps Dev.standing (fun _ _ _ => Dev.carry_keeps Dev.standing (fun _ _ => rfl) ..) d q m job code data

@[simp] theorem Dev.tellMembers_standing (d : Dev) (m : HitchMsg) (job : Bytes) : (d.tellMembers m job).standing = d.standing :=
  foldl_keeps Dev.standing (fun _ _ => Dev.sendHitch_standing ..) _ d

@[simp] theorem Dev.dropShadow_standing (d : Dev) (k : PadId) : (d.dropShadow k).standing = d.standing := by
  unfold Dev.dropShadow
  split
  · refine Dev.forSites_standing _ _ fun t => ?_
    split <;> rfl
  · rfl

theorem Dev.leaveLoading_standing (d : Dev) (k : PadId) : (d.leaveLoading k).standing = d.standing :=
  d.modPad_standing k fun _ => rfl

theorem Dev.closeStream_standing (d : Dev) (i : Nat) : (d.closeStream i).standing = d.standing :=
  d.modPad_standing _ fun _ => rfl

@[simp] theorem Dev.endLoad_standing (d : Dev) (slot : Fin 64) (st : OpState) (code : Nat) :
    (d.endLoad slot st code).standing = d.standing := by
  unfold Dev.endLoad
  split
  · exact Dev.setOp_standing ..
  · extract_lets told left cleared
    have htold : told.standing = d.standing := by
      unfold told
      split
      · exact Dev.tellMembers_standing ..
      · rfl
    have hleft : left.standing = d.standing := by
      unfold left
      split
      · exact htold
      · rfl
    clear_value left
    have hcleared : cleared.standing = left.standing := (Dev.leaveLoading_standing ..).trans (Dev.dropShadow_standing ..)
    rw [Dev.setOp_standing, Dev.closeStream_standing]
    exact hcleared.trans hleft

@[simp] theorem Dev.failLoad_standing (d : Dev) (k : PadId) (code : Nat) : (d.failLoad k code).standing = d.standing := by
  unfold Dev.failLoad
  split
  · exact Dev.endLoad_standing ..
  · split
    · exact (Dev.sendHitch_standing ..).trans (Dev.dropShadow_standing ..)
    · rfl
  · rfl

@[simp] theorem Dev.endPadOps_standing (d : Dev) (k : PadId) (code : Nat) : (d.endPadOps k code).standing = d.standing := by
  refine (Dev.failLoad_standing ..).trans (foldl_keeps Dev.standing (fun e i => ?_) _ d)
  split
  · exact Dev.setOp_standing ..
  · rfl

theorem Dev.setBounds_standing (d : Dev) (k : PadId) : (d.setBounds k).standing = d.standing := by
  unfold Dev.setBounds
  split
  · refine foldl_keeps Dev.standing (fun e s => ?_) _ d
    exact e.modTile_standing s fun _ => rfl
  · rfl

theorem Dev.dropImage_standing (d : Dev) (k : PadId) : (d.dropImage k).standing = d.standing := by
  unfold Dev.dropImage
  split
  · refine (Dev.setBounds_standing ..).trans ((Dev.modPad_standing _ _ fun p => ?_).trans (Dev.forSites_standing _ _ fun t => ?_)) <;>
      rfl
  · rfl

/-! ### What a wake touches -/

/-- Of the paddocks' lists, the tiles but one and the sites retired, a change leaves all but tiles that a paddock loses and sites that
retire. -/
structure Dev.Touches (s : SiteId) (d d' : Dev) : Prop where
  lists : ∀ k q, d'.standing.1 k = some q → ∃ p, d.standing.1 k = some p ∧ ∀ r, some r ∈ q → some r ∈ p
  others : ∀ r, r ≠ s → d'.standing.2 r = d.standing.2 r
  retired : ∀ r : SiteId, d.kinds[r] = .retired → d'.kinds[r] = .retired

section
variable {s : SiteId} {d d₁ d' : Dev}

theorem Dev.Touches.of_eq (h : d'.standing = d.standing) (hkinds : d'.kinds = d.kinds) : Dev.Touches s d d' where
  lists _ q hq := ⟨q, h ▸ hq, fun _ => id⟩
  others _ _ := h ▸ rfl
  retired _ hr := hkinds ▸ hr

theorem Dev.Touches.trans (h₁ : Dev.Touches s d d₁) (h₂ : Dev.Touches s d₁ d') : Dev.Touches s d d' where
  lists k q hq := by
    obtain ⟨q₁, hq₁, hsub₁⟩ := h₂.lists k q hq
    obtain ⟨p, hp, hsub⟩ := h₁.lists k q₁ hq₁
    exact ⟨p, hp, fun r hr => hsub r (hsub₁ r hr)⟩
  others r hr := (h₂.others r hr).trans (h₁.others r hr)
  retired r hr := h₂.retired r (h₁.retired r hr)

theorem Dev.touches_modTile (d : Dev) (s : SiteId) (f : Tile → Tile) : Dev.Touches s d (d.modTile s f) where
  lists _ q hq := ⟨q, hq, fun _ => id⟩
  others r hr := by
    show (((d.modTile s f).tile r).power, ((d.modTile s f).tile r).ctl.bound) = ((d.tile r).power, (d.tile r).ctl.bound)
    rw [d.modTile_tile_ne s r f hr]
  retired _ := id

theorem Dev.loseTile_touches (d : Dev) (k : PadId) (n : Nat) (s : SiteId) : Dev.Touches s d (d.loseTile k n) := by
  have hlose : Dev.Touches s d (d.modPad k fun p => { p with state := .stopped, image := none, tiles := p.tiles.set n none }) := by
    refine ⟨fun j q hq => ?_, fun _ _ => rfl, fun _ => id⟩
    by_cases hj : j = k
    · subst hj
      simp only [Dev.standing, Dev.modPad_pad, Option.map_map, Option.map_eq_some_iff, Function.comp_apply] at hq ⊢
      obtain ⟨p, hp, rfl⟩ := hq
      exact ⟨p.tiles, ⟨p, hp, rfl⟩, fun r hr => (List.mem_or_eq_of_mem_set hr).resolve_right nofun⟩
    · simp only [Dev.standing, Dev.modPad_pad_ne _ _ _ _ hj] at hq
      exact ⟨q, hq, fun _ => id⟩
  unfold Dev.loseTile
  dsimp only
  split
  · exact hlose.trans (.of_eq (Dev.forSites_standing _ _ fun _ => rfl) (Dev.forSites_kinds ..))
  · exact hlose

theorem Dev.retireTile_touches (d : Dev) (s : SiteId) (code : Option Nat) : Dev.Touches s d (d.retireTile s code) := by
  unfold Dev.retireTile
  split
  · exact .of_eq rfl rfl
  · extract_lets ctl marked stops stopped
    have hmarked : Dev.Touches s d marked := by
      refine ⟨fun _ q hq => ⟨q, hq, fun _ => id⟩, fun _ _ => rfl, fun r hr => ?_⟩
      by_cases hrs : r = s
      · rw [hrs]
        exact vmod_same ..
      · exact (vmod_other _ _ _ _ hrs).trans hr
    have hstopped : Dev.Touches s marked stopped := by
      unfold stopped
      split
      · exact .of_eq rfl rfl
      split
      · exact .of_eq rfl rfl
      · exact (Dev.Touches.of_eq ((Dev.endPadOps_standing ..).trans (Dev.retireStop_standing ..))
          ((Dev.endPadOps_kinds ..).trans (Dev.retireStop_kinds ..))).trans (Dev.loseTile_touches ..)
    exact (hmarked.trans hstopped).trans ((Dev.touches_modTile _ s darkTile).trans (.of_eq rfl rfl))

theorem Dev.setBounds_kinds (d : Dev) (k : PadId) : (d.setBounds k).kinds = d.kinds := by
  unfold Dev.setBounds
  split
  · refine foldl_keeps (·.kinds) (fun e s => ?_) _ d
    rfl
  · rfl

theorem Dev.dropImage_kinds (d : Dev) (k : PadId) : (d.dropImage k).kinds = d.kinds := by
  unfold Dev.dropImage
  split
  · exact (Dev.setBounds_kinds ..).trans (Dev.forSites_kinds ..)
  · rfl

/-- The device once the known-answer scan of a tile that wakes has been made (R529). -/
def Dev.katScanned (d : Dev) (s : SiteId) : Dev :=
  { d with freeCtr := d.freeCtr + 1 }.modTile s fun t =>
    let t := (t.askScan (BitVec.ofNat 32 (Config.freeBits d.freeCtr))).scan
    { t with scrub := { t.scrub with checkedAt := d.now, lastBeat := BitVec.ofNat 32 t.scrub.beat } }

theorem Dev.wakeScan_eq (d : Dev) (s : SiteId) : d.wakeScan s =
    if ((d.katScanned s).tile s).scrub.scanOk (BitVec.ofNat 32 (Config.freeBits d.freeCtr)) then d.katScanned s
    else (d.katScanned s).retireTile s (some 0xE004) := rfl

theorem Dev.wakeScan_touches (d : Dev) (s : SiteId) : Dev.Touches s d (d.wakeScan s) := by
  have hscanned : Dev.Touches s d (d.katScanned s) := by
    refine Dev.Touches.trans (d₁ := { d with freeCtr := d.freeCtr + 1 }) (.of_eq rfl rfl) ?_
    exact Dev.touches_modTile _ s _
  rw [Dev.wakeScan_eq]
  split
  · exact hscanned
  · exact hscanned.trans (Dev.retireTile_touches ..)

theorem Dev.wake_touches (d : Dev) (s : SiteId) : Dev.Touches s d (d.wake s) := by
  unfold Dev.wake
  extract_lets p active dark woken
  have hactive : Dev.Touches s d active := d.touches_modTile s _
  have hdark : Dev.Touches s d dark := hactive.trans (active.touches_modTile s _)
  have hwoken : Dev.Touches s d woken := by
    unfold woken
    split
    · exact hactive
    split
    · exact hdark.trans (.of_eq (Dev.dropImage_standing ..) (Dev.dropImage_kinds ..))
    · exact hdark
  split
  · exact .of_eq rfl rfl
  split
  · exact hwoken
  · exact hwoken.trans (Dev.wakeScan_touches ..)

end

/-! ### A site that has been woken rests -/

/-- The site needs no wake: it is ACTIVE, or retired and without a paddock. -/
def Dev.Rests (d : Dev) (s : SiteId) : Prop := d.power s = 0 ∨ d.kinds[s] = .retired ∧ d.padOf s = none

theorem Dev.power_standing (d : Dev) (s : SiteId) : d.power s = (d.standing.2 s).1.toNat % 4 := rfl

theorem Dev.padOf_standing (d : Dev) (s : SiteId) : d.padOf s = (d.standing.2 s).2.map (·.1) := rfl

theorem Dev.Rests.touched {r s : SiteId} {d d' : Dev} (h : d.Rests r) (ht : Dev.Touches s d d') (hr : r ≠ s) : d'.Rests r := by
  refine h.imp (fun hpower => ?_) fun ⟨hkind, hpad⟩ => ⟨ht.retired r hkind, ?_⟩
  · rw [Dev.power_standing, ht.others r hr]
    exact hpower
  · rw [Dev.padOf_standing, ht.others r hr]
    exact hpad

theorem Dev.retireTile_rests {d : Dev} {s : SiteId} (code : Option Nat) (h : d.power s = 0) : (d.retireTile s code).Rests s := by
  by_cases hkind : d.kinds[s] = .retired
  · refine .inl ?_
    rw [Dev.retireTile, if_pos (beq_iff_eq.mpr hkind)]
    exact h
  · refine .inr ⟨d.retireTile_retired s code, ?_⟩
    rw [Dev.retireTile, if_neg (mt beq_iff_eq.mp hkind)]
    exact congrArg (fun t : Tile => t.ctl.bound.map Prod.fst) (Dev.modTile_tile _ s darkTile)

/-- A scan leaves its tile's power state and number. -/
theorem Tile.scan_standing (t : Tile) : (t.scan.power, t.scan.ctl.bound) = (t.power, t.ctl.bound) := by
  unfold Tile.scan
  split
  · rfl
  · split <;> rfl

theorem Dev.power_congr {d d' : Dev} (h : d'.standing = d.standing) (s : SiteId) : d'.power s = d.power s :=
  congrArg (fun v => (v.2 s).1.toNat % 4) h

theorem Dev.katScanned_standing (d : Dev) (s : SiteId) : (d.katScanned s).standing = d.standing :=
  Dev.modTile_standing { d with freeCtr := d.freeCtr + 1 } s fun t => (t.askScan _).scan_standing

theorem Dev.wakeScan_rests {d : Dev} {s : SiteId} (h : d.power s = 0) : (d.wakeScan s).Rests s := by
  have hpower : (d.katScanned s).power s = 0 := (Dev.power_congr (d.katScanned_standing s) s).trans h
  rw [Dev.wakeScan_eq]
  split
  · exact .inl hpower
  · exact Dev.retireTile_rests _ hpower

theorem Dev.wake_rests (d : Dev) (s : SiteId) : (d.wake s).Rests s := by
  unfold Dev.wake
  extract_lets p active dark woken
  have hactive : active.power s = 0 := congrArg (fun t : Tile => t.power.toNat % 4) (d.modTile_tile s _)
  have hwoken : woken.power s = 0 := by
    have hdark : dark.standing = active.standing := active.modTile_standing s fun _ => rfl
    unfold woken
    split
    · exact hactive
    split
    · exact (Dev.power_congr ((Dev.dropImage_standing ..).trans hdark) s).trans hactive
    · exact (Dev.power_congr hdark s).trans hactive
  split
  · exact .inl (beq_iff_eq.mp ‹_›)
  split
  · exact .inl hwoken
  · exact Dev.wakeScan_rests hwoken

/-- A wake of a site that rests changes the tile and draws a seed at most. -/
theorem Dev.Rests.wake {d : Dev} {s : SiteId} (h : d.Rests s) : ∃ v n, d.wake s = { d with tiles := v, freeCtr := n } := by
  rcases h with hpower | ⟨hkind, hpad⟩
  · exact ⟨d.tiles, d.freeCtr, if_pos (beq_iff_eq.mpr hpower)⟩
  · unfold Dev.wake
    extract_lets p active dark woken
    have hwoken : ∃ v, woken = { d with tiles := v } := by
      have hnone : dark.padOf s = none :=
        calc dark.padOf s
          _ = active.padOf s := by
            show ((active.modTile s _).tile s).ctl.bound.map _ = _
            rw [Dev.modTile_tile]
            rfl
          _ = d.padOf s := by
            show ((d.modTile s _).tile s).ctl.bound.map _ = _
            rw [Dev.modTile_tile]
            rfl
          _ = none := hpad
      unfold woken
      rw [hnone]
      split <;> exact ⟨_, rfl⟩
    obtain ⟨v, hv⟩ := hwoken
    split
    · exact ⟨_, _, rfl⟩
    split
    · exact ⟨v, d.freeCtr, hv⟩
    · rw [hv, Dev.wakeScan_eq]
      split
      · exact ⟨_, _, rfl⟩
      · exact ⟨_, _, if_pos (beq_iff_eq.mpr hkind)⟩

/-- Waking the sites of a list leaves them at rest, and those that rested, and no paddock gains a tile. -/
theorem Dev.foldl_wake_rests (l : List SiteId) (d : Dev) :
    (∀ s, (s ∈ l ∨ d.Rests s) → (l.foldl (fun d s => d.wake s) d).Rests s) ∧
    ∀ k q, (l.foldl (fun d s => d.wake s) d).standing.1 k = some q →
      ∃ p, d.standing.1 k = some p ∧ ∀ r, some r ∈ q → some r ∈ p := by
  induction l generalizing d with
  | nil => exact ⟨fun s h => h.resolve_left (List.not_mem_nil), fun _ q hq => ⟨q, hq, fun _ => id⟩⟩
  | cons s l ih =>
    obtain ⟨hrests, hlists⟩ := ih (d.wake s)
    have htouch := d.wake_touches s
    refine ⟨fun r hr => hrests r ?_, fun k q hq => ?_⟩
    · by_cases hrs : r = s
      · exact .inr (hrs ▸ d.wake_rests s)
      · exact hr.imp (fun h => (List.mem_cons.mp h).resolve_left hrs) fun h => h.touched htouch hrs
    · obtain ⟨q₁, hq₁, hsub₁⟩ := hlists k q hq
      obtain ⟨p, hp, hsub⟩ := htouch.lists k q₁ hq₁
      exact ⟨p, hp, fun r hr => hsub r (hsub₁ r hr)⟩

theorem Paddock.mem_sites {p : Paddock} {s : SiteId} : s ∈ p.sites ↔ some s ∈ p.tiles := by
  simp [Paddock.sites]

/-- Every tile of a paddock that has been woken rests. -/
theorem Dev.wakePad_rests {d : Dev} {k : PadId} {q : Paddock} (hq : (d.wakePad k).pad k = some q) {s : SiteId} (hs : s ∈ q.sites) :
    (d.wakePad k).Rests s := by
  unfold Dev.wakePad at hq ⊢
  split at hq
  · next p hp =>
    obtain ⟨hrests, hlists⟩ := Dev.foldl_wake_rests p.sites d
    obtain ⟨tiles, htiles, hsub⟩ := hlists k q.tiles (congrArg (Option.map Paddock.tiles) hq)
    have hp' : d.standing.1 k = some p.tiles := congrArg (Option.map Paddock.tiles) hp
    obtain rfl : p.tiles = tiles := Option.some.inj (hp'.symm.trans htiles)
    exact hrests s (.inl (Paddock.mem_sites.mpr (hsub s (Paddock.mem_sites.mp hs))))
  · next hp => cases hp.symm.trans hq

theorem Dev.foldl_wake_of_rests {l : List SiteId} {d : Dev} (h : ∀ s ∈ l, d.Rests s) :
    ∃ v n, l.foldl (fun d s => d.wake s) d = { d with tiles := v, freeCtr := n } := by
  induction l generalizing d with
  | nil => exact ⟨_, _, rfl⟩
  | cons s l ih =>
    have hrests (r : SiteId) (hr : r ∈ l) : (d.wake s).Rests r := by
      by_cases hrs : r = s
      · exact hrs ▸ d.wake_rests s
      · exact (h r (List.mem_cons_of_mem _ hr)).touched (d.wake_touches s) hrs
    obtain ⟨v, n, hrest⟩ := ih hrests
    obtain ⟨v', n', hfirst⟩ := (h s List.mem_cons_self).wake
    refine ⟨v, n, ?_⟩
    rw [List.foldl_cons, hrest, hfirst]

/-- A second wake of a paddock changes tiles and draws seeds at most. -/
theorem Dev.wakePad_of_rests {d : Dev} {k : PadId} (h : ∀ q, d.pad k = some q → ∀ s ∈ q.sites, d.Rests s) :
    ∃ v n, d.wakePad k = { d with tiles := v, freeCtr := n } := by
  unfold Dev.wakePad
  split
  · next q hq => exact Dev.foldl_wake_of_rests (h q hq)
  · exact ⟨_, _, rfl⟩

end Sys2Proof.Machine
end

section
/-!
PROOFS. Long commands: the slot that a new operation takes, and the statement about them (R416, R417, R431 to R434, R528).
-/
namespace Sys2Proof.Machine

/-! ### A new operation (R416) -/

/-- The device with an operation in a slot: QUEUED, of the next generation. -/
def Dev.withOp (d : Dev) (j : Fin 64) (o : Op) : Dev :=
  { d with freeCtr := d.freeCtr + 1 }.modOp j fun q => { o with gen := nextGen q.gen, held := true }

theorem Dev.withOp_op (d : Dev) (j : Fin 64) (o : Op) : (d.withOp j o).op j = { o with gen := nextGen (d.op j).gen, held := true } :=
  vmod_same d.ops j _

/-- Where an operation fits, it takes a free slot. -/
theorem Dev.newOp_of_room {d : Dev} {m n : Nat} (h : d.opRoom m n = true) (hn : 0 < n) (o : Op) :
    ∃ j ∈ d.freeSlots, d.newOp o = (j, d.withOp j o) := by
  obtain ⟨hroom, -⟩ := by simpa [Dev.opRoom] using h
  have hlt := Nat.mod_lt (Config.freeBits d.freeCtr) (by omega : 0 < d.freeSlots.length)
  refine ⟨_, List.getElem_mem hlt, ?_⟩
  have hpick : pickFrom d.freeSlots (Config.freeBits d.freeCtr) = some (d.freeSlots[Config.freeBits d.freeCtr % d.freeSlots.length]) :=
    List.getElem?_eq_getElem hlt
  have hnew : d.newOp o = ((pickFrom d.freeSlots (Config.freeBits d.freeCtr)).getD 0,
      d.withOp ((pickFrom d.freeSlots (Config.freeBits d.freeCtr)).getD 0) o) := rfl
  rw [hnew, hpick, Option.getD_some]

/-- An operation of a mailbox and type stands QUEUED in a slot that was free, with the next generation (R416). -/
structure Dev.Queues (d : Dev) (m : Nat) (t : OpType) (j : Fin 64) (d' : Dev) : Prop where
  free : j ∈ d.freeSlots
  typ : (d'.op j).typ = t
  state : (d'.op j).state = .queued
  held : (d'.op j).held = true
  mailbox : (d'.op j).mailbox = m
  gen : (d'.op j).gen = nextGen (d.op j).gen

/-- Where an operation fits, a new one is queued. -/
theorem Dev.newOp_queues {d : Dev} {m n : Nat} (h : d.opRoom m n = true) (hn : 0 < n) {o : Op} (hstate : o.state = .queued) :
    ∃ j, d.newOp o = (j, d.withOp j o) ∧ d.Queues o.mailbox o.typ j (d.withOp j o) := by
  obtain ⟨j, hj, hnew⟩ := Dev.newOp_of_room h hn o
  have hop := d.withOp_op j o
  exact ⟨j, hnew, hj, by rw [hop], by rw [hop, ← hstate], by rw [hop], by rw [hop], by rw [hop]⟩

/-- Of the device before, only the table matters. -/
theorem Dev.Queues.of_ops {d d₁ d' : Dev} {m : Nat} {t : OpType} {j : Fin 64} (h : d.Queues m t j d') (hops : d.ops = d₁.ops) :
    d₁.Queues m t j d' := by
  have hfree : d.freeSlots = d₁.freeSlots := by simp only [Dev.freeSlots, Dev.op, hops]
  have hop : d.op j = d₁.op j := congrArg (·[j]) hops
  exact ⟨hfree ▸ h.free, h.typ, h.state, h.held, h.mailbox, hop ▸ h.gen⟩

/-- What leaves the operation's fields that R416 shows alone leaves it queued. -/
theorem Dev.Queues.congr {d d₁ d' : Dev} {m : Nat} {t : OpType} {j : Fin 64} (h : d.Queues m t j d₁)
    (hop : ∃ r, d'.op j = { d₁.op j with reserve := r }) : d.Queues m t j d' := by
  obtain ⟨r, hop⟩ := hop
  exact ⟨h.free, hop ▸ h.typ, hop ▸ h.state, hop ▸ h.held, hop ▸ h.mailbox, hop ▸ h.gen⟩

/-! ### The start of a run (R441, R528) -/

theorem Dev.forSites_only (ss : List SiteId) (f : Tile → Tile) (d : Dev) : ∃ v, d.forSites ss f = { d with tiles := v } := by
  induction ss generalizing d with
  | nil => exact ⟨_, rfl⟩
  | cons s ss ih =>
    obtain ⟨v, hv⟩ := ih (d.modTile s f)
    exact ⟨v, hv⟩

theorem Dev.reload_only (d : Dev) (k : PadId) : ∃ v, d.reload k = { d with tiles := v } := by
  unfold Dev.reload
  split
  · exact ⟨_, rfl⟩
  · next p _ =>
    obtain ⟨v, hv⟩ := Dev.forSites_only p.sites Tile.reload d
    obtain ⟨w, hw⟩ := Dev.forSites_only (p.pass.filter fun s => !p.sites.contains s)
      (fun t => { t with grid := t.grid.map Pos.emptied }) (d.forSites p.sites Tile.reload)
    exact ⟨w, by rw [hw, hv]⟩

/-- A run that starts on tiles at rest: its paddock, and tiles and draws at most. -/
theorem Dev.startRun_of_rests {d : Dev} {k : PadId} (h : ∀ q, d.pad k = some q → ∀ s ∈ q.sites, d.Rests s) (slot : Fin 64)
    (params : List (BitVec 64)) : ∃ v n, d.startRun k slot params = { d with tiles := v, freeCtr := n }.modPad k fun p => { p with
      state := .running, run := some slot, params := params, reloading := true, stopAt := none, due := [], faultRec := none,
      suspendDue := false, idle := 0, fired := false } := by
  obtain ⟨v, n, hwake⟩ := Dev.wakePad_of_rests h
  unfold Dev.startRun
  rw [hwake]
  extract_lets woken sites started
  obtain ⟨v₁, hstarted⟩ : ∃ v₁, started = { woken with tiles := v₁ } := Dev.forSites_only ..
  obtain ⟨v₂, hreload⟩ := started.reload_only k
  refine ⟨v₂, n, ?_⟩
  rw [hreload, hstarted]

/-! ### Long commands -/

section
variable {e : Env} {m n : Nat} (h : e.d.opRoom m n = true) (hn : 0 < n)
include h hn

theorem longOp_queues (t : OpType) (args : List Nat) : ∃ j d', longOp e t args = (d', d'.opAccepted j []) ∧
    e.d.Queues e.mailbox t j d' ∧ d'.tiles = e.d.tiles ∧ d'.lofts = e.d.lofts ∧ d'.pads = e.d.pads := by
  obtain ⟨j, hnew, hqueues⟩ := Dev.newOp_queues h hn (o := { mailbox := e.mailbox, typ := t, args := args }) rfl
  unfold longOp
  rw [hnew]
  exact ⟨j, _, rfl, hqueues, rfl, rfl, rfl⟩

theorem fwStageRun_queues : ∃ j d',
    fwStageRun e = ({ e.fz with slots := vsetN e.fz.slots (e.f 0 1) (some []) }, d', d'.opAccepted j []) ∧
    e.d.Queues e.mailbox .fwStage j d' ∧ d'.tiles = e.d.tiles ∧ d'.lofts = e.d.lofts ∧ d'.pads = e.d.pads := by
  obtain ⟨j, hnew, hqueues⟩ := Dev.newOp_queues h hn (o := { mailbox := e.mailbox, typ := .fwStage, args := [e.f 0 1, e.f 8 8] }) rfl
  unfold fwStageRun
  rw [hnew]
  exact ⟨j, _, rfl, hqueues.congr ⟨_, rfl⟩, rfl, rfl, rfl⟩

theorem checkpointEffect_queues : ∃ j d', checkpointEffect e = (d', d'.opAccepted j []) ∧
    e.d.Queues e.mailbox .checkpoint j d' ∧ d'.lofts = e.d.lofts ∧ d'.tiles = e.d.tiles ∧ d'.pads = e.d.pads := by
  obtain ⟨nonce, c, hdraw⟩ : ∃ nonce c, (if e.d.sealed e.k then e.d.draw else (0, e.d)) = (nonce, { e.d with freeCtr := c }) := by
    split
    · exact ⟨_, _, rfl⟩
    · exact ⟨_, _, rfl⟩
  have hroom : Dev.opRoom { e.d with freeCtr := c } m n = true := h
  unfold checkpointEffect
  dsimp only
  rw [hdraw]
  generalize (if e.f 1 1 == 0 then e.ckptSize else e.restoreSize) = size
  obtain ⟨j, hnew, hqueued⟩ := Dev.newOp_queues hroom hn (o := { mailbox := e.mailbox, typ := .checkpoint, paddock := some e.k, args :=
    [e.f 1 1, e.f 8 8, e.f 16 8, nonce % 2 ^ 64, size] }) rfl
  have hqueues := hqueued.of_ops (d₁ := e.d) rfl
  dsimp only
  rw [hnew]
  dsimp only
  split
  · exact ⟨j, _, rfl, hqueues, rfl, rfl, rfl⟩
  · exact ⟨j, _, rfl, hqueues.congr ⟨_, Dev.modOp_op ..⟩, rfl, rfl, rfl⟩

theorem imageLoadEffect_queues {p : Paddock} (hpad : e.d.pad e.k = some p) : ∃ j d' body,
    imageLoadEffect e = (d', d'.opAccepted j body) ∧ e.d.Queues e.mailbox .imageLoad j d' ∧ d'.lofts = e.d.lofts ∧
    d'.pad e.k = some { p with faultRec := none, state := .loading, load := some j } := by
  have hroom : Dev.opRoom (e.d.modPad e.k fun p => { p with faultRec := none, state := .loading }) m n = true := h
  obtain ⟨j, hnew, hqueues⟩ := Dev.newOp_queues hroom hn (o := { mailbox := e.mailbox, typ := .imageLoad, paddock := some e.k }) rfl
  replace hqueues := hqueues.of_ops (d₁ := e.d) rfl
  unfold imageLoadEffect
  dsimp only
  rw [hnew]
  refine ⟨j, _, _, rfl, hqueues.congr ⟨_, rfl⟩, rfl, ?_⟩
  refine (Dev.modPad_pad _ e.k _).trans ?_
  have hloading := (e.d.modPad_pad e.k fun p => { p with faultRec := none, state := .loading }).trans (congrArg _ hpad)
  exact congrArg (Option.map _) hloading

theorem runStartEffect_queues {p : Paddock} (hpad : e.d.pad e.k = some p) (hrests : ∀ s ∈ p.sites, e.d.Rests s) : ∃ j d',
    runStartEffect e = (d', d'.opAccepted j []) ∧ e.d.Queues e.mailbox .run j d' ∧ d'.lofts = e.d.lofts ∧
    ∃ q, d'.pad e.k = some q ∧ q.state = .running ∧ q.run = some j ∧ q.reloading = true ∧
      q.params = (List.range 64).map fun n => BitVec.ofNat 64 (e.f (8 + 8 * n) 8) := by
  obtain ⟨j, hnew, hqueues⟩ := Dev.newOp_queues h hn (o := { mailbox := e.mailbox, typ := .run, paddock := some e.k }) rfl
  have hrests' (q : Paddock) (hq : (e.d.withOp j { mailbox := e.mailbox, typ := .run, paddock := some e.k }).pad e.k = some q)
      (s : SiteId) (hs : s ∈ q.sites) : (e.d.withOp j { mailbox := e.mailbox, typ := .run, paddock := some e.k }).Rests s := by
    obtain rfl : p = q := Option.some.inj (hpad.symm.trans hq)
    exact hrests s hs
  obtain ⟨v, c, hstart⟩ := Dev.startRun_of_rests hrests' j ((List.range 64).map fun n => BitVec.ofNat 64 (e.f (8 + 8 * n) 8))
  unfold runStartEffect
  dsimp only
  rw [hnew]
  dsimp only
  rw [hstart]
  refine ⟨j, _, rfl, hqueues.congr ⟨_, rfl⟩, rfl, _, ((Dev.modPad_pad _ e.k _).trans (congrArg (Option.map _) hpad)), rfl, rfl, rfl, rfl⟩

end

/-- Settles O53: an operation that fits takes a free slot, and what the command does besides leaves that slot alone; the tiles that a
load, a run or a checkpoint has woken need no second wake. -/
theorem longOperationsQueue : Obligations.LongOperationsQueue := by
  unfold Obligations.LongOperationsQueue
  intro p s e d awake queued same
  have hanswer {d d' : Dev} {i : Instr} {t : OpType} {fz : Fuse} {more : Dev → Fin 64 → Prop} {j : Fin 64} {body : Bytes}
      (hexec : exec i s = .next (s.answered p fz d' (d'.opAccepted j body))) (hq : d.Queues e.mailbox t j d') (hmore : more d' j) :
      queued d i t fz more :=
    ⟨d', j, body, hq.free, hexec, hq.typ, hq.state, hq.held, hq.mailbox, hq.gen, hmore⟩
  have hlong {i : Instr} {c : Cmd} {t : OpType} {args : List Nat} (hrow : worvisRow i = some (c, p, false)) (h : c.Accepted p s)
      (hrun : c.run (c.woken e) = (s.fuse, longOp e t args)) (hroom : ∀ e : Env, (e.d.opRoom e.mailbox 1, stNoRes) ∈ c.checks e) :
      queued d i t s.fuse same := by
    obtain ⟨j, d', heffect, hq, hframe⟩ := longOp_queues (e := e) (h.check (hroom e)) Nat.one_pos t args
    have hexec := exec_accepted hrow h
    rw [show (s.env p) = e from rfl, hrun, heffect] at hexec
    exact hanswer hexec hq hframe
  refine ⟨fun h => hlong rfl h rfl fun e => ?_, fun h => hlong rfl h rfl fun e => ?_, fun h => hlong rfl h rfl fun e => ?_,
    fun h => ?_, fun h => ?_, fun h => ?_, fun h => ?_⟩
  · simp [scrubCmd, need]
  · simp [dramTestCmd, need]
  · simp [routeRebuildCmd, need]
  · have hroom (e : Env) : (e.d.opRoom e.mailbox 1, stNoRes) ∈ fwStageCmd.checks e := by simp [fwStageCmd, need]
    obtain ⟨j, d', heffect, hq, hframe⟩ := fwStageRun_queues (e := e) (h.check (hroom e)) Nat.one_pos
    have hexec : exec (.fwStage p false) s = .next (s.answered p (fwStageRun e).1 (fwStageRun e).2.1 (fwStageRun e).2.2) :=
      exec_accepted rfl h
    rw [heffect] at hexec
    exact hanswer hexec hq hframe
  · have hroom (e : Env) : (e.d.opRoom e.mailbox (1 + e.f 1 1), stNoRes) ∈ checkpointCmd.checks e := by simp [checkpointCmd, need]
    obtain ⟨j, d', heffect, hq, hframe⟩ := checkpointEffect_queues (h.wokenCheck (hroom (checkpointCmd.woken e))) (by omega)
    have hexec : exec (.checkpoint p false) s = .next
        (s.answered p s.fuse (checkpointEffect (checkpointCmd.woken e)).1 (checkpointEffect (checkpointCmd.woken e)).2) :=
      exec_accepted rfl h
    rw [heffect] at hexec
    exact hanswer hexec hq hframe
  · have hroom (e : Env) : (e.d.opRoom e.mailbox 1, stNoRes) ∈ imageLoadCmd.checks e := by simp [imageLoadCmd, need]
    have hthere (e : Env) : (e.pad?.isSome, stNoRes) ∈ imageLoadCmd.checks e := by simp [imageLoadCmd, Env.padChecks]
    have hpad := Env.pad_k (h.wokenCheck (hthere (imageLoadCmd.woken e)))
    obtain ⟨j, d', body, heffect, hq, hlofts, hpad'⟩ :=
      imageLoadEffect_queues (h.wokenCheck (hroom (imageLoadCmd.woken e))) Nat.one_pos hpad
    have hexec : exec (.imageLoad p false) s = .next
        (s.answered p s.fuse (imageLoadEffect (imageLoadCmd.woken e)).1 (imageLoadEffect (imageLoadCmd.woken e)).2) :=
      exec_accepted rfl h
    rw [heffect] at hexec
    exact hanswer hexec hq ⟨hlofts, _, hpad', rfl, rfl, rfl⟩
  · have hroom (e : Env) : (e.d.opRoom e.mailbox 1, stNoRes) ∈ runStartCmd.checks e := by simp [runStartCmd, need]
    have hthere (e : Env) : (e.pad?.isSome, stNoRes) ∈ runStartCmd.checks e := by simp [runStartCmd, Env.padChecks]
    have hpad := Env.pad_k (h.wokenCheck (hthere (runStartCmd.woken e)))
    have hrests (q : Paddock) (hq : awake.pad e.k = some q) (r : SiteId) (hr : r ∈ q.sites) : awake.Rests r :=
      Dev.wakePad_rests hq hr
    obtain ⟨j, d', heffect, hq, hlofts, hpad'⟩ :=
      runStartEffect_queues (h.wokenCheck (hroom (runStartCmd.woken e))) Nat.one_pos hpad (hrests _ hpad)
    have hexec : exec (.runStart p false) s = .next
        (s.answered p s.fuse (runStartEffect (runStartCmd.woken e)).1 (runStartEffect (runStartCmd.woken e)).2) :=
      exec_accepted rfl h
    rw [heffect] at hexec
    obtain ⟨v, n, hagain⟩ := Dev.wakePad_of_rests hrests
    have hlofts' : (awake.wakePad e.k).lofts = awake.lofts := congrArg (·.lofts) hagain
    exact hanswer hexec hq ⟨hlofts.trans hlofts'.symm, hpad'⟩

end Sys2Proof.Machine
end

section
/-!
PROOFS. What the operations of the links, the election, the reports, the summary of health and the failed device leave of the device:
everything but a few fields, said once.
-/
namespace Sys2Proof.Machine

/-! ### Links and election -/

/-- The device without what links, the election and reports change: links, fabric and mesh, and the events posted. -/
def Dev.offLinks (d : Dev) : Dev :=
  { d with
    mesh := [], meshIn := Vector.replicate 48 (Vector.replicate 8 0)
    links := Vector.replicate 16 {}, fab := {}, rings := Vector.replicate 17 {} }

@[simp] theorem Dev.carry_offLinks (d : Dev) (a b : MeshEnd) (vc : Fin 4) (prio : Bool) (pad : Option PadId) (n : Nat) :
    (d.carry a b vc prio pad n).offLinks = d.offLinks := Dev.carry_keeps Dev.offLinks (fun _ _ => rfl) d a b vc prio pad n

@[simp] theorem Dev.sendOn_offLinks (d : Dev) (n : LinkId) (p : OutPkt) : (d.sendOn n p).offLinks = d.offLinks :=
  d.carry_offLinks prYard (prOfLink n) 0 false none p.bytes

theorem Dev.restartElection_offLinks (d : Dev) (x : BitVec 64) : (d.restartElection x).offLinks = d.offLinks := by
  unfold Dev.restartElection
  dsimp only
  split
  · refine (foldl_keeps Dev.offLinks (fun e n => ?_) _ _).trans rfl
    exact e.sendOn_offLinks n _
  · rfl

@[simp] theorem Dev.reportUp_offLinks (d : Dev) (x : BitVec 64) : (d.reportUp x).offLinks = d.offLinks := by
  unfold Dev.reportUp
  split
  · split
    · rfl
    · exact Dev.sendOn_offLinks ..
  · rfl

theorem Dev.onLinkLost_offLinks (d : Dev) (x : BitVec 64) (n : LinkId) : (d.onLinkLost x n).offLinks = d.offLinks := by
  unfold Dev.onLinkLost
  dsimp only
  rw [Dev.reportUp_offLinks]
  split
  · exact Dev.restartElection_offLinks ..
  · rfl

@[simp] theorem Dev.linkLeft_offLinks (d : Dev) (fz : Fuse) (n : LinkId) (o : LinkState) :
    (d.linkLeft fz n o).offLinks = d.offLinks := by
  unfold Dev.linkLeft
  split
  · exact Dev.onLinkLost_offLinks ..
  · exact Dev.reportUp_offLinks ..

theorem Dev.freeOne_offLinks (d : Dev) (i v : Nat) : (d.freeOne i v).offLinks = d.offLinks := by
  unfold Dev.freeOne
  split <;> rfl

@[simp] theorem Dev.loseFlits_offLinks (d : Dev) (n : LinkId) : (d.loseFlits n).offLinks = d.offLinks := by
  refine (rfl : (d.loseFlits n).offLinks = ((d.link n).txFlits.foldl (fun d f => d.freeOne f.input f.inVc) d).offLinks).trans
    (foldl_keeps Dev.offLinks (fun e f => ?_) _ d)
  exact e.freeOne_offLinks f.input f.inVc

@[simp] theorem Dev.linkDown_offLinks (d : Dev) (fz : Fuse) (n : LinkId) : (d.linkDown fz n).offLinks = d.offLinks :=
  (Dev.linkLeft_offLinks ..).trans (d.loseFlits_offLinks n)

theorem Dev.takeSplit_offLinks (d : Dev) (p : Nat) : (d.takeSplit p).offLinks = d.offLinks := by
  refine foldl_keeps Dev.offLinks (fun e n => ?_) _ d
  split <;> rfl

@[simp] theorem Dev.bringUpLink_offLinks (d : Dev) (n : LinkId) : (d.bringUpLink n).offLinks = d.offLinks := by
  unfold Dev.bringUpLink
  extract_lets cfg set
  have hset : set.offLinks = d.offLinks := d.takeSplit_offLinks (n.val / 2)
  split <;> exact hset

theorem Dev.same_of_offLinks {α : Type} {d d' : Dev} (h : d'.offLinks = d.offLinks) (f : Dev → α) (hf : ∀ e, f (Dev.offLinks e) = f e) :
    f d' = f d :=
  (hf d').symm.trans ((congrArg f h).trans (hf d))

/-! ### Health (R503, R504) -/

/-- The device without what the summary of health changes as well: the alerts, and the masks of degradation and replacement. -/
def Dev.offFabric (d : Dev) : Dev :=
  { d.offLinks with alerts := 0#32, replaceN := false, ym := { d.ym with degrade := 0#32, replace := 0#32 } }

theorem Dev.offFabric_congr {d d' : Dev} (h : d'.offLinks = d.offLinks) : d'.offFabric = d.offFabric := by
  have hym : d'.ym = d.ym := congrArg (·.ym) h
  unfold Dev.offFabric
  rw [h, hym]

/-- What does not hang on links, fabric, events and health is the same where the rest of the device is. -/
theorem Dev.same_of_offFabric {α : Type} {d d' : Dev} (h : d'.offFabric = d.offFabric) (f : Dev → α) (hf : ∀ e, f (Dev.offFabric e) = f e) :
    f d' = f d :=
  (hf d').symm.trans ((congrArg f h).trans (hf d))

@[simp] theorem Dev.postDevice_offFabric (d : Dev) (typ : Nat) (pl : Bytes) : (d.postDevice typ pl).offFabric = d.offFabric := rfl

@[simp] theorem Dev.health_offFabric (d : Dev) : d.health.offFabric = d.offFabric := by
  unfold Dev.health
  extract_lets deg newDeg marked posted newRep replaced pinned
  have hposted : posted.offFabric = d.offFabric := by
    unfold posted
    split
    · rfl
    · exact marked.postDevice_offFabric _ _
  clear_value posted newRep
  split
  · exact hposted
  · have hpinned : pinned.offFabric = posted.offFabric := rfl
    rw [Dev.postDevice_offFabric, hpinned, hposted]

@[simp] theorem Dev.linkSet_offFabric (d : Dev) (fz : Fuse) (n : LinkId) (cfg : Nat) : (d.linkSet fz n cfg).offFabric = d.offFabric := by
  unfold Dev.linkSet
  extract_lets old reset split_ left
  have hreset : reset.offLinks = d.offLinks := d.loseFlits_offLinks n
  have hsplit : split_.offLinks = d.offLinks := by
    unfold split_
    split
    · exact (Dev.takeSplit_offLinks ..).trans hreset
    · exact hreset
  have hleft : left.offLinks = d.offLinks := (Dev.linkLeft_offLinks ..).trans hsplit
  split
  · rw [Dev.health_offFabric]
    exact Dev.offFabric_congr ((Dev.reportUp_offLinks ..).trans hleft)
  · exact Dev.offFabric_congr hleft

/-! ### The failed device (R502) -/

/-- The device without what the stop of its paddocks changes besides: tiles, operations, paddocks, and the mark of the failure. -/
def Dev.offWork (d : Dev) : Dev :=
  { d.offFabric with
    tiles := Vector.replicate 48 {}, ops := Vector.replicate 64 {}, pads := Vector.replicate 16 none
    ym := { d.offFabric.ym with failed := false } }

theorem Dev.offWork_congr {d d' : Dev} (h : d'.offFabric = d.offFabric) : d'.offWork = d.offWork := by
  unfold Dev.offWork
  rw [h]

theorem Dev.same_of_offWork {α : Type} {d d' : Dev} (h : d'.offWork = d.offWork) (f : Dev → α) (hf : ∀ e, f (Dev.offWork e) = f e) :
    f d' = f d :=
  (hf d').symm.trans ((congrArg f h).trans (hf d))

@[simp] theorem Dev.forSites_offWork (d : Dev) (ss : List SiteId) (f : Tile → Tile) : (d.forSites ss f).offWork = d.offWork := by
  refine foldl_keeps Dev.offWork (fun e s => ?_) ss d
  rfl

@[simp] theorem Dev.faultEvent_offWork (d : Dev) (k : PadId) (owner : Nat) (f : FaultInfo) :
    (d.faultEvent k owner f).offWork = d.offWork := by
  unfold Dev.faultEvent
  dsimp only
  split <;> rfl

@[simp] theorem Dev.endOp_offWork (d : Dev) (i : Option (Fin 64)) (st : OpState) (code : Nat) :
    (d.endOp i st code).offWork = d.offWork := by
  unfold Dev.endOp
  split
  · split
    · unfold Dev.setOp
      dsimp only
      split <;> rfl
    · rfl
  · rfl

@[simp] theorem Dev.settle_offWork (d : Dev) (k : PadId) : (d.settle k).offWork = d.offWork := by
  unfold Dev.settle
  split
  · rfl
  split
  · rfl
  · extract_lets old g due posted rec_ code stopped
    have hposted : posted.offWork = d.offWork := by
      unfold posted
      clear_value g
      cases g with
      | some x => exact Dev.faultEvent_offWork ..
      | none => rfl
    clear_value posted rec_
    exact (Dev.endOp_offWork ..).trans ((Dev.forSites_offWork ..).trans ((rfl : stopped.offWork = posted.offWork).trans hposted))

theorem Dev.fail_offWork (d : Dev) : d.fail.offWork = d.offWork := by
  unfold Dev.fail
  split
  · rfl
  · extract_lets marked stopped posted
    have hstopped : stopped.offWork = marked.offWork := by
      refine foldl_keeps Dev.offWork (fun e k => ?_) _ marked
      dsimp only
      split
      · split
        · exact Dev.settle_offWork ..
        · exact Dev.settle_offWork ..
      · rfl
    have hmarked : marked.offWork = d.offWork := rfl
    clear_value stopped
    calc ((posted.alert alertFailed).health).offWork
      _ = (posted.alert alertFailed).offWork := Dev.offWork_congr (Dev.health_offFabric _)
      _ = stopped.offWork := rfl
      _ = d.offWork := hstopped.trans hmarked

end Sys2Proof.Machine
end

section
/-!
PROOFS. The owner's commands: the start of Worvis, the retirement of the device, and the statement about these commands (R434, R452,
R459, R461, R501).
-/
namespace Sys2Proof.Machine

/-! ### Worvis starts (R501, R532) -/

theorem Dev.bootCores_keeps {α : Type} (f : Dev → α) (hdraw : ∀ d n, f { d with freeCtr := n } = f d)
    (hyard : ∀ d (c : Vector CoreState 4) (v : Vector (BitVec 4) 4), f (Dev.modYm d fun y => { y with cores := c, duties := v }) = f d)
    (d : Dev) : f d.bootCores = f d := by
  unfold Dev.bootCores
  extract_lets gone full state cored
  have hcored : f cored = f d := hyard d _ _
  refine Eq.trans ?_ hcored
  refine foldl_keeps f (fun e c => ?_) _ cored
  dsimp only
  split
  · exact (hyard _ _ _).trans (hdraw e _)
  · rfl

/-- The device with its blocks brought up and the duties of its cores given, before its links train. -/
def Dev.withCores (d : Dev) : Dev := ({ d with stage := .blocks }.modYm fun y => { y with started := true }).bootCores

theorem Dev.startWorvis_offWork (d : Dev) : d.startWorvis.offWork = d.withCores.offWork := by
  unfold Dev.startWorvis
  extract_lets booted up
  have hup : up.offWork = booted.offWork := by
    refine Dev.offWork_congr ((Dev.health_offFabric _).trans ?_)
    refine foldl_keeps Dev.offFabric (fun e n => ?_) _ booted
    exact Dev.offFabric_congr (e.bringUpLink_offLinks n)
  split
  · exact up.fail_offWork.trans hup
  · exact hup

/-- The start of Worvis brings cores and links up; it changes no loft, and neither the count of handovers nor the slot booted. -/
theorem Dev.startWorvis_keeps (d : Dev) : d.startWorvis.stage = .blocks ∧ d.startWorvis.lofts = d.lofts ∧
    d.startWorvis.ym.handovers = d.ym.handovers ∧ d.startWorvis.ym.slotB = d.ym.slotB := by
  have h := d.startWorvis_offWork
  refine ⟨(Dev.same_of_offWork h (·.stage) fun _ => rfl).trans ?_, (Dev.same_of_offWork h (·.lofts) fun _ => rfl).trans ?_,
    (Dev.same_of_offWork h (·.ym.handovers) fun _ => rfl).trans ?_, (Dev.same_of_offWork h (·.ym.slotB) fun _ => rfl).trans ?_⟩
  · exact Dev.bootCores_keeps (·.stage) (fun _ _ => rfl) (fun _ _ _ => rfl) _
  · exact Dev.bootCores_keeps (·.lofts) (fun _ _ => rfl) (fun _ _ _ => rfl) _
  · exact Dev.bootCores_keeps (·.ym.handovers) (fun _ _ => rfl) (fun _ _ _ => rfl) _
  · exact Dev.bootCores_keeps (·.ym.slotB) (fun _ _ => rfl) (fun _ _ _ => rfl) _

theorem Yard.takeOver_handovers (y : Yard) : y.takeOver.handovers = y.handovers := by
  unfold Yard.takeOver
  dsimp only
  split <;> rfl

/-- The device under the firmware that an activation starts, before the handover is counted. -/
def Dev.underFirmware (d : Dev) (slot : Nat) (fz : Fuse) : Dev :=
  let data := slotBytes fz slot []
  let d := { d with freeCtr := d.freeCtr + 1 }
  if d.stage == .recovery then
    ((d.bootSlot (slot == 1) data).modYm fun y => { y with validA := y.validA || slot == 0, validB := y.validB || slot == 1 }).startWorvis
  else d.modYm fun y => { y.takeOver with
    fwVersion := BitVec.ofNat 32 (Config.fwVersion data), runSvn := BitVec.ofNat 32 (Config.fwSecurityVersion data) }

theorem Dev.underFirmware_keeps (d : Dev) (slot : Nat) (fz : Fuse) :
    (d.underFirmware slot fz).lofts = d.lofts ∧ (d.underFirmware slot fz).ym.handovers = d.ym.handovers := by
  unfold Dev.underFirmware
  dsimp only
  split
  · obtain ⟨-, hlofts, hcount, -⟩ := Dev.startWorvis_keeps _
    exact ⟨hlofts, hcount⟩
  · exact ⟨rfl, Yard.takeOver_handovers _⟩

theorem activate_eq (slot : Nat) (fz : Fuse) (d : Dev) : ∃ h typ pl, activate slot fz d =
    ((d.underFirmware slot fz).modYm fun y => { y with handovers := satInc y.handovers, lastHandover := h }).postDevice typ pl :=
  ⟨_, _, _, rfl⟩

/-- An activation counts a handover, and changes no loft. -/
theorem activate_handovers (slot : Nat) (fz : Fuse) (d : Dev) :
    (activate slot fz d).ym.handovers = satInc d.ym.handovers ∧ (activate slot fz d).lofts = d.lofts := by
  obtain ⟨hlofts, hcount⟩ := d.underFirmware_keeps slot fz
  obtain ⟨h, typ, pl, heq⟩ := activate_eq slot fz d
  rw [heq]
  exact ⟨congrArg satInc hcount, hlofts⟩

/-! ### Retirement (R452) -/

theorem Dev.releasePad_of_none {d : Dev} {k : PadId} (h : d.pad k = none) : d.releasePad k = d := by
  unfold Dev.releasePad
  rw [h]

theorem Dev.releasePad_frees (d : Dev) (k : PadId) : (d.releasePad k).pad k = none := by
  cases h : d.pad k with
  | none => rw [Dev.releasePad_of_none h, h]
  | some p => exact Dev.releasePad_pad h

theorem Dev.releasePad_other (d : Dev) {j k : PadId} (hj : j ≠ k) : (d.releasePad k).pad j = d.pad j := by
  cases h : d.pad k with
  | none => rw [Dev.releasePad_of_none h]
  | some p => exact Dev.releasePad_pad_ne h hj

theorem Dev.releaseAll_pad (l : List PadId) (d : Dev) {k : PadId} (h : k ∈ l ∨ d.pad k = none) :
    (l.foldl (fun d k => d.releasePad k) d).pad k = none := by
  induction l generalizing d with
  | nil => exact h.resolve_left List.not_mem_nil
  | cons j l ih =>
    refine ih (d.releasePad j) ?_
    by_cases hk : k = j
    · exact .inr (hk ▸ d.releasePad_frees k)
    · exact h.imp (fun h => (List.mem_cons.mp h).resolve_left hk) fun h => (d.releasePad_other hk).trans h

/-- The device with every loft zeroed. -/
def Dev.allZeroed (d : Dev) : Dev := { d with lofts := d.lofts.map fun l => { l with mem := [], badWords := [], zeroing := [] } }

theorem Dev.allZeroed_pads (d : Dev) : d.allZeroed.pads = d.pads := rfl

theorem Dev.allZeroed_mem (d : Dev) (l : SiteId) : (d.allZeroed.loft l).mem = [] := by
  simp [Dev.loft, Dev.allZeroed]

theorem Dev.retireAll_clears (d : Dev) (fz : Fuse) :
    (∀ k : PadId, (d.retireAll fz).pad k = none) ∧ ∀ l : SiteId, ((d.retireAll fz).loft l).mem = [] := by
  have hlinks (e : Dev) : ((fins 16).foldl (fun d n => d.linkSet fz n ((d.link n).cfg.toNat % 16 / 2 * 2)) e).offFabric = e.offFabric := by
    refine foldl_keeps Dev.offFabric (fun e n => ?_) _ e
    exact e.linkSet_offFabric fz n _
  have hretired : (d.retireAll fz).offFabric = (Dev.allZeroed ((fins 16).foldl (fun d k => d.releasePad k) d.endAll)).offFabric := by
    unfold Dev.retireAll
    exact hlinks (Dev.allZeroed _)
  refine ⟨fun k => ?_, fun l => ?_⟩
  · have hreleased := Dev.releaseAll_pad (fins 16) d.endAll (k := k) (.inl (by simp [fins]))
    rw [Dev.pad, Dev.same_of_offFabric hretired (·.pads) fun _ => rfl, Dev.allZeroed_pads]
    exact hreleased
  · rw [Dev.loft, Dev.same_of_offFabric hretired (·.lofts) fun _ => rfl]
    exact Dev.allZeroed_mem _ l

/-! ### The owner's commands -/

/-- A command is accepted in the life cycles of its row only. -/
theorem Cmd.Accepted.lifecycle {c : Cmd} {p : Port} {s : State} (h : c.Accepted p s) : s.fuse.lifecycle ∈ c.states := by
  have hstate := h.2.1 (c.states.contains s.fuse.lifecycle &&
    (s.dev.stage != .recovery || recoveryOpcodes.contains (s.env p).opcode), stWrong) (by simp [Cmd.entry, State.env])
  simpa using (Bool.and_eq_true_iff.mp hstate).1

/-- Settles O56: an accepted row has its effect; what starts Worvis and what disables links is kept apart from the lofts, the paddocks
and the count of handovers. -/
theorem ownerCommandsTakeEffect : Obligations.OwnerCommandsTakeEffect := by
  unfold Obligations.OwnerCommandsTakeEffect
  intro p g n s e d fz done
  refine ⟨fun h hstage => ?_, fun h => ?_, exec_accepted rfl, exec_accepted rfl, exec_accepted rfl, fun h hn => ?_, fun h => ?_,
    fun h => ?_⟩
  · have hexec : done (.fwData p false) fz (fwDataEffect e) := exec_accepted rfl h
    unfold fwDataEffect at hexec
    rw [hstage] at hexec
    exact hexec
  · obtain ⟨hcount, hlofts⟩ := activate_handovers (d.staged.getD 0) fz d
    exact ⟨activate (d.staged.getD 0) fz d, exec_accepted rfl h, hcount, hlofts⟩
  · have hexec : done (.linkSet p false) fz (linkSetRun e) := exec_accepted rfl h
    unfold linkSetRun at hexec
    rw [hn, finOf_val] at hexec
    exact hexec
  · refine ⟨provisionEffect e (e.newStore.getD fz.store), exec_accepted rfl h, ?_, fun hopen => ?_, fun hfinish => ?_⟩
    · by_cases hopen : e.f 8 1 = 0
      · rw [provisionEffect_open _ hopen]
        rfl
      · rw [provisionEffect_finish _ hopen]
        rfl
    · rw [provisionEffect_open _ hopen]
      have hstate := h.lifecycle
      exact ⟨List.mem_singleton.mp hstate, rfl⟩
    · rw [provisionEffect_finish _ (by rw [hfinish]; decide)]
      have hkey := h.check (b := e.f 8 1 == 0 || ((e.newStore.map fun s => s.owner.isSome).getD false)) (st := stMalformed)
        (by simp [provisionCmd, need, e])
      obtain ⟨st, hst, howner⟩ : ∃ st, e.newStore = some st ∧ st.owner.isSome = true := by
        cases hnew : e.newStore with
        | none => simp [hfinish, hnew] at hkey
        | some st => exact ⟨st, rfl, by simpa [hfinish, hnew] using hkey⟩
      obtain ⟨key, hkey⟩ := Option.isSome_iff_exists.mp howner
      refine ⟨rfl, rfl, key, ?_, ?_⟩
      · rw [hst]
        exact hkey
      · rw [hst]
        exact congrArg (fun o => some (keyId (Option.getD o []))) hkey
  · obtain ⟨hpads, hlofts⟩ := d.retireAll_clears fz
    exact ⟨d.retireAll fz, exec_accepted rfl h, hpads, hlofts⟩

end Sys2Proof.Machine
end

section
/-!
PROOFS. Reset, bring-up, the thermal governor, entropy and the yardmaster's cores: rules for each, and the statements about them (R480,
R499 to R504, R523, R525, R531 to R537).
-/
namespace Sys2Proof.Machine

/-! ### Reset and the training of lofts (R531, R532) -/

theorem Dev.deadWindows_offWork (d : Dev) : d.deadWindows.offWork = d.offWork := by
  unfold Dev.deadWindows
  dsimp only
  split
  · exact d.fail_offWork
  · rfl

/-- A channel that is spared or lost leaves its loft trained, and its bytes alone. -/
theorem Dev.spareChan_keeps (d : Dev) (l : SiteId) (ch : Fin 64) :
    ((d.spareChan l ch).loft l).mem = (d.loft l).mem ∧ ((d.spareChan l ch).loft l).trained = (d.loft l).trained := by
  by_cases hspent : (d.loft l).layerSpent ch.val = true
  · rw [Dev.spareChan, if_pos hspent]
    unfold Dev.loseChan
    extract_lets lost
    have hlofts : ((lost.post 0 4 l.val 0xE009
        (payloadE 0 l.val 0xFF 1 0xFF ch.val (8 - (lost.loft l).sparedChans.length))).health.deadWindows).lofts = lost.lofts :=
      (Dev.same_of_offWork (Dev.deadWindows_offWork _) (·.lofts) fun _ => rfl).trans (Dev.health_lofts _)
    have hloft : lost.loft l = _ := d.modLoft_loft l _
    rw [Dev.loft, hlofts]
    exact ⟨(congrArg Loft.mem hloft :), (congrArg Loft.trained hloft :)⟩
  · rw [Dev.spareChan_loft (Bool.eq_false_iff.mpr hspent)]
    exact ⟨rfl, rfl⟩

theorem loftTrainingEffect_zeroes (l : SiteId) (failed : List (Fin 64)) (fz : Fuse) (d : Dev) :
    ((loftTrainingEffect l failed fz d).loft l).mem = [] ∧ ((loftTrainingEffect l failed fz d).loft l).trained = true := by
  have hspared (e : Dev) (hmem : (e.loft l).mem = []) (htrained : (e.loft l).trained = true) :
      ((failed.foldl (fun d c => d.spareChan l c) e).loft l).mem = [] ∧
      ((failed.foldl (fun d c => d.spareChan l c) e).loft l).trained = true := by
    induction failed generalizing e with
    | nil => exact ⟨hmem, htrained⟩
    | cons c cs ih =>
      obtain ⟨hm, ht⟩ := e.spareChan_keeps l c
      exact ih _ (hm.trans hmem) (ht.trans htrained)
  unfold loftTrainingEffect
  extract_lets zeroed
  have hloft : zeroed.loft l = _ := Dev.modLoft_loft _ l _
  rw [Dev.loft, Dev.health_lofts]
  exact hspared zeroed (congrArg Loft.mem hloft) (congrArg Loft.trained hloft)

theorem exec_loftTrainingComplete (l : SiteId) (failed : List (Fin 64)) (s : State) : exec (.loftTrainingComplete l failed) s =
    onEvent s (fun d => blocksUp d && !(d.loft l).trained) (loftTrainingEffect l failed) := rfl

/-- Settles O44: a reset is the cleared device itself; the loft is zeroed before its channels are spared, which leaves its bytes. -/
theorem resetKeepsFusesOnly : Obligations.ResetKeepsFusesOnly := by
  unfold Obligations.ResetKeepsFusesOnly
  intro l failed s d kept
  refine ⟨rfl, rfl, fun hstage htrained => ?_⟩
  have hen : (blocksUp d && !(d.loft l).trained) = true := by
    rcases hstage with h | h <;> simp [blocksUp, h, htrained]
  obtain ⟨hmem, htrained'⟩ := loftTrainingEffect_zeroes l failed s.fuse d
  refine ⟨_, exec_event (exec_loftTrainingComplete l failed s) hen rfl, htrained', fun a => ?_⟩
  rw [hmem]
  rfl

/-! ### Bring-up (R523, R526, R532, R533) -/

theorem exec_porstRelease (strap : BitVec 2) (s : State) : exec (.porstRelease strap) s =
    onEvent s (fun d => d.stage == .inReset) fun _ d => { d with stage := .pll, strap := strap } := rfl

theorem exec_pllLock (s : State) : exec .pllLock s =
    onEvent s (fun d => d.stage == .pll || d.stage == .lost) fun _ d => { d with stage := .rom, clk := {} } := rfl

theorem exec_pllLossOfLock (s : State) : exec .pllLossOfLock s = onEvent s Dev.running fun fz d =>
    { d.cleared fz .lost with strap := d.strap, alerts := d.alerts, i3cAddr := d.i3cAddr } := rfl

theorem exec_thermalTrip (src : TripSource) (s : State) : exec (.thermalTrip src) s =
    onEvent s (fun d => d.running || d.stage == .pll || d.stage == .lost) fun _ d =>
      { d with stage := .tripped, pads := d.pads.map fun p => p.map Paddock.lost } := rfl

theorem exec_siteSelfTest (st : SiteId) (pass : Bool) (s : State) : exec (.siteSelfTest st pass) s =
    onEvent s (fun d => blocksUp d && !d.tested.contains st && d.kinds[st] != .retired) fun _ d =>
      let d := { d with tested := st :: d.tested }.noteTest st
      if pass then d else d.retireTile st none := rfl

theorem exec_mailboxReady (s : State) : exec .mailboxReady s = onEvent s readyEnabled readyEffect := rfl

theorem Dev.alert_getLsbD (d : Dev) {b : Nat} (h : b < 32) : (d.alert b).alerts.getLsbD b = true := by
  have hbit : (BitVec.ofNat 32 (2 ^ b)).getLsbD b = true := by
    rw [BitVec.getLsbD_ofNat, Nat.testBit_two_pow_self, decide_eq_true h, Bool.and_true]
  show (d.alerts ||| BitVec.ofNat 32 (2 ^ b)).getLsbD b = true
  rw [BitVec.getLsbD_or, hbit, Bool.or_true]

section
variable {fz : Fuse} {a b : Bytes}

theorem chooseSlot_none (ha : slotValid fz a = false) (hb : slotValid fz b = false) : chooseSlot fz a b = none := by
  simp [chooseSlot, ha, hb]

/-- The slot of the higher version boots, of two alike the first (R533). -/
theorem chooseSlot_some (h : slotValid fz a = true ∨ slotValid fz b = true) : ∃ diverge, chooseSlot fz a b =
    some (slotValid fz b && (!slotValid fz a || decide (Config.fwSecurityVersion a < Config.fwSecurityVersion b)), diverge) := by
  unfold chooseSlot
  cases ha : slotValid fz a <;> cases hb : slotValid fz b
  · simp [ha, hb] at h
  · exact ⟨false, rfl⟩
  · exact ⟨false, rfl⟩
  · by_cases hlt : Config.fwSecurityVersion a < Config.fwSecurityVersion b
    · exact ⟨false, by simp [hlt]⟩
    · exact ⟨_, by simp [hlt]; rfl⟩

end

/-- Without a valid slot the device is in recovery mode, with its alert (R533). -/
theorem slotChoiceEffect_recovery {fz : Fuse} {a b : Bytes} (ha : slotValid fz a = false) (hb : slotValid fz b = false)
    (unclean : List (Fin 3 × Nat)) (store : Bytes) (ok : Bool) (d : Dev) :
    (slotChoiceEffect a b unclean store ok fz d).2.stage = .recovery ∧
    (slotChoiceEffect a b unclean store ok fz d).2.alerts.getLsbD alertBoot = true := by
  unfold slotChoiceEffect
  dsimp only
  rw [chooseSlot_none ha hb]
  exact ⟨rfl, Dev.alert_getLsbD _ (by decide)⟩

/-- With one, Worvis starts from the slot chosen. -/
theorem slotChoiceEffect_boots {fz : Fuse} {a b : Bytes} (h : slotValid fz a = true ∨ slotValid fz b = true)
    (unclean : List (Fin 3 × Nat)) (store : Bytes) (ok : Bool) (d : Dev) :
    (slotChoiceEffect a b unclean store ok fz d).2.stage = .blocks ∧
    (slotChoiceEffect a b unclean store ok fz d).2.ym.slotB =
      (slotValid fz b && (!slotValid fz a || decide (Config.fwSecurityVersion a < Config.fwSecurityVersion b))) := by
  obtain ⟨diverge, hchoose⟩ := chooseSlot_some h
  unfold slotChoiceEffect
  dsimp only
  rw [hchoose]
  obtain ⟨hstage, -, -, hslot⟩ := Dev.startWorvis_keeps (Dev.bootSlot _ _ _)
  exact ⟨hstage, hslot⟩

/-- The device ready, ACLK at its cap subject to the governors (R524, R537), before the summary of its health. -/
def Dev.atCap (d : Dev) (fz : Fuse) : Dev :=
  let cap := if fz.variantL then 1 else 0
  let step := max cap (max d.ym.thermal d.ym.power)
  { d with stage := .ready }.modYm fun y => { y with
    cap := cap, step := step, readyTime := d.stamp, clkSteps := if y.step == step then y.clkSteps else y.clkSteps.inc d.now }

theorem readyEffect_eq (fz : Fuse) (d : Dev) : readyEffect fz d = (d.atCap fz).health := rfl

/-- Settles O45: each stage is one rule; the choice of the slot is kept apart from what starts Worvis on it. -/
theorem bringUpInStages : Obligations.BringUpInStages := by
  unfold Obligations.BringUpInStages
  intro strap a b unclean store entropyOk pass st src s d fz sa sb
  have hblocks (h : d.stage = .blocks ∨ d.stage = .recovery) : blocksUp d = true := by
    rcases h with h | h <;> simp [blocksUp, h]
  refine ⟨fun h => ?_, fun h => ?_, fun h => ?_, fun h => ?_, fun h => ?_, fun h htested hkind => ?_, fun h => ?_⟩
  · exact exec_event (exec_porstRelease strap s) (beq_iff_eq.mpr h) rfl
  · refine exec_event (exec_pllLock s) ?_ rfl
    simpa using h
  · exact exec_event (exec_pllLossOfLock s) h rfl
  · refine exec_event (exec_thermalTrip src s) ?_ rfl
    simpa [or_assoc] using h
  · refine ⟨_, (exec_firmwareSlotChoice a b unclean store entropyOk s).trans (onBoth_holds _ (beq_iff_eq.mpr h)), rfl,
      slotChoiceEffect_floor .., fun ha hb => slotChoiceEffect_recovery ha hb .., fun h => slotChoiceEffect_boots h ..⟩
  · refine exec_event (exec_siteSelfTest st pass s) ?_ rfl
    rw [hblocks h, htested, bne_iff_ne.mpr hkind]
    rfl
  · have hready := Dev.health_offFabric (d.atCap fz)
    have hfailed : d.ym.failed = false := by
      simp only [readyEnabled, Bool.and_eq_true, Bool.not_eq_true'] at h
      exact h.1.1.2
    refine ⟨_, exec_event (exec_mailboxReady s) h rfl, ?_⟩
    rw [readyEffect_eq]
    refine ⟨Dev.same_of_offFabric hready (·.stage) fun _ => rfl, ?_, Dev.same_of_offFabric hready (·.ym.cap) fun _ => rfl, ?_,
      Dev.same_of_offFabric hready (·.tiles) fun _ => rfl, Dev.same_of_offFabric hready (·.lofts) fun _ => rfl⟩
    · refine (Dev.same_of_offFabric hready Dev.mailboxReady fun _ => rfl).trans ?_
      simp [Dev.mailboxReady, Dev.atCap, Dev.modYm, hfailed]
    · rw [Dev.same_of_offFabric hready (·.ym.cap) fun _ => rfl]
      exact Dev.same_of_offFabric hready (·.ym.step) fun _ => rfl

/-! ### The thermal governor (R525) -/

section
variable {cap step now : Nat} {cool : Option Nat} {low : Bool}

theorem governorStep_high : governorStep cap step cool true low now = (min 3 (max step cap + 1), none) := rfl

theorem governorStep_between : governorStep cap step cool false false now = (step, none) := rfl

theorem governorStep_low_first : governorStep cap step none false true now = (step, some now) := rfl

theorem governorStep_low_back {t : Nat} (hcap : cap < step) (ht : t + msN 10 ≤ now) :
    governorStep cap step (some t) false true now = (step - 1, some now) := by
  simp [governorStep, hcap, ht]

theorem governorStep_low_wait {t : Nat} (ht : now < t + msN 10) :
    governorStep cap step (some t) false true now = (step, some t) := by
  simp [governorStep, Nat.not_le.mpr ht]

end

/-- What the thermal governor asks for after a check, and since when its reading has been low. -/
def Dev.thermalStep (d : Dev) (r : GovReading) : Nat × Option Nat :=
  governorStep d.ym.cap d.ym.thermal d.ym.thermalCool (decide (800 ≤ (hottest r.junction).1.toInt))
    (decide ((hottest r.junction).1.toInt < 760)) d.now

/-- What the power governor asks for after it. -/
def Dev.powerStep (d : Dev) (r : GovReading) (fz : Fuse) : Nat × Option Nat :=
  governorStep d.ym.cap d.ym.power d.ym.powerCool (decide (ampLimit fz.variantL < r.amps)) (decide (10 * r.amps < 9 * ampLimit fz.variantL))
    d.now

/-- The step at which ACLK runs after it. -/
def Dev.govStep (d : Dev) (r : GovReading) (fz : Fuse) : Nat := max d.ym.cap (max (d.thermalStep r).1 (d.powerStep r fz).1)

/-- The yardmaster's account of a governor check. -/
def Dev.governedYard (d : Dev) (r : GovReading) (fz : Fuse) : Yard :=
  { d.ym with
    thermal := (d.thermalStep r).1, thermalCool := (d.thermalStep r).2, govAt := some d.now
    power := (d.powerStep r fz).1, powerCool := (d.powerStep r fz).2
    hotJct := (hottest r.junction).1, hotSite := (hottest r.junction).2, step := d.govStep r fz
    clkSteps := if d.ym.step == d.govStep r fz then d.ym.clkSteps else d.ym.clkSteps.inc d.now }

/-- The device after a governor check, but for the alert. -/
def Dev.governed (d : Dev) (r : GovReading) (fz : Fuse) : Dev :=
  { d with
    tiles := Vector.ofFn fun s : Fin 48 => { d.tiles[s] with jctTemp := r.junction.getD s.val 0#16 }
    ym := d.governedYard r fz }

theorem governorEffect_eq (r : GovReading) (fz : Fuse) (d : Dev) : governorEffect r fz d =
    if decide (840 < (hottest r.junction).1.toInt) then (d.governed r fz).alert alertJctHot else d.governed r fz := by
  unfold governorEffect Dev.governed Dev.governedYard Dev.govStep Dev.powerStep Dev.thermalStep Dev.modYm Dev.now
  dsimp only

section
variable (r : GovReading) (fz : Fuse) (d : Dev)

/-- What an alert does not change, the check leaves as `governed` has it. -/
theorem governorEffect_keeps {α : Type} (f : Dev → α) (h : ∀ e, f (Dev.alert e alertJctHot) = f e) :
    f (governorEffect r fz d) = f (d.governed r fz) := by
  rw [governorEffect_eq]
  generalize d.governed r fz = e
  split
  · exact h e
  · rfl

theorem governed_ym : (d.governed r fz).ym = d.governedYard r fz := by
  rw [Dev.governed]

theorem governed_lofts : (d.governed r fz).lofts = d.lofts := by
  rw [Dev.governed]

theorem governorEffect_ym : (governorEffect r fz d).ym = d.governedYard r fz :=
  (governorEffect_keeps r fz d (·.ym) fun _ => rfl).trans (governed_ym r fz d)

theorem governorEffect_lofts : (governorEffect r fz d).lofts = d.lofts :=
  (governorEffect_keeps r fz d (·.lofts) fun _ => rfl).trans (governed_lofts r fz d)

theorem governorEffect_tile (st : SiteId) : ∃ x, (governorEffect r fz d).tile st = { d.tile st with jctTemp := x } := by
  refine ⟨r.junction.getD st.val 0#16, (governorEffect_keeps r fz d (·.tile st) fun _ => rfl).trans ?_⟩
  exact Vector.getElem_ofFn st.isLt

theorem governorEffect_alert (h : 840 < (hottest r.junction).1.toInt) : (governorEffect r fz d).alerts.getLsbD alertJctHot = true := by
  rw [governorEffect_eq, if_pos (decide_eq_true h)]
  exact Dev.alert_getLsbD _ (by decide)

end

theorem exec_governorCheck (r : GovReading) (s : State) :
    exec (.governorCheck r) s = onEvent s governorDue (governorEffect r) := rfl

/-- Settles O46: the reading's place among the thresholds decides what the thermal governor asks for. -/
theorem governorStepsWithTemperature : Obligations.GovernorStepsWithTemperature := by
  unfold Obligations.GovernorStepsWithTemperature
  intro r s
  refine ⟨exec_event_idle (exec_governorCheck r s), fun hdue => ?_⟩
  intro d y h
  refine ⟨_, exec_event (exec_governorCheck r s) hdue rfl, ?_⟩
  rw [show s.dev = d from rfl]
  have hym := governorEffect_ym r s.fuse d
  have hlofts := governorEffect_lofts r s.fuse d
  have htile := governorEffect_tile r s.fuse d
  have halert := governorEffect_alert r s.fuse d
  generalize governorEffect r s.fuse d = e at *
  dsimp only
  rw [hym]
  have hshows {x : Nat} {c : Option Nat} (hx : d.thermalStep r = (x, c)) :
      (d.governedYard r s.fuse).thermal = x ∧ (d.governedYard r s.fuse).thermalCool = c := Prod.mk.inj hx
  have hx (high low : Bool) (hh : decide (800 ≤ h) = high) (hl : decide (h < 760) = low) :
      d.thermalStep r = governorStep y.cap y.thermal y.thermalCool high low d.now := by
    rw [← hh, ← hl]
    rfl
  refine ⟨fun hhigh => hshows ?_, fun hnot hbelow => hshows ?_, fun hlow hcool => hshows ?_, fun t hlow hcool hover hlong => ?_,
    fun t hlow hcool hshort => ?_, rfl, rfl, if_congr beq_iff_eq rfl rfl, rfl, halert,
    hlofts, fun st => ?_⟩
  · rw [hx true _ (by simpa using hhigh) rfl, governorStep_high]
  · rw [hx false false (by simpa using hbelow) (by simpa using hnot), governorStep_between]
  · rw [hx false true (by simp; omega) (by simpa using hlow), hcool, governorStep_low_first]
  · have hback : d.thermalStep r = (y.thermal - 1, some d.now) := by
      rw [hx false true (by simp; omega) (by simpa using hlow), hcool, governorStep_low_back hover hlong]
    exact (hshows hback).1
  · have hwait : d.thermalStep r = (y.thermal, some t) := by
      rw [hx false true (by simp; omega) (by simpa using hlow), hcool, governorStep_low_wait hshort]
    exact (hshows hwait).1
  · obtain ⟨x, hx⟩ := htile st
    rw [hx]
    exact ⟨rfl, rfl, rfl⟩

end Sys2Proof.Machine
end

section
/-!
PROOFS. Entropy failures and failures of the yardmaster's cores, and the statement about them (R480, R499 to R503).
-/
namespace Sys2Proof.Machine

/-! ### Entropy (R480) -/

/-- The link needs entropy: it is in HANDSHAKE, or rekeys. -/
def Link.needsEntropy (l : Link) : Prop := l.state = .handshake ∨ l.rekeying = true

/-- A link that needs entropy goes DOWN. -/
def Dev.dropSeeding (d : Dev) (fz : Fuse) (n : LinkId) : Dev :=
  if (d.link n).state == .handshake || (d.link n).rekeying then d.linkDown fz n else d

theorem Link.SameButFreed.needsEntropy {a b : Link} (h : a.SameButFreed b) : b.needsEntropy ↔ a.needsEntropy := by
  rw [h]
  rfl

theorem Dev.dropSeeding_of_needs {d : Dev} {n : LinkId} (fz : Fuse) (h : (d.link n).needsEntropy) :
    d.dropSeeding fz n = d.linkDown fz n :=
  if_pos (by simpa [Link.needsEntropy] using h)

theorem Dev.dropSeeding_of_not {d : Dev} {n : LinkId} (fz : Fuse) (h : ¬ (d.link n).needsEntropy) : d.dropSeeding fz n = d :=
  if_neg (by simpa [Link.needsEntropy] using h)

theorem Dev.dropSeeding_other (d : Dev) (fz : Fuse) {n m : LinkId} (h : m ≠ n) :
    (d.link m).SameButFreed ((d.dropSeeding fz n).link m) := by
  by_cases hneeds : (d.link n).needsEntropy
  · rw [Dev.dropSeeding_of_needs fz hneeds]
    exact (d.linkDown_link fz n m).2 h
  · rw [Dev.dropSeeding_of_not fz hneeds]
    exact .refl _

/-- Of the links of a list those that need entropy go DOWN, and all other links are as before but for what they count as freed. -/
theorem Dev.dropSeedings_link (fz : Fuse) (l : List LinkId) (d : Dev) (m : LinkId) :
    let e := l.foldl (fun d n => d.dropSeeding fz n) d
    (m ∈ l → (d.link m).needsEntropy → (e.link m).state = .down ∧ (e.link m).txKey = []) ∧
    (m ∉ l ∨ ¬ (d.link m).needsEntropy → (d.link m).SameButFreed (e.link m)) := by
  induction l generalizing d with
  | nil => exact ⟨fun h => absurd h List.not_mem_nil, fun _ => .refl _⟩
  | cons n l ih =>
    obtain ⟨hdown, hsame⟩ := ih (d.dropSeeding fz n)
    rw [List.foldl_cons]
    by_cases hm : m = n
    · subst hm
      by_cases hneeds : (d.link m).needsEntropy
      · have hfresh : (d.dropSeeding fz m).link m = (d.link m).fresh .down d.now := by
          rw [Dev.dropSeeding_of_needs fz hneeds]
          exact (d.linkDown_link fz m m).1 rfl
        have hquiet : ¬ ((d.dropSeeding fz m).link m).needsEntropy := by
          rw [hfresh]
          exact fun h => h.elim nofun nofun
        have hrest := hsame (.inr hquiet)
        refine ⟨fun _ _ => ?_, fun h => absurd hneeds (h.resolve_left fun h => h List.mem_cons_self)⟩
        rw [hrest, hfresh]
        exact ⟨rfl, rfl⟩
      · rw [Dev.dropSeeding_of_not fz hneeds] at hsame ⊢
        exact ⟨fun _ h => absurd h hneeds, fun _ => hsame (.inr hneeds)⟩
    · have hother := d.dropSeeding_other fz hm
      refine ⟨fun hmem hneeds => hdown ((List.mem_cons.mp hmem).resolve_left hm) (hother.needsEntropy.mpr hneeds), fun h => ?_⟩
      exact hother.trans (hsame (h.imp (fun h hl => h (List.mem_cons_of_mem _ hl)) fun h hneeds => h (hother.needsEntropy.mp hneeds)))

theorem Dev.dropSeedings_offLinks (fz : Fuse) (l : List LinkId) (d : Dev) :
    (l.foldl (fun d n => d.dropSeeding fz n) d).offLinks = d.offLinks := by
  refine foldl_keeps Dev.offLinks (fun e n => ?_) l d
  unfold Dev.dropSeeding
  split
  · exact e.linkDown_offLinks fz n
  · rfl

/-- The device with the failure remembered, reported and shown. -/
def Dev.withoutEntropy (d : Dev) : Dev :=
  ({ d with entropyOk := false }.postDevice 0x8004 (Config.eventPayload 0x8004 [])).alert alertEntropy

theorem entropyFailedEffect_eq (fz : Fuse) (d : Dev) :
    entropyFailedEffect fz d = (fins 16).foldl (fun d n => d.dropSeeding fz n) d.withoutEntropy := rfl

theorem exec_entropyFailed (s : State) :
    exec .entropyFailed s = onEvent s (fun d => d.running && d.entropyOk) entropyFailedEffect := rfl

theorem exec_entropyTestsPass (s : State) : exec .entropyTestsPass s =
    onEvent s (fun d => d.running && !d.entropyOk) fun _ d => { d with entropyOk := true, tiles := d.tiles.map Tile.seedUnits } := rfl

theorem sessionOpen_refused {port : Port} {s : State} (h : s.dev.entropyOk = false) : ¬ sessionOpenCmd.Accepted port s := by
  intro hacc
  have hgood := hacc.check (b := !s.dev.trustBad && s.dev.entropyOk) (st := stDevice) (by simp [sessionOpenCmd, need, State.env])
  rw [h, Bool.and_false] at hgood
  cases hgood

/-! ### Cores (R499 to R503) -/

section
variable {c : CoreId} {d : Dev}

/-- A core that fails, before the summary of health. -/
def Dev.coreReset (d : Dev) (c : CoreId) : Dev :=
  let wasActive : Bool := d.ym.cores[c] == .active
  d.modYm fun y => { y with
    cores := vmod y.cores c fun _ => .resetting
    handover := if wasActive then y.handover ++ [(c, d.now)] else y.handover }

/-- A core that fails is reset; the duties of an active one wait for a handover. -/
theorem coreFailed_shows (fz : Fuse) : (coreFailed c fz d).ym.cores[c] = .resetting ∧
    (coreFailed c fz d).ym.handover = (if d.ym.cores[c] = .active then d.ym.handover ++ [(c, d.now)] else d.ym.handover) ∧
    (coreFailed c fz d).ym.duties = d.ym.duties ∧ (∀ c' : CoreId, c' ≠ c → (coreFailed c fz d).ym.cores[c'] = d.ym.cores[c']) ∧
    (coreFailed c fz d).tiles = d.tiles ∧ (coreFailed c fz d).lofts = d.lofts := by
  have h := Dev.health_offFabric (d.coreReset c)
  have hcores : (coreFailed c fz d).ym.cores = vmod d.ym.cores c fun _ => .resetting :=
    Dev.same_of_offFabric h (·.ym.cores) fun _ => rfl
  have hhandover := Dev.same_of_offFabric h (·.ym.handover) fun _ => rfl
  refine ⟨?_, hhandover.trans (if_congr beq_iff_eq rfl rfl), Dev.same_of_offFabric h (·.ym.duties) fun _ => rfl, fun c' hc => ?_,
    Dev.same_of_offFabric h (·.tiles) fun _ => rfl, Dev.same_of_offFabric h (·.lofts) fun _ => rfl⟩
  · rw [hcores, vmod_same]
  · rw [hcores, vmod_other _ _ _ _ hc]

theorem exec_watchdogExpiry (c : CoreId) (cause : CoreCause) (s : State) : exec (.watchdogExpiry c cause) s =
    onEvent s (fun d => d.worvis && (d.ym.cores[c]).works) (coreFailed c) := rfl

theorem exec_journalCheck (c : CoreId) (ok : Bool) (s : State) :
    exec (.journalCheck c ok) s = onEvent s (journalDue c) (journalEffect c ok) := rfl

theorem exec_coreHandover (s : State) : exec .coreHandover s =
    onEvent s (fun d => d.worvis && !d.ym.handover.isEmpty && d.coreUp) handoverEffect := rfl

theorem exec_coreSelfTest (c : CoreId) (pass : Bool) (s : State) : exec (.coreSelfTest c pass) s =
    onEvent s (fun d => d.worvis && d.ym.cores[c] == .resetting) (selfTestEffect c pass) := rfl

/-- The device with the duties of a core moved to another and the handover counted. -/
def Dev.handedOver (d : Dev) (c w : CoreId) (t : Nat) (rest : List (CoreId × Nat)) : Dev :=
  d.modYm fun y => { y with
    cores := vmod y.cores w fun _ => .active
    duties := if w == c then y.duties else (y.duties.set w (d.ym.duties[c] ||| d.ym.duties[w])).set c 0#4
    handovers := satInc y.handovers
    lastHandover := BitVec.ofNat 32 ((d.now - t) / 2)
    handover := rest }

theorem handoverEffect_standby {w : CoreId} {t : Nat} {rest : List (CoreId × Nat)} (hwait : d.ym.handover = (c, t) :: rest)
    (hstandby : (fins 4).find? (fun c => d.ym.cores[c] == .standby) = some w) (fz : Fuse) :
    handoverEffect fz d = ((d.handedOver c w t rest).postDevice 0xE00A (payloadE 0 0xFF 0xFF 5 0xFF c.val 0)).health := by
  have htaker : d.taker = (some w, d) := by
    rw [Dev.taker, hstandby]
  rw [handoverEffect, hwait]
  dsimp only
  rw [htaker]
  rfl

theorem handoverEffect_shows {w : CoreId} {t : Nat} {rest : List (CoreId × Nat)} (hwait : d.ym.handover = (c, t) :: rest)
    (hne : c ≠ w) (hstandby : (fins 4).find? (fun c => d.ym.cores[c] == .standby) = some w) (fz : Fuse) :
    let e := handoverEffect fz d
    e.ym.cores[w] = .active ∧ e.ym.duties[w] = d.ym.duties[c] ||| d.ym.duties[w] ∧ e.ym.duties[c] = 0#4 ∧
    e.ym.handovers = satInc d.ym.handovers ∧ e.ym.handover = rest ∧ e.tiles = d.tiles ∧ e.lofts = d.lofts := by
  rw [handoverEffect_standby hwait hstandby]
  have h : ((d.handedOver c w t rest).postDevice 0xE00A (payloadE 0 0xFF 0xFF 5 0xFF c.val 0)).health.offFabric =
      (d.handedOver c w t rest).offFabric := Dev.health_offFabric _
  have hduties := Dev.same_of_offFabric h (·.ym.duties) fun _ => rfl
  have hmoved : (d.handedOver c w t rest).ym.duties = (d.ym.duties.set w (d.ym.duties[c] ||| d.ym.duties[w])).set c 0#4 :=
    if_neg (by simpa using hne.symm)
  have hval : c.val ≠ w.val := fun h => hne (Fin.ext h)
  refine ⟨?_, ?_, ?_, Dev.same_of_offFabric h (·.ym.handovers) fun _ => rfl, Dev.same_of_offFabric h (·.ym.handover) fun _ => rfl,
    Dev.same_of_offFabric h (·.tiles) fun _ => rfl, Dev.same_of_offFabric h (·.lofts) fun _ => rfl⟩
  · exact (congrArg (·[w]) (Dev.same_of_offFabric h (·.ym.cores) fun _ => rfl)).trans (vmod_same ..)
  · rw [hduties, hmoved]
    simp [hval]
  · rw [hduties, hmoved]
    simp

theorem Dev.recordRepair_repairs (d : Dev) (r : Repair) :
    (d.recordRepair r).repairs = if d.repairs.length < 64 then d.repairs ++ [r] else d.repairs := by
  unfold Dev.recordRepair
  split <;> rfl

theorem Dev.recordRepair_ym (d : Dev) (r : Repair) : (d.recordRepair r).ym = d.ym := by
  unfold Dev.recordRepair
  split <;> rfl

theorem selfTestEffect_pass (fz : Fuse) : (selfTestEffect c true fz d).ym.cores[c] = .standby ∧
    (selfTestEffect c true fz d).repairs = d.repairs := by
  have h := Dev.health_offFabric (d.modYm fun y => { y with cores := vmod y.cores c fun _ => .standby })
  exact ⟨(congrArg (·[c]) (Dev.same_of_offFabric h (·.ym.cores) fun _ => rfl)).trans (vmod_same ..),
    Dev.same_of_offFabric h (·.repairs) fun _ => rfl⟩

theorem selfTestEffect_fail (fz : Fuse) : (selfTestEffect c false fz d).ym.cores[c] = .retired ∧
    (selfTestEffect c false fz d).repairs = (if d.repairs.length < 64 then d.repairs ++ [.core c] else d.repairs) := by
  unfold selfTestEffect
  extract_lets retired told
  have htold : told.offWork = retired.offWork := Dev.offWork_congr (Dev.health_offFabric _)
  have hend : (if told.coresLeft == 0 then told.fail else told).offWork = retired.offWork := by
    split
    · exact told.fail_offWork.trans htold
    · exact htold
  have hcores : retired.ym.cores = vmod d.ym.cores c fun _ => .retired := congrArg (·.cores) (Dev.recordRepair_ym ..)
  refine ⟨?_, ?_⟩
  · show (if told.coresLeft == 0 then told.fail else told).ym.cores[c] = .retired
    rw [Dev.same_of_offWork hend (·.ym.cores) fun _ => rfl, hcores, vmod_same]
  · exact (Dev.same_of_offWork hend (·.repairs) fun _ => rfl).trans (Dev.recordRepair_repairs ..)

end

/-- Settles O47: the links that need entropy are told from the others one by one; a core's reset, handover and self-test are one rule
each, which the summary of health leaves as they are. -/
theorem entropyAndCoresFailSafely : Obligations.EntropyAndCoresFailSafely := by
  unfold Obligations.EntropyAndCoresFailSafely
  refine ⟨fun port s hrun => ?_, fun c w cause t rest s hworvis => ?_⟩
  · intro d
    refine ⟨fun hok => ?_, fun hbad => ⟨exec_event (exec_entropyTestsPass s) ?_ rfl, sessionOpen_refused hbad⟩⟩
    · have hen : (d.running && d.entropyOk) = true := by rw [hok, Bool.and_true, hrun]
      have hlinks (n : LinkId) := Dev.dropSeedings_link s.fuse (fins 16) d.withoutEntropy n
      have hoff := Dev.dropSeedings_offLinks s.fuse (fins 16) d.withoutEntropy
      have hexec := exec_event (exec_entropyFailed s) hen (entropyFailedEffect_eq s.fuse d)
      generalize (fins 16).foldl (fun d n => d.dropSeeding s.fuse n) d.withoutEntropy = e at *
      refine ⟨e, hexec, Dev.same_of_offLinks hoff (·.entropyOk) fun _ => rfl, ?_, fun n hn => (hlinks n).1 (by simp [fins]) hn,
        fun n hstate hrekey => (hlinks n).2 (.inr ?_), Dev.same_of_offLinks hoff (·.tiles) fun _ => rfl,
        Dev.same_of_offLinks hoff (·.lofts) fun _ => rfl⟩
      · rw [Dev.same_of_offLinks hoff (·.alerts) fun _ => rfl]
        exact Dev.alert_getLsbD _ (by decide)
      · have hquiet : ((d.withoutEntropy).link n).rekeying = false := hrekey
        exact fun h => h.elim hstate (by rw [hquiet]; exact Bool.false_ne_true)
    · show (d.running && !d.entropyOk) = true
      rw [hbad, hrun]
      rfl
  · intro d y fails
    refine ⟨fun hworks => ?_, fun hdue => ⟨?_, exec_event (exec_journalCheck c true s) hdue rfl⟩,
      fun ok hdue => exec_event_idle (exec_journalCheck c ok s) hdue, fun hwait hne hstandby => ?_, fun hreset => ?_⟩
    · refine ⟨_, exec_event (exec_watchdogExpiry c cause s) ?_ rfl, coreFailed_shows s.fuse⟩
      have hcore : (y.cores[c]).works = true := by
        rcases hworks with h | h <;> rw [h] <;> rfl
      exact Bool.and_eq_true_iff.mpr ⟨hworvis, hcore⟩
    · exact ⟨_, exec_event (exec_journalCheck c false s) hdue rfl,
        coreFailed_shows (d := d.modYm fun y => { y with checkedAt := vmod y.checkedAt c fun _ => d.now }) s.fuse⟩
    · refine ⟨_, exec_event (exec_coreHandover s) ?_ rfl, handoverEffect_shows hwait hne hstandby s.fuse⟩
      have hcore : y.cores[w] = .standby := by simpa using List.find?_some hstandby
      have hup : d.coreUp = true :=
        List.any_eq_true.mpr ⟨y.cores[w], Vector.mem_toList_iff.mpr (Vector.getElem_mem w.isLt), by rw [hcore]; rfl⟩
      show (d.worvis && !d.ym.handover.isEmpty && d.coreUp) = true
      rw [hup, hwait, hworvis]
      rfl
    · have hen : (d.worvis && d.ym.cores[c] == .resetting) = true := Bool.and_eq_true_iff.mpr ⟨hworvis, beq_iff_eq.mpr hreset⟩
      exact ⟨⟨_, exec_event (exec_coreSelfTest c true s) hen rfl, selfTestEffect_pass s.fuse⟩,
        ⟨_, exec_event (exec_coreSelfTest c false s) hen rfl, selfTestEffect_fail s.fuse⟩⟩

end Sys2Proof.Machine
end

section
/-!
PROOFS. Long operations: what their start, their work, their points and their ends do, and the statements about them (R417, R419, R433,
R434, R478).
-/
namespace Sys2Proof.Machine

/-! ### The table of operations -/

section
variable (d : Dev) (i : Fin 64) (st : OpState) (code : Nat)

theorem Dev.setOp_ops : (d.setOp i st code).ops =
    vmod d.ops i fun o => { o with state := st, code := BitVec.ofNat 16 (if st == .failed then code else 0) } := by
  unfold Dev.setOp
  dsimp only
  split <;> rfl

theorem Dev.setOp_op : (d.setOp i st code).op i =
    { d.op i with state := st, code := BitVec.ofNat 16 (if st == .failed then code else 0) } := by
  rw [Dev.op, Dev.setOp_ops, vmod_same]
  rfl

theorem Dev.setOp_state : ((d.setOp i st code).op i).state = st := by rw [Dev.setOp_op]

theorem Dev.setOp_typ : ((d.setOp i st code).op i).typ = (d.op i).typ := by rw [Dev.setOp_op]

theorem Dev.setOp_paddock : ((d.setOp i st code).op i).paddock = (d.op i).paddock := by rw [Dev.setOp_op]

theorem Dev.setOp_args : ((d.setOp i st code).op i).args = (d.op i).args := by rw [Dev.setOp_op]

theorem Dev.setOp_tiles : (d.setOp i st code).tiles = d.tiles := by
  unfold Dev.setOp
  dsimp only
  split <;> rfl

theorem Dev.setOp_lofts : (d.setOp i st code).lofts = d.lofts := by
  unfold Dev.setOp
  dsimp only
  split <;> rfl

end

/-! ### The end of an operation (R417, R433, R434, R478) -/

theorem exec_opComplete (slot : Fin 64) (code : BitVec 16) (s : State) :
    exec (.opComplete slot code) s = onBoth s (completeEnabled slot code) (completeEffect slot code) := rfl

/-- An event that may write fuses or flash, where its condition holds. -/
theorem exec_both {i : Instr} {s : State} {en : Dev → Bool} {f : Fuse → Dev → Fuse × Dev} {fz : Fuse} {d : Dev} (hi : exec i s = onBoth s en f)
    (h : en s.dev = true) (hd : f s.fuse s.dev = (fz, d)) : exec i s = .next { s with fuse := fz, dev := d } := by
  rw [hi, onBoth_holds f h, hd]

section
variable {slot : Fin 64} {fz : Fuse} {d : Dev}

/-- Staging ends with the code of the check that fails (R434, R478). -/
theorem completeEffect_stage {g : Staging} (htyp : (d.op slot).typ = .fwStage) (hg : d.staging = some g) :
    completeEffect slot 0#16 fz d =
      ({ fz with slots := vsetN fz.slots ((d.op slot).args.getD 0 0) (some g.data) },
        if stageCode fz g.data == 0 then
          { d with staging := none, staged := some ((d.op slot).args.getD 0 0) }.setOp slot .done 0
        else { d with staging := none }.setOp slot .failed (stageCode fz g.data)) := by
  have hstage : completeEffect slot 0#16 fz d = stageEffect slot 0#16 fz d := if_pos (beq_iff_eq.mpr htyp)
  rw [hstage, stageEffect, hg]
  cases hcode : stageCode fz g.data == 0 with
  | true => exact if_pos hcode
  | false => exact if_neg (Bool.eq_false_iff.mp hcode)

section
variable (htyp : (d.op slot).typ ≠ .fwStage)
include htyp

theorem completeEffect_error {code : BitVec 16} (hcode : code ≠ 0#16) :
    completeEffect slot code fz d = (fz, d.setOp slot .failed code.toNat) :=
  (if_neg (by simpa using htyp)).trans (if_pos (bne_iff_ne.mpr hcode))

theorem completeEffect_checkpoint (hckpt : (d.op slot).typ = .checkpoint) : completeEffect slot 0#16 fz d =
    (fz, if (d.op slot).args.getD 0 0 == 1 then restoreEffect slot d
      else (d.modOp slot fun o => { o with result := o.args.getD 4 0 }).setOp slot .done 0) :=
  (if_neg (by simpa using htyp)).trans ((if_neg Bool.false_ne_true).trans (if_pos (beq_iff_eq.mpr hckpt)))

theorem completeEffect_done (hckpt : (d.op slot).typ ≠ .checkpoint) :
    completeEffect slot 0#16 fz d = (fz, d.setOp slot .done 0) :=
  (if_neg (by simpa using htyp)).trans ((if_neg Bool.false_ne_true).trans (if_neg (by simpa using hckpt)))

end

end

theorem stageCode_version {fz : Fuse} {data : Bytes} (h : 255 < Config.fwSecurityVersion data) : stageCode fz data = 0x5003 := if_pos h

theorem stageCode_signature {fz : Fuse} {data : Bytes} (h : Config.fwSecurityVersion data ≤ 255) (hs : Config.fwSignatureValid data = false) :
    stageCode fz data = 0x5004 := by
  rw [stageCode, if_neg (Nat.not_lt.mpr h), hs]
  rfl

theorem stageCode_floor {fz : Fuse} {data : Bytes} (h : Config.fwSecurityVersion data ≤ 255) (hs : Config.fwSignatureValid data = true)
    (hlow : Config.fwSecurityVersion data < fz.svnFloor) : stageCode fz data = 0x5008 := by
  simp [stageCode, Nat.not_lt.mpr h, hs, hlow]

theorem stageCode_good {fz : Fuse} {data : Bytes} (h : Config.fwSecurityVersion data ≤ 255) (hs : Config.fwSignatureValid data = true)
    (hfloor : fz.svnFloor ≤ Config.fwSecurityVersion data) : stageCode fz data = 0 := by
  simp [stageCode, Nat.not_lt.mpr h, hs, Nat.not_lt.mpr hfloor]

/-- Settles O28: the first check that fails gives the code of a staging; of the others the type and the code of the hardware decide. -/
theorem operationsComplete : Obligations.OperationsComplete := by
  unfold Obligations.OperationsComplete
  refine ⟨fun slot g s hen htyp hg => ?_, fun slot code s hen => ?_⟩
  · have hstage {c : Nat} (hc : stageCode s.fuse g.data = c) := by
      have heffect := completeEffect_stage (fz := s.fuse) htyp hg
      rw [hc] at heffect
      exact exec_both (exec_opComplete slot 0#16 s) hen heffect
    refine ⟨fun hv => hstage (stageCode_version hv), fun hv hs => hstage (stageCode_signature hv hs),
      fun hv hs hlow => hstage (stageCode_floor hv hs hlow), fun hv hs hfloor => hstage (stageCode_good hv hs hfloor)⟩
  · have hexec {d : Dev} (hd : completeEffect slot code s.fuse s.dev = (s.fuse, d)) :=
      exec_both (exec_opComplete slot code s) hen hd
    refine ⟨fun htyp hcode => hexec (completeEffect_error htyp hcode), fun htyp hcode => ?_, fun htyp hcode hargs => ?_,
      fun htyp hcode hargs => ?_⟩
    · subst hcode
      exact hexec (completeEffect_done (by rcases htyp with h | h <;> rw [h] <;> decide) (by rcases htyp with h | h <;> rw [h] <;> decide))
    · subst hcode
      refine hexec ((completeEffect_checkpoint (by rw [htyp]; decide) htyp).trans ?_)
      rw [if_neg (by simpa using hargs)]
    · subst hcode
      refine hexec ((completeEffect_checkpoint (by rw [htyp]; decide) htyp).trans ?_)
      rw [if_pos (by simpa using hargs)]

/-! ### Work up to a point (R213, R419, R448) -/

theorem Dev.modOp_state {d : Dev} {i : Fin 64} {f : Op → Op} (h : ∀ o, (f o).state = o.state) :
    ((d.modOp i f).op i).state = (d.op i).state :=
  (congrArg Op.state (vmod_same d.ops i f)).trans (h _)

theorem Dev.dramCode_ops (d : Dev) (l : SiteId) (off : Nat) (ecc : DramEcc) : (d.dramCode l off ecc).ops = d.ops := by
  unfold Dev.dramCode
  extract_lets other
  split
  · rfl
  · cases ecc <;> rfl

theorem Dev.scrubCode_ops (d : Dev) (l : SiteId) (off : Nat) (ecc : DramEcc) : (d.scrubCode l off ecc).ops = d.ops := by
  unfold Dev.scrubCode
  extract_lets e
  have he : e.ops = d.ops := d.dramCode_ops l off ecc
  clear_value e
  split <;> exact he

theorem Dev.scrubChan_ops (d : Dev) (l : SiteId) (ch : Nat) : (d.scrubChan l ch).ops = d.ops := by
  refine foldl_keeps Dev.ops (fun e u => ?_) _ d
  exact e.scrubCode_ops l (16 * u) .clean

theorem Dev.storeLoft_ops (d : Dev) (l off : Nat) (bs : Bytes) : (d.storeLoft l off bs).ops = d.ops := by
  unfold Dev.storeLoft
  split
  · refine foldl_keeps Dev.ops (fun e p => ?_) _ d
    rfl
  · rfl

theorem Dev.storeLinear_ops (d : Dev) (a : Nat) (bs : Bytes) : (d.storeLinear a bs).ops = d.ops :=
  (Dev.storeLoft_ops ..).trans (Dev.storeLoft_ops ..)

theorem Dev.ckptFault_state (d : Dev) (i : Fin 64) (s : SiteId) (addr area : Nat) : ((d.ckptFault i s addr area).op i).state = .failed :=
  Dev.setOp_state ..

theorem Dev.restoreBad_state {d e : Dev} {i : Fin 64} {a n : Nat} (h : d.restoreBad i a n = some e) : (e.op i).state = .failed := by
  obtain ⟨u, -, rfl⟩ := Option.map_eq_some_iff.mp h
  split
  · exact Dev.ckptFault_state ..
  · exact Dev.setOp_state ..

/-- Work fails its operation or leaves its state. -/
theorem Dev.workStep_state (d : Dev) (i : Fin 64) :
    ((d.workStep i).op i).state = (d.op i).state ∨ ((d.workStep i).op i).state = .failed := by
  unfold Dev.workStep
  extract_lets o n at_ saved e
  have hkept {x : Dev} (h : x.ops = d.ops) : (x.op i).state = (d.op i).state := congrArg (fun ops => (ops[i] : Op).state) h
  have he : (e.op i).state = (d.op i).state ∨ (e.op i).state = .failed := by
    unfold e
    split
    · exact .inl (hkept (d.scrubChan_ops ..))
    · exact .inl (Dev.modOp_state fun _ => rfl)
    · split
      · have hsaved : saved.ops = d.ops := d.storeLinear_ops ..
        clear_value saved
        split
        · split
          · exact .inr (Dev.ckptFault_state ..)
          · exact .inl (hkept hsaved)
        · exact .inl (hkept hsaved)
      · cases hbad : d.restoreBad i at_ n with
        | none => exact .inl rfl
        | some x => exact .inr (Dev.restoreBad_state hbad)
    · exact .inl rfl
  clear_value e
  refine he.imp (Eq.trans ?_) (Eq.trans ?_) <;> exact Dev.modOp_state fun _ => rfl

/-! ### Points (R419) -/

theorem exec_opPointReached (slot : Fin 64) (s : State) :
    exec (.opPointReached slot) s = onBoth s (pointEnabled slot) (pointEffect slot) := rfl

/-- What the point makes of an operation that stood in state `st`, once the work up to it is done. -/
def Dev.haltAt (d : Dev) (slot : Fin 64) (st : OpState) : Dev :=
  if (d.op slot).state.final then d
  else if st == .suspending then d.setOp slot .suspended 0
  else if st == .cancelling then d.setOp slot .cancelled 0
  else d

section
variable {d : Dev} {slot : Fin 64}

theorem Dev.haltAt_running : d.haltAt slot .running = d := ite_self d

theorem Dev.haltAt_final {st : OpState} (h : (d.op slot).state.final = true) : d.haltAt slot st = d := if_pos h

theorem Dev.haltAt_suspending (h : (d.op slot).state.final = false) : d.haltAt slot .suspending = d.setOp slot .suspended 0 :=
  if_neg (Bool.eq_false_iff.mp h)

theorem Dev.haltAt_cancelling (h : (d.op slot).state.final = false) : d.haltAt slot .cancelling = d.setOp slot .cancelled 0 :=
  if_neg (Bool.eq_false_iff.mp h)

variable {fz : Fuse}

theorem pointEffect_work (h : (d.op slot).typ = .scrub ∨ (d.op slot).typ = .dramTest ∨ (d.op slot).typ = .checkpoint) :
    pointEffect slot fz d = (fz, if (((d.workStep slot).haltAt slot (d.op slot).state).op slot).state == .cancelled
      then ((d.workStep slot).haltAt slot (d.op slot).state).dropSave slot
      else (d.workStep slot).haltAt slot (d.op slot).state) := by
  unfold pointEffect
  dsimp only
  rcases h with h | h | h <;> rw [h] <;> rfl

theorem pointEffect_run (h : (d.op slot).typ = .run) (hc : (d.op slot).state = .cancelling) :
    pointEffect slot fz d = (fz, d.haltAt slot (d.op slot).state) := by
  unfold pointEffect
  dsimp only
  rw [h]
  exact if_pos (beq_iff_eq.mpr hc)

theorem pointEffect_runPoint {k : PadId} (h : (d.op slot).typ = .run) (hs : (d.op slot).state = .suspending)
    (hk : (d.op slot).paddock = some k) : pointEffect slot fz d =
      (fz, (d.modPad k fun p => { p with state := .suspended, suspendDue := false }).haltAt slot (d.op slot).state) := by
  unfold pointEffect
  dsimp only
  rw [h, hk]
  exact if_neg (by rw [hs]; decide)

theorem pointEffect_loadSuspends (h : (d.op slot).typ = .imageLoad) (hs : (d.op slot).state = .suspending) :
    pointEffect slot fz d = (fz, d.haltAt slot (d.op slot).state) := by
  unfold pointEffect
  dsimp only
  rw [h]
  exact congrArg (fz, ·) (if_neg (by rw [hs]; decide))

theorem pointEffect_loadCancels (h : (d.op slot).typ = .imageLoad) (hc : (d.op slot).state = .cancelling) :
    pointEffect slot fz d = (fz, d.endLoad slot .cancelled 0) := by
  unfold pointEffect
  dsimp only
  rw [h]
  exact congrArg (fz, ·) (if_pos (beq_iff_eq.mpr hc))

theorem pointEffect_rebuild (h : (d.op slot).typ = .routeRebuild) : pointEffect slot fz d =
    (fz, { d with rebuild := none, fab := { d.fab with rebuildAcks := [] } }.haltAt slot (d.op slot).state) := by
  unfold pointEffect
  dsimp only
  rw [h]
  rfl

theorem pointEffect_staging (h : (d.op slot).typ = .fwStage) : pointEffect slot fz d =
    ({ fz with slots := vsetN fz.slots ((d.op slot).args.getD 0 0) (some []) },
      { d with staging := none }.haltAt slot (d.op slot).state) := by
  unfold pointEffect
  dsimp only
  rw [h]
  rfl

/-- A staging or a rebuild has a point only where it is cancelled. -/
theorem cancelling_of_pointEnabled (hen : pointEnabled slot d = true) (h : (d.op slot).typ = .fwStage ∨ (d.op slot).typ = .routeRebuild) :
    (d.op slot).state = .cancelling := by
  unfold pointEnabled at hen
  dsimp only at hen
  rcases h with h | h <;> rw [h] at hen <;> simp at hen
  · exact hen.2
  · exact hen.2.1.1

end

/-! ### The start (R376, R417) -/

theorem exec_opStart (slot : Fin 64) (s : State) :
    exec (.opStart slot) s = onEvent s (startEnabled slot) fun _ d => startWork slot (d.setOp slot .running 0) := rfl

/-- A rebuild begins: what it is to write is counted (R376). -/
def Dev.beginRebuild (d : Dev) (slot : Fin 64) (full : Bool) : Dev :=
  let n := ((d.fabDevices.map (·.toNat)).foldl max d.number.toNat + 1) * (1 + d.fabDevices.length)
  { d with rebuild := some { op := slot, full, written := n } }.modOp slot fun o => { o with progress := n }

theorem Dev.writeRoutes_offLinks (d : Dev) (v : BitVec 1) (first : Nat) (es : List (BitVec 16)) :
    (d.writeRoutes v first es).offLinks = d.offLinks := rfl

theorem Dev.flipTo_offLinks (d : Dev) (e : BitVec 1) : (d.flipTo e).offLinks = d.offLinks := by
  unfold Dev.flipTo
  split <;> rfl

theorem Dev.startRebuild_offLinks (d : Dev) : d.startRebuild.offLinks = d.offLinks := by
  unfold Dev.startRebuild
  extract_lets v own sent
  have hown : own.offLinks = d.offLinks := by
    refine foldl_keeps Dev.offLinks (fun e x => ?_) _ d
    exact e.writeRoutes_offLinks v x.1 x.2
  have hsent : sent.offLinks = own.offLinks := by
    refine foldl_keeps Dev.offLinks (fun e dev => ?_) _ own
    split
    · refine foldl_keeps Dev.offLinks (fun e x => ?_) _ e
      exact e.sendOn_offLinks _ _
    · rfl
  exact (rfl : _ = sent.offLinks).trans (hsent.trans hown)

theorem Dev.endOp_tiles_lofts (d : Dev) (i : Option (Fin 64)) (st : OpState) (code : Nat) :
    (d.endOp i st code).tiles = d.tiles ∧ (d.endOp i st code).lofts = d.lofts := by
  unfold Dev.endOp
  split
  · split
    · exact ⟨d.setOp_tiles .., d.setOp_lofts ..⟩
    · exact ⟨rfl, rfl⟩
  · exact ⟨rfl, rfl⟩

theorem Dev.stepRebuild_tiles_lofts (d : Dev) : d.stepRebuild.tiles = d.tiles ∧ d.stepRebuild.lofts = d.lofts := by
  unfold Dev.stepRebuild
  split
  · exact ⟨rfl, rfl⟩
  split
  · exact ⟨rfl, rfl⟩
  split
  · extract_lets epoch flipped _ owed
    have hflipped : flipped.offLinks = d.offLinks := by
      refine (foldl_keeps Dev.offLinks (fun e dev => ?_) _ _).trans (d.flipTo_offLinks epoch)
      split
      · exact e.sendOn_offLinks _ _
      · rfl
    have howed : owed.tiles = d.tiles ∧ owed.lofts = d.lofts :=
      ⟨Dev.same_of_offLinks hflipped Dev.tiles fun _ => rfl, Dev.same_of_offLinks hflipped Dev.lofts fun _ => rfl⟩
    clear_value owed
    split
    · exact ⟨(Dev.endOp_tiles_lofts ..).1.trans howed.1, (Dev.endOp_tiles_lofts ..).2.trans howed.2⟩
    · exact howed
  · exact Dev.endOp_tiles_lofts ..

/-- Settles O27: the type of the operation and its state decide; the work up to a point fails the operation or leaves its state. -/
theorem operationsStartAndStopAtPoints : Obligations.OperationsStartAndStopAtPoints := by
  unfold Obligations.OperationsStartAndStopAtPoints
  refine ⟨fun slot s hen => ?_, fun slot s hen => ?_⟩
  · intro o d
    have hstart {e : Dev} (h : startWork slot d = e) : exec (.opStart slot) s = .next (s.put e) :=
      exec_event (exec_opStart slot s) hen h
    have htyp : (d.op slot).typ = o.typ := s.dev.setOp_typ ..
    have hpad : (d.op slot).paddock = o.paddock := s.dev.setOp_paddock ..
    have hargs : (d.op slot).args = o.args := s.dev.setOp_args ..
    have hdtiles : d.tiles = s.dev.tiles := s.dev.setOp_tiles ..
    have hdlofts : d.lofts = s.dev.lofts := s.dev.setOp_lofts ..
    clear_value d
    refine ⟨fun h => hstart ?_, fun k p hk h ha hp => hstart ?_, fun k hk h => hstart ?_, fun k hk h => hstart ?_, fun h => ?_⟩
    · unfold startWork
      dsimp only
      rw [htyp]
      rcases h with h | h | h | ⟨h, ha⟩
      · rw [h]
      · rw [h]
      · rw [h]
      · rw [h, hargs, ha]
        cases (d.op slot).paddock <;> rfl
    · unfold startWork
      dsimp only
      rw [htyp, hpad, hargs, h, hk]
      dsimp only
      rw [ha, hp]
      rfl
    · unfold startWork
      dsimp only
      rw [htyp, hpad, h, hk]
    · unfold startWork
      dsimp only
      rw [htyp, hpad, h, hk]
    · have hstarts : startWork slot d = (d.beginRebuild slot (o.args.getD 0 0 == 1)).startRebuild.stepRebuild := by
        unfold startWork
        dsimp only
        rw [htyp, hargs, h]
        rfl
      have hbegun := (d.beginRebuild slot (o.args.getD 0 0 == 1)).startRebuild_offLinks
      obtain ⟨htiles, hlofts⟩ := Dev.stepRebuild_tiles_lofts (d.beginRebuild slot (o.args.getD 0 0 == 1)).startRebuild
      refine ⟨_, hstart hstarts, htiles.trans ?_, hlofts.trans ?_⟩
      · exact (Dev.same_of_offLinks hbegun Dev.tiles fun _ => rfl).trans hdtiles
      · exact (Dev.same_of_offLinks hbegun Dev.lofts fun _ => rfl).trans hdlofts
  · intro d o work
    have hpoint {fz : Fuse} {e : Dev} (h : pointEffect slot s.fuse d = (fz, e)) :
        exec (.opPointReached slot) s = .next { s with fuse := fz, dev := e } := exec_both (exec_opPointReached slot s) hen h
    have hlive {st : OpState} (h : (d.op slot).state = st) (hf : st.final = false := by rfl) : (d.op slot).state.final = false := h ▸ hf
    refine ⟨fun hw (h : (d.op slot).state = .running) => hpoint ((pointEffect_work hw).trans ?_),
      fun hw h => hpoint ((pointEffect_work hw).trans ?_),
      fun hw (h : (d.op slot).state = .suspending) hf => hpoint ((pointEffect_work hw).trans ?_),
      fun hw (h : (d.op slot).state = .cancelling) hf => hpoint ((pointEffect_work hw).trans ?_),
      fun k ht (h : (d.op slot).state = .suspending) hk => hpoint ((pointEffect_runPoint ht h hk).trans ?_),
      fun ht (h : (d.op slot).state = .cancelling) => hpoint ((pointEffect_run ht h).trans ?_),
      fun ht (h : (d.op slot).state = .suspending) => hpoint ((pointEffect_loadSuspends ht h).trans ?_),
      fun ht h => hpoint (pointEffect_loadCancels ht h),
      fun ht => hpoint ((pointEffect_rebuild ht).trans ?_), fun ht => hpoint ((pointEffect_staging ht).trans ?_)⟩
    · have hkept : ((d.workStep slot).op slot).state ≠ .cancelled := by
        rcases d.workStep_state slot with hs | hs <;> rw [hs]
        · rw [h]; decide
        · decide
      rw [h, Dev.haltAt_running, if_neg (by simpa using hkept)]
    · rw [Dev.haltAt_final (by rw [h]; rfl), h]
      rfl
    · rw [h, Dev.haltAt_suspending hf, Dev.setOp_state]
      rfl
    · rw [h, Dev.haltAt_cancelling hf, Dev.setOp_state]
      rfl
    · rw [h, Dev.haltAt_suspending (d := d.modPad k _) (hlive h)]
    · rw [h, Dev.haltAt_cancelling (hlive h)]
    · rw [h, Dev.haltAt_suspending (hlive h)]
    · have h : (d.op slot).state = .cancelling := cancelling_of_pointEnabled hen (.inr ht)
      rw [h, Dev.haltAt_cancelling (d := { d with rebuild := none, fab := _ }) (hlive h)]
    · have h : (d.op slot).state = .cancelling := cancelling_of_pointEnabled hen (.inl ht)
      rw [h, Dev.haltAt_cancelling (d := { d with staging := none }) (hlive h)]

end Sys2Proof.Machine
end

section
/-!
PROOFS. Beats hold and release paddocks (R443 to R446); tiles sink into deeper states and wake (R527 to R529).
-/
namespace Sys2Proof.Machine

/-! ### Beats -/

section
variable (d : Dev) (k : PadId)

/-- What a beat does not change: lofts, carillon and the table. -/
def Dev.offBeat (d : Dev) : Vector Loft 48 × Carillon × Option Beats := (d.lofts, d.car, d.beats)

@[simp] theorem Dev.forSites_offBeat (ss : List SiteId) (f : Tile → Tile) : (d.forSites ss f).offBeat = d.offBeat := by
  refine foldl_keeps Dev.offBeat (fun e s => ?_) ss d
  rfl

theorem Dev.forSites_pad (ss : List SiteId) (f : Tile → Tile) (j : PadId) : (d.forSites ss f).pad j = d.pad j := by
  refine foldl_keeps (fun e : Dev => e.pad j) (fun e s => ?_) ss d
  rfl

theorem Dev.hold_offBeat : (d.hold k).offBeat = d.offBeat := by
  unfold Dev.hold
  split
  · rfl
  · extract_lets busy held
    split <;> rfl

theorem Dev.hold_pad (j : PadId) :
    (d.hold k).pad j = if j = k then (d.pad k).map fun p => { p with held := true, holdAt := d.now } else d.pad j := by
  unfold Dev.hold
  split
  · next hnone =>
    split
    · next h => rw [h, hnone]; rfl
    · rfl
  · next p hp =>
    extract_lets busy held
    have hheld : held.pad j = if j = k then (d.pad k).map fun p => { p with held := true, holdAt := d.now } else d.pad j := by
      split
      · next h => rw [h]; exact d.modPad_pad k _
      · next h => exact d.modPad_pad_ne k j _ h
    clear_value held busy
    split <;> exact hheld

theorem Dev.unhold_pad (j : PadId) : (d.unhold k).pad j =
    if j = k then (d.pad k).map fun p => { p with held := false, frozen := p.frozen + (d.now - p.holdAt) } else d.pad j := by
  split
  · next h => rw [h]; exact d.modPad_pad k _
  · next h => exact d.modPad_pad_ne k j _ h

/-- The table of `b` holds a paddock: it is named, and not in the current entry (R444). -/
def Beats.holds (b : Beats) (k : PadId) : Bool := b.names k && b.named != some k

/-- One paddock is held or released as a beat says. -/
def Dev.applyBeatTo (d : Dev) (b : Beats) (k : PadId) : Dev :=
  match d.pad k with
  | none => d
  | some p =>
    let d := if b.holds k && !p.held then d.hold k else if !b.holds k && p.held then d.unhold k else d
    d.forSites p.sites fun t => { t with ctl := { t.ctl with hold := BitVec.ofNat 8 (bit (b.holds k) 0 + bit (b.names k) 1) } }

theorem Dev.applyBeatTo_offBeat (b : Beats) : (d.applyBeatTo b k).offBeat = d.offBeat := by
  unfold Dev.applyBeatTo
  split
  · rfl
  · extract_lets e
    have he : e.offBeat = d.offBeat := by
      unfold e
      split
      · exact d.hold_offBeat k
      · split <;> rfl
    clear_value e
    exact (e.forSites_offBeat ..).trans he

/-- What is on a paddock's own site is as the beat says. -/
def Dev.HeldAs (d : Dev) (b : Beats) (k : PadId) : Prop := ∀ p, d.pad k = some p → p.held = b.holds k

theorem Dev.applyBeatTo_heldAs (b : Beats) : (d.applyBeatTo b k).HeldAs b k := by
  intro q hq
  unfold Dev.applyBeatTo at hq
  split at hq
  · next hnone => cases hnone.symm.trans hq
  · next p hp =>
    extract_lets e at hq
    have he : (e.pad k).map (·.held) = some (b.holds k) := by
      unfold e
      split
      · next h =>
        rw [d.hold_pad, if_pos rfl, hp]
        simp only [Bool.and_eq_true] at h
        exact congrArg some h.1.symm
      split
      · next h =>
        rw [d.unhold_pad, if_pos rfl, hp]
        simp only [Bool.and_eq_true, Bool.not_eq_true'] at h
        exact congrArg some h.1.symm
      · next h₁ h₂ =>
        rw [hp]
        refine congrArg some ?_
        cases hb : b.holds k <;> cases hh : p.held <;> simp_all
    clear_value e
    rw [Dev.forSites_pad] at hq
    rw [hq] at he
    exact Option.some.inj he

theorem Dev.applyBeatTo_pad_ne (b : Beats) {j : PadId} (h : j ≠ k) : (d.applyBeatTo b k).pad j = d.pad j := by
  unfold Dev.applyBeatTo
  split
  · rfl
  · extract_lets e
    have he : e.pad j = d.pad j := by
      unfold e
      split
      · rw [d.hold_pad, if_neg h]
      split
      · rw [d.unhold_pad, if_neg h]
      · rfl
    clear_value e
    exact (e.forSites_pad ..).trans he

theorem Dev.HeldAs.applyBeatTo {d : Dev} {b : Beats} {j : PadId} (h : d.HeldAs b j) (k : PadId) : (d.applyBeatTo b k).HeldAs b j := by
  by_cases hj : j = k
  · exact hj ▸ d.applyBeatTo_heldAs k b
  · intro p hp
    exact h p ((d.applyBeatTo_pad_ne k b hj).symm.trans hp)

theorem Dev.foldl_applyBeatTo (b : Beats) (j : PadId) (l : List PadId) (h : j ∈ l ∨ d.HeldAs b j) :
    (l.foldl (fun d k => d.applyBeatTo b k) d).HeldAs b j := by
  induction l generalizing d with
  | nil => exact h.resolve_left List.not_mem_nil
  | cons k l ih =>
    refine ih (d.applyBeatTo b k) ?_
    rcases h with hmem | hheld
    · rcases List.mem_cons.mp hmem with rfl | hmem
      · exact .inr (d.applyBeatTo_heldAs j b)
      · exact .inl hmem
    · exact .inr (hheld.applyBeatTo k)

theorem Dev.grantBeat_offBeat (old new : Option PadId) :
    (d.grantBeat old new).offBeat = d.offBeat ∧ (d.grantBeat old new).pads = d.pads := by
  unfold Dev.grantBeat
  split
  · split
    · exact ⟨rfl, rfl⟩
    · split <;> exact ⟨rfl, rfl⟩
  · exact ⟨rfl, rfl⟩

/-- The table with a beat as its current one holds the paddocks that the beat says. -/
theorem Dev.enterBeat_held (old : Option PadId) (b : Beats) : (d.enterBeat old b).HeldAs b k := by
  have happlied : ({ d with beats := some b }.applyBeat b).HeldAs b k := Dev.foldl_applyBeatTo _ b k _ (.inl (List.mem_finRange k))
  intro p hp
  exact happlied p ((congrArg (fun v : Vector (Option Paddock) 16 => v[k]) (Dev.grantBeat_offBeat _ old b.named).2).symm.trans hp)

theorem Dev.enterBeat_offBeat (old : Option PadId) (b : Beats) : (d.enterBeat old b).offBeat = (d.lofts, d.car, some b) := by
  refine (Dev.grantBeat_offBeat ..).1.trans ?_
  refine (foldl_keeps Dev.offBeat (fun e k => ?_) (fins 16) { d with beats := some b }).trans rfl
  exact e.applyBeatTo_offBeat k b

end

theorem exec_beatBoundary (s : State) : exec .beatBoundary s =
    onEvent s (fun d => d.worvis && (d.beats.map fun b => decide (b.ends ≤ d.now)).getD false) beatEffect := rfl

/-! ### Power states of a site -/

theorem exec_tilePowerChange (st : SiteId) (s : State) : exec (.tilePowerChange st) s =
    onEvent s (fun d => d.worvis && d.power st < d.powerFor st) fun _ d => d.sleep st (d.powerFor st) := rfl

theorem exec_tileWake (st : SiteId) (katPass : Bool) (s : State) : exec (.tileWake st katPass) s =
    onEvent s (fun d => d.worvis && d.powerFor st < d.power st) (tileWakeEffect st katPass) := rfl

section
variable (d : Dev) (s : SiteId)

theorem Dev.powerFor_le : d.powerFor s ≤ 3 := by
  unfold Dev.powerFor
  repeat' split
  all_goals decide

/-- What the entry to a deeper state leaves of a tile (R527). -/
def Tile.sunk (t : Tile) (p : Nat) : Tile :=
  if p == 3 then darkTile t else if p == 2 then t.retain else { t with power := BitVec.ofNat 8 p }

theorem Dev.sleep_eq (p : Nat) : d.sleep s p = d.modTile s fun t => t.sunk p := rfl

theorem Tile.sunk_router (t : Tile) (p : Nat) : (t.sunk p).router = t.router := by
  unfold Tile.sunk
  split
  · rfl
  · split <;> rfl

theorem Tile.sunk_power (t : Tile) {p : Nat} (h : p ≤ 3) : (t.sunk p).power.toNat % 4 = p := by
  obtain rfl | rfl | rfl | rfl : p = 0 ∨ p = 1 ∨ p = 2 ∨ p = 3 := by omega
  all_goals rfl

theorem Dev.modTile_onlyTile (f : Tile → Tile) : OnlyTile s d (d.modTile s f) := by
  unfold OnlyTile
  rw [Dev.modTile_tile]
  refine congrArg (fun v => { d with tiles := v }) ?_
  refine Vector.ext fun i hi => ?_
  by_cases h : i = s.val
  · subst h
    exact (vmod_same d.tiles s f).trans (vmod_same d.tiles s _).symm
  · have hne : (⟨i, hi⟩ : SiteId) ≠ s := fun heq => h (congrArg Fin.val heq)
    exact (vmod_other d.tiles s ⟨i, hi⟩ f hne).trans (vmod_other d.tiles s ⟨i, hi⟩ _ hne).symm

/-! ### Whether scrubbers work -/

def Dev.scrubbing (d : Dev) : SiteId → Bool := fun s => (d.tile s).scrub.works

theorem Dev.modTile_scrubbing {f : Tile → Tile} (h : ∀ t, (f t).scrub.works = t.scrub.works) : (d.modTile s f).scrubbing = d.scrubbing := by
  funext r
  show ((d.modTile s f).tile r).scrub.works = (d.tile r).scrub.works
  by_cases hr : r = s
  · rw [hr, d.modTile_tile, h]
  · rw [d.modTile_tile_ne s r f hr]

/-- A write of a field leaves the bits below it. -/
theorem bitOf_setFld_below (x lo len v : Nat) {i : Nat} (h : i < lo) : bitOf (setFld x lo len v) i = bitOf x i := by
  obtain ⟨k, rfl⟩ := Nat.exists_eq_add_of_lt h
  unfold bitOf setFld
  have hle : fld x (i + k + 1) len * 2 ^ (i + k + 1) ≤ x := (Nat.mul_le_mul_right _ (Nat.mod_le _ _)).trans (Nat.div_mul_le_self x _)
  generalize fld x (i + k + 1) len = c at hle ⊢
  have hpow (c : Nat) : c * 2 ^ (i + k + 1) = 2 ^ i * (2 * (c * 2 ^ k)) := by ring
  have hsub := (Nat.le_div_iff_mul_le (Nat.two_pow_pos i)).mpr (((Nat.mul_comm _ _).trans (hpow _).symm).trans_le hle)
  rw [hpow] at hle
  have hdiv : (x - c * 2 ^ (i + k + 1) + v % 2 ^ len * 2 ^ (i + k + 1)) / 2 ^ i =
      x / 2 ^ i - 2 * (c * 2 ^ k) + 2 * (v % 2 ^ len * 2 ^ k) := by
    rw [hpow, hpow, Nat.add_mul_div_left _ _ (Nat.two_pow_pos i), Nat.sub_mul_div_of_le _ _ _ hle]
  have hmod : fld (x - c * 2 ^ (i + k + 1) + v % 2 ^ len * 2 ^ (i + k + 1)) i 1 = fld x i 1 := by
    rw [fld, hdiv, fld, Nat.pow_one]
    omega
  rw [hmod]

theorem Scrubber.put_works (c : Scrubber) (lo len v : Nat) (h : 74 < lo) : (c.put lo len v).works = c.works :=
  congrArg (· && !c.halted) (bitOf_setFld_below c.copyA lo len v h)

theorem Scrubber.setBound_works (c : Scrubber) (n : Nat) : (c.setBound n).works = c.works := c.put_works 83 20 _ (by norm_num)

theorem Dev.setBounds_scrubbing (k : PadId) : (d.setBounds k).scrubbing = d.scrubbing := by
  unfold Dev.setBounds
  split
  · refine foldl_keeps Dev.scrubbing (fun e r => ?_) _ d
    exact e.modTile_scrubbing r fun t => t.scrub.setBound_works _
  · rfl

theorem Dev.dropImage_scrubbing (k : PadId) : (d.dropImage k).scrubbing = d.scrubbing := by
  unfold Dev.dropImage
  split
  · refine (Dev.setBounds_scrubbing ..).trans ?_
    refine foldl_keeps Dev.scrubbing (fun e r => ?_) _ d
    exact e.modTile_scrubbing r fun _ => rfl
  · rfl

/-! ### Waking -/

/-- A tile that wakes is ACTIVE, and its scrubber works as before, when the scan begins; none is made of a tile that was clock
gated only. -/
theorem Dev.wake_scans (h : 0 < d.power s) :
    ∃ w : Dev, w.power s = 0 ∧ (w.tile s).scrub.works = (d.tile s).scrub.works ∧
      d.wake s = if d.power s == 1 then w else w.wakeScan s := by
  unfold Dev.wake
  extract_lets p active dark woken
  have hactive : active.power s = 0 := congrArg (fun t : Tile => t.power.toNat % 4) (d.modTile_tile s _)
  have hdark : dark.standing = active.standing := active.modTile_standing s fun _ => rfl
  have hactiveWorks : active.scrubbing = d.scrubbing := d.modTile_scrubbing s fun _ => rfl
  have hdarkWorks : dark.scrubbing = active.scrubbing := active.modTile_scrubbing s fun _ => rfl
  have hwoken : woken.power s = 0 ∧ woken.scrubbing = d.scrubbing := by
    unfold woken
    split
    · exact ⟨hactive, hactiveWorks⟩
    split
    · exact ⟨(Dev.power_congr ((Dev.dropImage_standing ..).trans hdark) s).trans hactive,
        (Dev.dropImage_scrubbing ..).trans (hdarkWorks.trans hactiveWorks)⟩
    · exact ⟨(Dev.power_congr hdark s).trans hactive, hdarkWorks.trans hactiveWorks⟩
  clear_value woken
  refine ⟨woken, hwoken.1, congrFun hwoken.2 s, if_neg ?_⟩
  simpa using Nat.ne_of_gt h

/-- A scrubber that has halted leaves the result clear, which is the answer to no seed (R314). -/
theorem Tile.scan_scanOk_halted {t : Tile} (seed : Word) (h : t.scrub.works = false) : ((t.askScan seed).scan).scrub.scanOk seed = false := by
  have hscan : ((t.askScan seed).scan).scrub.kat = 0#64 := congrArg (fun u : Tile => u.scrub.kat) (if_pos (congrArg Bool.not h))
  rw [Scrubber.scanOk, hscan, beq_eq_false_iff_ne]
  intro heq
  have hnat := congrArg BitVec.toNat heq
  simp only [BitVec.toNat_ofNat] at hnat
  omega

theorem Dev.katScanned_scanOk {seed : Word} (hseed : seed = BitVec.ofNat 32 (Config.freeBits d.freeCtr)) :
    ((d.katScanned s).tile s).scrub.scanOk seed = (d.tile s).scrub.works := by
  unfold Dev.katScanned
  rw [Dev.modTile_tile, ← hseed]
  show (((d.tile s).askScan seed).scan).scrub.scanOk seed = _
  cases h : (d.tile s).scrub.works with
  | true => exact Tile.scan_scanOk seed h
  | false => exact Tile.scan_scanOk_halted seed h

theorem Dev.wakeScan_power (h : (d.tile s).scrub.works = true) : (d.wakeScan s).power s = d.power s := by
  rw [Dev.wakeScan_eq, d.katScanned_scanOk s rfl, if_pos h]
  exact Dev.power_congr (d.katScanned_standing s) s

theorem Dev.wakeScan_retires (h : (d.tile s).scrub.works = false) : (d.wakeScan s).kinds[s] = .retired := by
  rw [Dev.wakeScan_eq, d.katScanned_scanOk s rfl, h]
  exact Dev.retireTile_retired ..

end

/-- Settles O21: a beat is applied paddock by paddock, each held as the beat says and left so by the others; a wake ends with the scan
of the tile that has woken. -/
theorem beatsHoldAndTilesSleep : Obligations.BeatsHoldAndTilesSleep := by
  unfold Obligations.BeatsHoldAndTilesSleep
  refine ⟨fun b s hw hb => ⟨fun h => ?_, fun h => ?_⟩, fun st katPass s hw => ?_⟩
  · refine exec_event_idle (exec_beatBoundary s) ?_
    simp [hw, hb, Nat.not_le.mpr h]
  · have heffect : beatEffect s.fuse s.dev = s.dev.enterBeat b.named b.next := by rw [beatEffect, hb]
    have hoff := s.dev.enterBeat_offBeat b.named b.next
    refine ⟨_, exec_event (exec_beatBoundary s) (by simp [hw, hb, h]) heffect, congrArg (·.2.2) hoff, congrArg (·.1) hoff,
      congrArg (·.2.1) hoff, fun k p hp => s.dev.enterBeat_held k b.named b.next p hp⟩
  · intro d
    have hsunk (h : d.powerFor st ≤ 3) : (d.sleep st (d.powerFor st)).power st = d.powerFor st := by
      rw [Dev.power, Dev.sleep_eq, Dev.modTile_tile]
      exact (d.tile st).sunk_power h
    have hdeep (h : 2 ≤ d.power st) : (d.power st == 1) = false := by
      rw [beq_eq_false_iff_ne]
      omega
    have hwakes (h : d.powerFor st < d.power st) {e : Dev} (he : tileWakeEffect st katPass s.fuse d = e) :
        exec (.tileWake st katPass) s = .next (s.put e) :=
      exec_event (exec_tileWake st katPass s) (by simpa [hw] using h) he
    refine ⟨fun h => ⟨_, exec_event (exec_tilePowerChange st s) (by simpa [hw] using h) rfl, ?_, hsunk (d.powerFor_le st), ?_⟩,
      fun h => exec_event_idle (exec_tilePowerChange st s) (by simpa [hw] using h), fun h hpass => hwakes h ?_, fun h hworks => ?_,
      fun h hworks hp => ?_, fun h hfails hp => hwakes h ?_⟩
    · exact d.modTile_onlyTile st _
    · rw [Dev.sleep_eq, Dev.modTile_tile, Tile.sunk_router]
    · refine if_neg ?_
      rcases hpass with hpass | hpower
      · simp [hpass]
      · simp [Nat.not_le.mpr hpower]
    · obtain ⟨w, hpower, hkept, heq⟩ := d.wake_scans st (Nat.zero_lt_of_lt h)
      rw [heq]
      split
      · exact hpower
      · next hne =>
        have hworks : (w.tile st).scrub.works = true := hkept.trans (hworks.resolve_right fun hlt => hne ?_)
        · exact (w.wakeScan_power st hworks).trans hpower
        · rw [beq_iff_eq]
          omega
    · obtain ⟨w, -, hkept, heq⟩ := d.wake_scans st (Nat.zero_lt_of_lt h)
      rw [heq, hdeep hp]
      exact w.wakeScan_retires st (hkept.trans hworks)
    · refine if_pos ?_
      simp [hp, hfails]

end Sys2Proof.Machine
end

section
/-!
PROOFS. The host port: mailboxes, messages from the host, copies, event rings and modules (R394 to R416, R432).
-/
namespace Sys2Proof.Machine

/-! ### Mailboxes (R407, R408, R413) -/

theorem exec_mailboxDoorbell (n : MbId) (s : State) : exec (.mailboxDoorbell n) s = onEvent s windowUp fun _ d => d.ringDoorbell n := rfl

theorem exec_mailboxAck (n : MbId) (seq : BitVec 16) (s : State) :
    exec (.mailboxAck n seq) s = onEvent s windowUp fun _ d => d.ackMailbox n seq := rfl

theorem exec_eventConsume (n : MbId) (v : Word) (s : State) :
    exec (.eventConsume n v) s = onEvent s windowUp fun _ d => d.consumed n v := rfl

section
variable {d : Dev} {n : MbId}

theorem Dev.modMb_congr {f g : Mailbox → Mailbox} (h : f (d.mb n) = g (d.mb n)) : d.modMb n f = d.modMb n g :=
  congrArg (fun v => { d with mbs := v }) (vmod_congr d.mbs n h)

theorem Dev.modMb_modMb (f g : Mailbox → Mailbox) : (d.modMb n f).modMb n g = d.modMb n fun b => g (f b) :=
  congrArg (fun v => { d with mbs := v }) (vmod_vmod d.mbs n f g)

theorem Dev.ringDoorbell_empty (h : (d.mb n).state = .empty) (hready : d.mailboxReady = true) :
    d.ringDoorbell n = d.modMb n fun b => b.submit (b.cmdBuf.readN 0 4096) :=
  Dev.modMb_congr (if_pos (by simp [h, hready]))

theorem Dev.ringDoorbell_refused (h : (d.mb n).state ≠ .empty ∨ d.mailboxReady = false) :
    d.ringDoorbell n = d.modMb n fun b => { b with refused := b.refused.inc d.now } :=
  Dev.modMb_congr (if_neg (by rcases h with h | h <;> simp [h]))

theorem Dev.ackMailbox_taken {seq : BitVec 16} (h : (d.mb n).state = .ready) (hseq : (d.mb n).seq = seq) :
    d.ackMailbox n seq = d.modMb n Mailbox.release :=
  Dev.modMb_congr (if_pos (by simp [h, hseq]))

theorem Dev.ackMailbox_refused {seq : BitVec 16} (h : (d.mb n).state ≠ .ready ∨ (d.mb n).seq ≠ seq) :
    d.ackMailbox n seq = d.modMb n fun b => { b with refused := b.refused.inc d.now } :=
  Dev.modMb_congr (if_neg (by rcases h with h | h <;> simp [h]))

end

/-- Settles O24: each access is one change of its mailbox or ring, which the state of the mailbox or the ring's records decide. -/
theorem mailboxHandshake : Obligations.MailboxHandshake := by
  unfold Obligations.MailboxHandshake
  intro n seq v s hup d b r counted
  refine ⟨fun h hready => ?_, fun h => ?_, fun h hseq => ?_, fun h => ?_, fun _ _ hready => ⟨rfl, ?_⟩, fun h => ?_, fun h => ?_⟩
  · exact exec_event (exec_mailboxDoorbell n s) hup (Dev.ringDoorbell_empty h hready)
  · exact exec_event (exec_mailboxDoorbell n s) hup (Dev.ringDoorbell_refused h)
  · exact exec_event (exec_mailboxAck n seq s) hup (Dev.ackMailbox_taken h hseq)
  · exact exec_event (exec_mailboxAck n seq s) hup (Dev.ackMailbox_refused h)
  · have hreleased : ((d.modMb n Mailbox.release).mb n).state = .empty := congrArg Mailbox.state (vmod_same d.mbs n Mailbox.release)
    have hup' : windowUp (d.modMb n Mailbox.release) = true := hup
    refine exec_event (exec_mailboxDoorbell n (s.put (d.modMb n Mailbox.release))) hup' ?_
    exact (Dev.ringDoorbell_empty hreleased hready).trans (Dev.modMb_modMb ..)
  · exact exec_event (exec_eventConsume n v s) hup (if_pos h)
  · exact exec_event (exec_eventConsume n v s) hup (if_neg (Nat.not_le.mpr h))

/-! ### Messages from the host (R396, R400, R402) -/

section
variable (m : ModId) (h : HostHdr) (data : Bytes) (s : State)

theorem exec_winRead : exec (.winRead m h) s = onEvent s (takes m h 0x01) (winReadEffect m h) := rfl
theorem exec_winWrite : exec (.winWrite m h data) s = onEvent s (takes m h 0x02) (winWriteEffect m h data) := rfl
theorem exec_copyWrite : exec (.copyWrite m h data) s = onEvent s (takes m h 0x03) (copyWriteEffect m h data) := rfl
theorem exec_credit : exec (.credit m h) s = onEvent s (takes m h 0x0F) (creditEffect m h) := rfl

end

section
variable {d : Dev} {m : ModId} {h : HostHdr}

theorem takes_own {t : Byte} (hrec : receives m d = true) (ht : h.mtype = t) : takes m h t d = true := by
  simp [takes, hrec, hdrIsFor, ht]

theorem takes_other (t : Byte) (hrec : receives m d = true) (hk : hdrKnown h = false) (h0 : h.mtype ≠ 0#8) : takes m h t d = true := by
  simp [takes, hrec, hdrIsFor, hk, h0]

theorem Dev.byType_known {f : Dev → Dev} (hk : hdrKnown h = true) : d.byType h f = f d := if_pos hk

theorem Dev.byType_other {f : Dev → Dev} (hk : hdrKnown h = false) : d.byType h f = d.refuseHost 0x7001 h :=
  if_neg (Bool.eq_false_iff.mp hk)

/-- The device once a message has taken its slots and requests (R399). -/
def Dev.receipted (d : Dev) (m : ModId) (p np : Nat) : Dev :=
  d.modModule m fun x => { x with rcvdP := x.rcvdP + p, rcvdNp := x.rcvdNp + np }

theorem Dev.receipted_copyOf (p np id : Nat) : (d.receipted m p np).copyOf id = d.copyOf id := rfl

variable {p np : Nat} {bad : Bool} {perform : Dev → Dev × Bool}

theorem Dev.receive_bad (hb : bad = true) : d.receive m h p np bad perform = (d.receipted m p np).refuseHost 0x7001 h := if_pos hb

theorem Dev.receive_beyond (hb : bad = false) (hy : (d.module m).beyond p np = true) :
    d.receive m h p np bad perform = (d.receipted m p np).refuseHost 0x7003 h :=
  (if_neg (Bool.eq_false_iff.mp hb)).trans (if_pos hy)

theorem Dev.receive_checked (hb : bad = false) (hy : (d.module m).beyond p np = false) : d.receive m h p np bad perform =
    if (perform (d.receipted m p np)).2 then (perform (d.receipted m p np)).1
    else (perform (d.receipted m p np)).1.refuseHost 0x7002 h :=
  (if_neg (Bool.eq_false_iff.mp hb)).trans (if_neg (Bool.eq_false_iff.mp hy))

theorem Dev.receive_performed {e : Dev} (hb : bad = false) (hy : (d.module m).beyond p np = false)
    (he : perform (d.receipted m p np) = (e, true)) : d.receive m h p np bad perform = e := by
  rw [Dev.receive_checked hb hy, he]
  rfl

theorem Dev.receive_refused {e : Dev} (hb : bad = false) (hy : (d.module m).beyond p np = false)
    (he : perform (d.receipted m p np) = (e, false)) : d.receive m h p np bad perform = e.refuseHost 0x7002 h := by
  rw [Dev.receive_checked hb hy, he]
  exact if_neg Bool.false_ne_true

end

theorem Module.beyond_request {x : Module} : x.beyond 0 1 = decide (64 + x.retNp < x.rcvdNp + 1) := by simp [Module.beyond]

theorem Module.beyond_slots {x : Module} (n : Nat) : x.beyond (1 + n) 0 = decide (4096 + x.retP < x.rcvdP + (1 + n)) := by
  simp [Module.beyond]

/-- What a COPY_WRITE does where it is neither malformed nor beyond credit: whether the copy that it names took it (R403). -/
def copyTake (m : ModId) (h : HostHdr) (data : Bytes) (d : Dev) : Dev × Bool :=
  match d.copyOf h.handle.toNat with
  | none => (d, false)
  | some i =>
    let r := match (d.copies[i]).kind with
      | .copyOut => (d, false)
      | .copyIn => d.copyIn m i h.addr.toNat data
      | .stream => d.streamIn m i h.addr.toNat data
    if r.2 then
      ({ r.1 with host := { r.1.host with copyBytes := r.1.host.copyBytes + BitVec.ofNat 64 data.length } }, true)
    else r

section
variable {m : ModId} {h : HostHdr} {data : Bytes} {d : Dev}

theorem copyTake_none (hc : d.copyOf h.handle.toNat = none) : copyTake m h data d = (d, false) := by rw [copyTake, hc]

variable {i : Fin 16} {e : Dev} (hc : d.copyOf h.handle.toNat = some i)
include hc

theorem copyTake_copyIn (hk : (d.copies[i]).kind = .copyIn) (he : d.copyIn m i h.addr.toNat data = (e, true)) : copyTake m h data d =
    ({ e with host := { e.host with copyBytes := e.host.copyBytes + BitVec.ofNat 64 data.length } }, true) := by
  unfold copyTake
  rw [hc]
  dsimp only
  rw [hk]
  dsimp only
  rw [he]
  rfl

theorem copyTake_streamIn (hk : (d.copies[i]).kind = .stream) (he : d.streamIn m i h.addr.toNat data = (e, true)) : copyTake m h data d =
    ({ e with host := { e.host with copyBytes := e.host.copyBytes + BitVec.ofNat 64 data.length } }, true) := by
  unfold copyTake
  rw [hc]
  dsimp only
  rw [hk]
  dsimp only
  rw [he]
  rfl

end

/-! ### What an OUT copy reads (R432) -/

/-- A range of a loft begins with a piece of its first block. -/
theorem loftPieces_first {off n : Nat} (hn : 0 < n) : ∃ k, k ≠ 0 ∧ (off, k) ∈ loftPieces off n := by
  refine ⟨min (off + n) ((off / 512 + 1) * 512) - off, by omega, ?_⟩
  unfold loftPieces
  rw [List.mem_filterMap]
  refine ⟨0, List.mem_range.mpr (by omega), ?_⟩
  have hmax : max off ((off / 512 + 0) * 512) = off := by omega
  have hlt : off < min (off + n) ((off / 512 + 0 + 1) * 512) := by omega
  rw [hmax, if_pos hlt]

/-- The first codeword of a linear range without an uncorrectable one is good. -/
theorem Dev.badOf_of_badLinear {d : Dev} {a n : Nat} {l : SiteId} (h : d.badLinear a n = false) (hn : 0 < n)
    (hl : finOf 48 (dramLoft a) = some l) : (d.loft l).badOf (dramOff a) 1 = [] := by
  have hoff : dramOff a < 2 ^ 33 := Nat.mod_lt _ (by norm_num)
  obtain ⟨k, hk, hmem⟩ := loftPieces_first (off := dramOff a) (n := min n (2 ^ 33 - dramOff a)) (by omega)
  have hnone : d.badAt a n = none := Option.not_isSome_iff_eq_none.mp (Bool.eq_false_iff.mp h)
  have hfirst : (loftPieces (dramOff a) (min n (2 ^ 33 - dramOff a))).findSome? (fun p => (d.loft l).badIn p.1 p.2) = none := by
    cases hbad : (loftPieces (dramOff a) (min n (2 ^ 33 - dramOff a))).findSome? fun p => (d.loft l).badIn p.1 p.2 with
    | none => rfl
    | some o =>
      refine absurd hnone ?_
      unfold Dev.badAt
      dsimp only
      rw [hl]
      dsimp only
      rw [hbad]
      exact Option.some_ne_none _
  have hpiece := List.findSome?_eq_none_iff.mp hfirst _ hmem
  refine Loft.badOf_one_of_nil hk (List.head?_eq_none_iff.mp ?_)
  exact Option.map_eq_none_iff.mp hpiece

theorem exec_copyOutTransfer (i : Fin 16) (m : ModId) (ecc : DramEcc) (s : State) :
    exec (.copyOutTransfer i m ecc) s = onEvent s (outEnabled i m) (outEffect i m ecc) := rfl

theorem Dev.modCopy_congr {d : Dev} {i : Fin 16} {f g : Copy → Copy} (h : f d.copies[i] = g d.copies[i]) : d.modCopy i f = d.modCopy i g :=
  congrArg (fun v => { d with copies := v }) (vmod_congr d.copies i h)

theorem Dev.flush_copies (d : Dev) (m : ModId) : (d.flush m).copies = d.copies := by
  unfold Dev.flush
  dsimp only
  split <;> rfl

theorem Dev.say_copies (d : Dev) (m : ModId) (q : HostMsg) : (d.say m q).copies = d.copies := Dev.flush_copies ..

theorem Dev.carryCopy_copies (d : Dev) (m : ModId) (pad : PadId) (a n : Nat) : (d.carryCopy m true pad a n).copies = d.copies := by
  unfold Dev.carryCopy
  extract_lets k part
  have hpart (d : Dev) (l off n : Nat) : (part d l off n).copies = d.copies := by
    unfold part
    split
    · rfl
    · refine foldl_keeps Dev.copies (fun e p => ?_) _ d
      rw [if_pos rfl]
      exact Dev.carry_keeps Dev.copies (fun _ _ => rfl) ..
  exact (hpart ..).trans (hpart ..)

/-- What the next piece of an OUT copy makes of the copy: its unit is that of copy `c` on device `d`, and `sent` the slots sent on
module `m` so far (R432, R472). -/
def Copy.sentOut (x c : Copy) (d : Dev) (m : ModId) (n sent : Nat) : Copy :=
  { x with
    unitBuf := if c.session.isSome then d.outUnit c else []
    moved := x.moved + n, ended := x.total ≤ x.moved + n, owed := (m, sent) :: x.owed.filter fun o => o.1 != m }

/-- The device once an OUT copy has sent its next piece, which has crossed the mesh in `e`; `c` gives the copy that counts as sent of
the one that is marked (R432). -/
def Dev.outSent (d e : Dev) (i : Fin 16) (m : ModId) (a : BitVec 64) (n : Nat) (c : Copy → Copy) : Dev :=
  let out (x : Copy) : Dev := e.say m (.memWrite m a (d.outBytes x n))
  ((out d.copies[i]).modCopy i fun x => x.sentOut (c x) d m n ((out (c x)).module m).sentP).settleCopies

/-- Messages leave the copies as they are, so that it is the same copy that is sent and that is marked. -/
theorem Dev.outSent_same {d e : Dev} (i : Fin 16) (m : ModId) (a : BitVec 64) (n : Nat) (h : e.copies = d.copies) :
    d.outSent e i m a n (fun _ => d.copies[i]) = d.outSent e i m a n id := by
  have hcopies (q : HostMsg) : (e.say m q).copies[i] = d.copies[i] :=
    congrArg (fun v : Vector Copy 16 => v[i]) ((e.say_copies m q).trans h)
  unfold Dev.outSent
  refine congrArg Dev.settleCopies (Dev.modCopy_congr ?_)
  dsimp only
  rw [hcopies]
  rfl

section
variable {d : Dev} {i : Fin 16} {m : ModId} {a : BitVec 64} {n : Nat} {fz : Fuse} (hout : (d.copies[i]).nextOut = some (a, n))
include hout

theorem outEffect_buffered (hr : (d.copies[i]).reads = false) : outEffect i m .clean fz d = d.outSent d i m a n (fun _ => d.copies[i]) := by
  unfold outEffect
  dsimp only
  rw [hout]
  dsimp only
  rw [hr]
  cases finOf 48 (dramLoft ((d.copies[i]).outRange n).1) <;> rfl

theorem outEffect_read (hr : (d.copies[i]).reads = true) (hlen : 0 < ((d.copies[i]).outRange n).2)
    (hgood : d.badLinear ((d.copies[i]).outRange n).1 ((d.copies[i]).outRange n).2 = false) : outEffect i m .clean fz d =
      d.outSent (d.carryCopy m true (d.copies[i]).paddock ((d.copies[i]).outRange n).1 ((d.copies[i]).outRange n).2) i m a n
        (fun _ => d.copies[i]) := by
  have hclean (l : SiteId) (hl : finOf 48 (dramLoft ((d.copies[i]).outRange n).1) = some l) :
      d.dramCode l (dramOff ((d.copies[i]).outRange n).1) .clean = d :=
    Dev.dramCode_clean (Dev.badOf_of_badLinear hgood hlen hl)
  unfold outEffect
  dsimp only
  rw [hout]
  dsimp only
  rw [hr]
  cases hl : finOf 48 (dramLoft ((d.copies[i]).outRange n).1) with
  | none =>
    dsimp only
    rw [hgood]
    rfl
  | some l =>
    simp only [if_true, hclean l hl, hgood, Bool.and_false, Bool.false_eq_true, if_false]
    rfl

end

theorem hdrKnown_of {h : HostHdr} {t : Byte} (ht : h.mtype = t) (hmem : [0x01#8, 0x02#8, 0x03#8, 0x0F#8].contains t = true) :
    hdrKnown h = true := by rwa [hdrKnown, ht]

/-- Settles O25: a message is received once, by the order of its checks; copies by what takes or sends their bytes. -/
theorem hostMessagesAndCopies : Obligations.HostMessagesAndCopies := by
  unfold Obligations.HostMessagesAndCopies
  refine ⟨fun m h data s hrec => ?_, fun m h data i a n s => ?_⟩
  · intro d x got slots badW
    refine ⟨fun hk h0 => ⟨?_, ?_, ?_, ?_⟩, fun ht => ?_, fun ht => ?_, fun ht => ?_⟩
    · exact exec_event (exec_winRead m h s) (takes_other 0x01 hrec hk h0) (Dev.byType_other hk)
    · exact exec_event (exec_winWrite m h data s) (takes_other 0x02 hrec hk h0) (Dev.byType_other hk)
    · exact exec_event (exec_copyWrite m h data s) (takes_other 0x03 hrec hk h0) (Dev.byType_other hk)
    · exact exec_event (exec_credit m h s) (takes_other 0x0F hrec hk h0) (Dev.byType_other hk)
    · have hk := hdrKnown_of ht (by decide)
      have hreads {e : Dev} (he : winReadEffect m h s.fuse d = e) : exec (.winRead m h) s = .next (s.put e) :=
        exec_event (exec_winRead m h s) (takes_own hrec ht) he
      refine ⟨fun hb => hreads ?_, fun hb hy => hreads ?_, fun hb hy => hreads ?_⟩
      · exact (Dev.byType_known hk).trans (Dev.receive_bad hb)
      · exact (Dev.byType_known hk).trans (Dev.receive_beyond hb (Module.beyond_request.trans (decide_eq_true hy)))
      · exact (Dev.byType_known hk).trans (Dev.receive_performed hb (Module.beyond_request.trans (decide_eq_false (Nat.not_lt.mpr hy))) rfl)
    · have hk := hdrKnown_of ht (by decide)
      have hwrites {e : Dev} (he : winWriteEffect m h data s.fuse d = e) : exec (.winWrite m h data) s = .next (s.put e) :=
        exec_event (exec_winWrite m h data s) (takes_own hrec ht) he
      refine ⟨fun hb => hwrites ?_, fun hb hy => hwrites ?_, fun hb hy => hwrites ?_⟩
      · exact (Dev.byType_known hk).trans (Dev.receive_bad hb)
      · exact (Dev.byType_known hk).trans (Dev.receive_beyond hb ((Module.beyond_slots _).trans (decide_eq_true hy)))
      · exact (Dev.byType_known hk).trans (Dev.receive_performed hb ((Module.beyond_slots _).trans (decide_eq_false (Nat.not_lt.mpr hy))) rfl)
    · have hk := hdrKnown_of ht (by decide)
      have hcopies {e : Dev} (he : copyWriteEffect m h data s.fuse d = e) : exec (.copyWrite m h data) s = .next (s.put e) :=
        exec_event (exec_copyWrite m h data s) (takes_own hrec ht) he
      refine ⟨fun hb => hcopies ?_, fun hb hy => hcopies ?_, fun hb hy hc => hcopies ?_⟩
      · exact (Dev.byType_known hk).trans (Dev.receive_bad hb)
      · exact (Dev.byType_known hk).trans (Dev.receive_beyond hb ((Module.beyond_slots _).trans (decide_eq_true hy)))
      · exact (Dev.byType_known hk).trans (Dev.receive_refused hb ((Module.beyond_slots _).trans (decide_eq_false (Nat.not_lt.mpr hy)))
          (copyTake_none ((Dev.receipted_copyOf ..).trans hc)))
  · intro d x slots got c counted
    refine ⟨fun hrec ht hb hy hc => ?_, fun hen hout hlen => ?_, fun hrec ht hb => ?_, fun hrec ht hb => ?_⟩
    · have hk := hdrKnown_of ht (by decide)
      have hc' : (d.receipted m slots 0).copyOf h.handle.toNat = some i := (Dev.receipted_copyOf ..).trans hc
      have htaken {e : Dev} (he : copyTake m h data (d.receipted m slots 0) = (e, true)) : exec (.copyWrite m h data) s = .next (s.put e) :=
        exec_event (exec_copyWrite m h data s) (takes_own hrec ht) ((Dev.byType_known hk).trans
          (Dev.receive_performed hb ((Module.beyond_slots _).trans (decide_eq_false (Nat.not_lt.mpr hy))) he))
      exact ⟨fun e hkind he => htaken (copyTake_copyIn hc' hkind he), fun e hkind he => htaken (copyTake_streamIn hc' hkind he)⟩
    · intro r sends
      have hsends {e : Dev} (he : outEffect i m .clean s.fuse s.dev = d.outSent e i m a n id) : sends d e :=
        exec_event (exec_copyOutTransfer i m .clean s) hen he
      refine ⟨fun hr hgood => hsends ?_, fun hr => hsends ?_⟩
      · exact (outEffect_read hout hr hlen hgood).trans (Dev.outSent_same i m a n (Dev.carryCopy_copies ..))
      · exact (outEffect_buffered hout hr).trans (Dev.outSent_same i m a n rfl)
    · have hk := hdrKnown_of ht (by decide)
      exact exec_event (exec_credit m h s) (takes_own hrec ht) ((Dev.byType_known hk).trans (if_neg (Bool.eq_false_iff.mp hb)))
    · have hk := hdrKnown_of ht (by decide)
      exact exec_event (exec_credit m h s) (takes_own hrec ht) ((Dev.byType_known hk).trans (if_pos hb))

/-! ### Event rings (R410, R413) -/

theorem exec_eventRingWrite (n : MbId) (s : State) : exec (.eventRingWrite n) s = onEvent s (ringEnabled n) (ringEffect n) := rfl

theorem exec_eventVector (n : MbId) (s : State) : exec (.eventVector n) s =
    onEvent s (fun d => windowUp d && d.rings[n].vectorDue && d.rings[n].vectorFree d.now) fun _ d => d.vector n := rfl

theorem Dev.vector_sent {d : Dev} {n : MbId} (hcfg : (d.mb n).cfg.getLsbD 1 = true) (hfree : d.rings[n].vectorFree d.now = true) :
    d.vector n = ({ d with rings := vmod d.rings n fun r => { r with lastVector := some d.now, vectorDue := false } }.carry prYard
      (prOfModule d.windowMod) 0 false none 0).sayWindow (.doorbell d.windowMod (32 + n.val)) :=
  (if_neg (by simp [hcfg])).trans (if_pos hfree)

/-! ### Modules (R394 to R396, R399) -/

theorem exec_ucieTraining (m : ModId) (x32 ok : Bool) (s : State) : exec (.ucieTraining m x32 ok) s =
    onEvent s (fun d => d.running && !(d.module m).trained && !(d.module m).stayDown) (trainingEffect m x32 ok) := rfl

theorem exec_ucieLaneRepair (m : ModId) (repaired x32 : Bool) (s : State) : exec (.ucieLaneRepair m repaired x32) s =
    onEvent s (receives m) fun _ d =>
      if repaired then (d.modModule m fun x => { x with width := if x32 then 1 else x.width }).health
      else (d.moduleDown m fun x => { x with fails := 0 }).health := rfl

/-- Settles O26: each event is enabled by its own condition, and its effect is the statement's. -/
theorem ringsAndModules : Obligations.RingsAndModules := by
  unfold Obligations.RingsAndModules
  refine ⟨fun n s => ?_, fun m x32 s => ?_⟩
  · intro d r b w
    refine ⟨fun hen => exec_event (exec_eventRingWrite n s) hen rfl, fun hup hdue hfree hcfg => ?_⟩
    have hen : (windowUp d && d.rings[n].vectorDue && d.rings[n].vectorFree d.now) = true := by
      rw [hup, show d.rings[n].vectorDue = true from hdue, show d.rings[n].vectorFree d.now = true from hfree]
      rfl
    exact exec_event (exec_eventVector n s) hen (Dev.vector_sent hcfg hfree)
  · intro d x trains
    have htrains {ok : Bool} {e : Dev} (h : trains) (he : trainingEffect m x32 ok s.fuse d = e) :
        exec (.ucieTraining m x32 ok) s = .next (s.put e) := by
      obtain ⟨hrun, hdown, hstay⟩ := h
      refine exec_event (exec_ucieTraining m x32 ok s) ?_ he
      rw [show s.dev.running = true from hrun, show (s.dev.module m).trained = false from hdown,
        show (s.dev.module m).stayDown = false from hstay]
      rfl
    refine ⟨fun h => htrains h rfl, fun h hf => htrains h ?_, fun h hf => htrains h ?_, fun hrec => ⟨?_, ?_⟩⟩
    · exact (if_neg Bool.false_ne_true).trans (if_neg (Nat.not_le.mpr hf))
    · exact (if_neg Bool.false_ne_true).trans (if_pos hf)
    · exact exec_event (exec_ucieLaneRepair m true x32 s) hrec rfl
    · exact exec_event (exec_ucieLaneRepair m false x32 s) hrec rfl

end Sys2Proof.Machine
end

section
/-!
PROOFS. Packets of the fabric at a device: taking one, the responses that come back to a tile, and the remote engine (R366 to R382).
-/
namespace Sys2Proof.Machine

/-! ### Packets on the die -/

section
variable (d : Dev)

@[simp] theorem Dev.carryPkt_offLinks (a b : MeshEnd) (pad : Option PadId) (p : FabPkt) : (d.carryPkt a b pad p).offLinks = d.offLinks :=
  Dev.carry_offLinks ..

@[simp] theorem Dev.takePkt_offLinks (n : LinkId) (p : FabPkt) : (d.takePkt n p).offLinks = d.offLinks := by
  unfold Dev.takePkt
  split
  · rfl
  · dsimp only
    split
    · exact Dev.carryPkt_offLinks ..
    · rfl

/-- The device once a packet that stands at it has crossed the mesh to a tile (R328, R369). -/
def Dev.delivered (n : LinkId) (p : FabPkt) (st : SiteId) : Dev :=
  match d.pktFrom n p with
  | some e => (d.takePkt n p).carryPkt e (.tile st) ((d.takePkt n p).padOf st) p
  | none => d.takePkt n p

theorem Dev.delivered_offLinks (n : LinkId) (p : FabPkt) (st : SiteId) : (d.delivered n p st).offLinks = d.offLinks := by
  unfold Dev.delivered
  split
  · exact (Dev.carryPkt_offLinks ..).trans (Dev.takePkt_offLinks ..)
  · exact Dev.takePkt_offLinks ..

end

theorem Dev.hasTile_of_offLinks {d d' : Dev} (h : d'.offLinks = d.offLinks) (s : SiteId) : d'.hasTile s = d.hasTile s :=
  Dev.same_of_offLinks h (fun e => e.hasTile s) fun _ => rfl

theorem Dev.now_of_offLinks {d d' : Dev} (h : d'.offLinks = d.offLinks) : d'.now = d.now :=
  Dev.same_of_offLinks h Dev.now fun _ => rfl

/-! ### Responses (R369, R380, R382) -/

theorem exec_fabLoadRsp (n : LinkId) (p : FabPkt) (s : State) :
    exec (.fabLoadRsp n p) s = onEvent s (responseEnabled n 0x11 p) fun _ => responseEffect n p := rfl

theorem exec_fabAck (n : LinkId) (p : FabPkt) (s : State) :
    exec (.fabAck n p) s = onEvent s (responseEnabled n 0x12 p) fun _ => responseEffect n p := rfl

theorem exec_fabAtomicRsp (n : LinkId) (p : FabPkt) (s : State) :
    exec (.fabAtomicRsp n p) s = onEvent s (responseEnabled n 0x13 p) fun _ => responseEffect n p := rfl

section
variable {n : LinkId} {p : FabPkt} {d : Dev}

theorem responseEffect_malformed (h : pktWellFormed p = false) : responseEffect n p d = (d.takePkt n p).dropMalformed p := by
  unfold responseEffect
  dsimp only
  rw [h]
  cases finOf 48 (tagSite p.tag) <;> cases d.pktFrom n p <;> rfl

/-- A good response for a remote engine is delivered to its tile. -/
theorem responseEffect_delivers {st : SiteId} {tag : Fin 128} (h : pktWellFormed p = true) (hst : finOf 48 (tagSite p.tag) = some st)
    (hkind : tagKind p.tag = 0) (htile : (d.takePkt n p).hasTile st = true) (htag : finOf 128 (tagIdx p.tag) = some tag) :
    responseEffect n p d = (d.delivered n p st).rmResponse st tag p := by
  unfold responseEffect Dev.delivered
  dsimp only
  rw [hst, hkind, h, htag]
  cases d.pktFrom n p with
  | none => exact if_pos htile
  | some e => exact if_pos ((Dev.hasTile_of_offLinks (Dev.carryPkt_offLinks ..) st).trans htile)

end

/-- The tile's remote engine without its use of a tag. -/
def Dev.freeTag (d : Dev) (s : SiteId) (tag : Fin 128) : Dev :=
  d.modTile s fun t => { t with rm := { t.rm with tags := vmod t.rm.tags tag fun g => { g with held := none } } }

/-- The occurrence that a response is for the sampler (R517). -/
def Dev.sampleAnswer (d : Dev) (s : SiteId) (u : RmUse) : Dev :=
  d.sample s { kind := 3, addr := (rdRowAddr u.issued.desc u.row).toNat, latency := d.now - u.sentAt, step := rdStepId u.issued.desc,
               unit := 31, ctx := u.issued.ctx.val }

theorem Dev.sampleAnswer_only (d : Dev) (s : SiteId) (u : RmUse) : ∃ p, d.sampleAnswer s u = d.modTile s fun t => { t with pmc := p } :=
  d.sample_only s _

/-- What a response brings: the bytes of a row, or the old value of an atomic. -/
def rmData (u : RmUse) (p : FabPkt) : Bytes :=
  if rdOp u.issued.desc == 0 then p.payload.take (rdRowBytes u.issued.desc)
  else if rdOp u.issued.desc == 3 then p.operand.take 8 else []

/-- The remote engine takes the data of a response (R381). -/
def Remote.take (r : Remote) (u : RmUse) (data : Bytes) : Remote :=
  let r := r.answer u.issued
  if data.isEmpty then r else { r with
    inBuf := r.inBuf ++ [{ addr := (rdSp u.issued.desc u.row).toNat, bytes := data, msu := rdMsu u.issued.desc, ctx := u.issued.ctx,
                           step := rdStepId u.issued.desc }] }

theorem Remote.take_tags (r : Remote) (u : RmUse) (data : Bytes) : (r.take u data).tags = r.tags := by
  have hanswer : (r.answer u.issued).tags = r.tags := by
    unfold Remote.answer
    split <;> rfl
  unfold Remote.take
  dsimp only
  split <;> exact hanswer

section
variable {d : Dev} {s : SiteId} {tag : Fin 128} {p : FabPkt}

theorem Dev.rmResponse_free (h : ((d.tile s).rm.tags[tag]).held = none) : d.rmResponse s tag p = d.rmStale s := by
  unfold Dev.rmResponse
  dsimp only
  rw [h]

variable {u : RmUse} (h : ((d.tile s).rm.tags[tag]).held = some u)
include h

theorem Dev.rmResponse_other (ho : ((d.tile s).rm.tags[tag]).seq ≠ p.seq ∨ u.brand ≠ p.brand) : d.rmResponse s tag p = d.rmStale s := by
  unfold Dev.rmResponse
  dsimp only
  rw [h]
  exact if_pos (by simpa using ho)

variable (hseq : ((d.tile s).rm.tags[tag]).seq = p.seq) (hbrand : u.brand = p.brand)
include hseq hbrand

omit h in
theorem Dev.rmResponse_matches : ¬ (((d.tile s).rm.tags[tag]).seq != p.seq || u.brand != p.brand) = true := by
  rw [hseq, hbrand]
  simp

theorem Dev.rmResponse_fault (hstatus : p.status ≠ 0#8) : d.rmResponse s tag p =
    ((d.freeTag s tag).sampleAnswer s u).rmFault s u.issued (if p.status = 3#8 then 0xE001 else 0x6011)
      (rdRowAddr u.issued.desc u.row).toNat p.status.toNat := by
  unfold Dev.rmResponse
  dsimp only
  rw [h]
  dsimp only
  rw [if_neg (Dev.rmResponse_matches hseq hbrand), if_pos (bne_iff_ne.mpr hstatus)]
  simp only [beq_iff_eq]
  rfl

theorem Dev.rmResponse_taken (hstatus : p.status = 0#8) : d.rmResponse s tag p =
    (((d.freeTag s tag).sampleAnswer s u).countFixed s 7 p.len.toNat).modTile s fun t =>
      { t with rm := t.rm.take u (rmData u p) } := by
  unfold Dev.rmResponse
  dsimp only
  rw [h]
  dsimp only
  rw [if_neg (Dev.rmResponse_matches hseq hbrand), if_neg (by simp [hstatus])]
  rfl

end

/-- A response that is taken frees its tag, and leaves scratchpad and lofts. -/
theorem Dev.taken_frame (d : Dev) (s : SiteId) (tag : Fin 128) (u : RmUse) (n : Nat) (data : Bytes) :
    let e := (((d.freeTag s tag).sampleAnswer s u).countFixed s 7 n).modTile s fun t => { t with rm := t.rm.take u data }
    ((e.tile s).rm.tags[tag]).held = none ∧ ((e.tile s).rm.tags[tag]).seq = ((d.tile s).rm.tags[tag]).seq ∧
      (e.tile s).spad = (d.tile s).spad ∧ e.lofts = d.lofts := by
  intro e
  obtain ⟨pmc, hsample⟩ := (d.freeTag s tag).sampleAnswer_only s u
  obtain ⟨pmc', hcount⟩ := ((d.freeTag s tag).sampleAnswer s u).countFixed_tile s 7 n
  have htags : (e.tile s).rm.tags = vmod (d.tile s).rm.tags tag fun g => { g with held := none } := by
    unfold e
    rw [Dev.modTile_tile, hcount, Dev.modTile_tile, hsample, Dev.modTile_tile, Dev.freeTag, Dev.modTile_tile]
    exact Remote.take_tags ..
  have hspad : (e.tile s).spad = (d.tile s).spad := by
    unfold e
    rw [Dev.modTile_tile, hcount, Dev.modTile_tile, hsample, Dev.modTile_tile, Dev.freeTag, Dev.modTile_tile]
  have hlofts : e.lofts = d.lofts := by
    unfold e
    rw [hcount, hsample]
    rfl
  refine ⟨?_, ?_, hspad, hlofts⟩
  · rw [htags, vmod_same]
  · rw [htags, vmod_same]

theorem Dev.rmStale_eq {d e : Dev} (s : SiteId) (h : d.now = e.now) :
    d.rmStale s = d.modTile s fun t => { t with rm := { t.rm with stale := t.rm.stale.inc e.now } } := h ▸ rfl

/-- Settles O39: the three types have one effect, which the tag of the response, and its SEQ and BRAND, decide. -/
theorem responsesMatchedByTag : Obligations.ResponsesMatchedByTag := by
  unfold Obligations.ResponsesMatchedByTag
  intro n p st tag s d t answers
  have hanswers {i : Instr} {typ : Nat} (hi : exec i s = onEvent s (responseEnabled n typ p) fun _ => responseEffect n p) :
      answers i typ := by
    intro hen
    have hexec {e : Dev} (he : responseEffect n p d = e) : exec i s = .next (s.put e) := exec_event hi hen he
    refine ⟨fun hbad => hexec (responseEffect_malformed hbad), fun hok hst hkind htile htag => ?_⟩
    intro v g
    have heffect : responseEffect n p d = v.rmResponse st tag p := responseEffect_delivers hok hst hkind htile htag
    have hoff : v.offLinks = d.offLinks := d.delivered_offLinks n p st
    have hnow : v.now = d.now := Dev.now_of_offLinks hoff
    have htiles : v.tiles = d.tiles := Dev.same_of_offLinks hoff Dev.tiles fun _ => rfl
    have hlofts : v.lofts = d.lofts := Dev.same_of_offLinks hoff Dev.lofts fun _ => rfl
    clear_value v
    refine ⟨fun hfree => hexec (heffect.trans ((Dev.rmResponse_free hfree).trans (Dev.rmStale_eq st hnow))),
      fun u hu ho => hexec (heffect.trans ((Dev.rmResponse_other hu ho).trans (Dev.rmStale_eq st hnow))),
      fun u hu hseq hbrand hstatus => hexec (heffect.trans ((Dev.rmResponse_fault hu hseq hbrand hstatus).trans ?_)),
      fun u hu hseq hbrand hstatus => ?_⟩
    · unfold Dev.sampleAnswer Dev.freeTag
      rw [show (v.modTile st _).now = d.now from hnow]
    · obtain ⟨hheld, hkept, hspad, hsame⟩ := v.taken_frame st tag u p.len.toNat (rmData u p)
      refine ⟨_, hexec (heffect.trans (Dev.rmResponse_taken hu hseq hbrand hstatus)), hheld, hkept.trans hseq, hspad.trans ?_,
        hsame.trans hlofts⟩
      exact congrArg (fun w : Vector Tile 48 => (w[st]).spad) htiles
  exact ⟨hanswers (exec_fabLoadRsp n p s), hanswers (exec_fabAck n p s), hanswers (exec_fabAtomicRsp n p s)⟩

/-! ### The remote engine (R377 to R382) -/

theorem exec_remoteRequestSend (st : SiteId) (s : State) :
    exec (.remoteRequestSend st) s = onEvent s (sendRmEnabled st) fun _ => sendRmEffect st := rfl

theorem exec_remoteDescriptorComplete (st : SiteId) (s : State) :
    exec (.remoteDescriptorComplete st) s = onEvent s (rmCompleteEnabled st) fun _ => rmCompleteEffect st := rfl

theorem exec_remoteTimeout (st : SiteId) (tag : Fin 128) (s : State) :
    exec (.remoteTimeout st tag) s = onEvent s (timeoutEnabled st tag) fun _ => timeoutEffect st tag := rfl

section
variable {d : Dev} {st : SiteId} {i : Issued} (hrun : (d.tile st).rm.running = some i)
include hrun

theorem sendRmEffect_bad (hbad : rdRowOk i.desc (d.tile st).rm.row = false) : sendRmEffect st d =
    d.rmFault st i 0x6013 (unsignedOf 64 (rdRowAddr i.desc (d.tile st).rm.row)) 0 := by
  unfold sendRmEffect
  dsimp only
  rw [hrun]
  exact if_pos (by rw [hbad]; rfl)

theorem sendRmEffect_sends {tag : Fin 128} (hok : rdRowOk i.desc (d.tile st).rm.row = true)
    (htag : (d.tile st).rm.freeTag = some tag) : sendRmEffect st d =
      let r := (d.tile st).rm
      let x := i.desc
      let data := if rdOp x = 1 ∨ rdOp x = 2 then r.outBuf.take (rdRowBytes x) else []
      let a := (rdRowAddr x r.row).toNat
      ((d.modTile st fun t => { t with rm := t.rm.sent tag i d.now (d.timer st) d.injEpoch (d.tileBrand st) }).countFixed st 7
        (ceilDiv data.length 64)).inject (some (.tile st))
          (reqPkt (a / 2 ^ 39 % 2 ^ 14) (a / 2 ^ 53) (a % 2 ^ 39) (rdType x) (rdRowBytes x) (d.tileBrand st)
            (tagOf tag.val st.val 0) ((r.tags[tag]).seq + 1) (rdPrio x)
            (if rdOp x = 3 then leBytes 8 (fld x 384 64) ++ leBytes 8 (fld x 448 64) ++ leBytes 1 (rdAop x) else []) data) := by
  unfold sendRmEffect
  dsimp only
  rw [hrun, htag]
  refine (if_neg (by rw [hok]; decide)).trans ?_
  simp only [Bool.or_eq_true, beq_iff_eq]

end

/-- A row is held back while a request of its stream with the old epoch is unanswered (R377). -/
theorem Remote.canSend_held {r : Remote} {i : Issued} {now : Nat} {epoch : BitVec 1} (hrun : r.running = some i)
    (hok : rdRowOk i.desc r.row = true) (hheld : r.holds (rdMsu i.desc) (BitVec.ofNat 14 (rdFaddr i.desc / 2 ^ 39)) epoch = true) :
    r.canSend now epoch = false := by
  have hx : r.x = i.desc := by rw [Remote.x, hrun]
  unfold Remote.canSend
  dsimp only
  rw [hx, hok, hheld]
  simp

theorem Remote.passOn_done (r : Remote) (now : Nat) : (r.passOn now).done = r.done := by
  unfold Remote.passOn
  dsimp only
  split <;> rfl

/-- The remote engine once a descriptor has completed (R378, R381). -/
def Remote.complete (r : Remote) (i : Issued) (run : Bool) (now : Nat) : Remote :=
  let r := { r with done := r.done.push now (rmRecord i.desc) }
  if run then r.passOn now else { r with tail := eraseFirst (fun q => q.1 == i) r.tail }

theorem Remote.complete_done (r : Remote) (i : Issued) (run : Bool) (now : Nat) :
    (r.complete i run now).done = r.done.push now (rmRecord i.desc) := by
  cases run
  · rfl
  · exact Remote.passOn_done ..

theorem rmCompleteEffect_silent {d : Dev} {st : SiteId} {i : Issued} {run : Bool} (h : (d.tile st).rm.finished d.now = some (i, run))
    (hbell : rdBellEn i.desc = false) :
    rmCompleteEffect st d = d.modTile st fun t => { t with rm := t.rm.complete i run d.now } := by
  unfold rmCompleteEffect
  rw [h]
  exact if_neg (Bool.eq_false_iff.mp hbell)

/-- Settles O40: the checks of a row decide what a turn of the engine does; completion and timeout change the engine of their tile. -/
theorem remoteEngineSendsAndCompletes : Obligations.RemoteEngineSendsAndCompletes := by
  unfold Obligations.RemoteEngineSendsAndCompletes
  intro st tag i run u s d r x data
  refine ⟨fun hen hrun hbad => ?_, fun hen hrun hok htag => ?_, fun hrun hok hheld => ?_, fun hen hfin hbell => ?_, fun hen hu => ?_⟩
  · exact exec_event (exec_remoteRequestSend st s) hen (sendRmEffect_bad hrun hbad)
  · exact exec_event (exec_remoteRequestSend st s) hen (sendRmEffect_sends hrun hok htag)
  · refine exec_event_idle (exec_remoteRequestSend st s) ?_
    have hcan : (s.dev.tile st).rm.canSend s.dev.now s.dev.injEpoch = false := Remote.canSend_held hrun hok hheld
    rw [sendRmEnabled, hcan, Bool.and_false]
  · refine ⟨_, exec_event (exec_remoteDescriptorComplete st s) hen (rmCompleteEffect_silent hfin hbell), d.modTile_onlyTile st _, ?_,
      fun hrun => ?_⟩
    · rw [Dev.modTile_tile]
      exact Remote.complete_done ..
    · rw [Dev.modTile_tile, hrun]
      rfl
  · refine exec_event (exec_remoteTimeout st tag s) hen ?_
    unfold timeoutEffect
    rw [hu]

end Sys2Proof.Machine
end

section
/-!
PROOFS. Fabric management: the fields of FAB_DEV_CFG, forwarding with HOPS counted, route writes, epochs and the election (R356 to R376,
R389, R390).
-/
namespace Sys2Proof.Machine

/-! ### FAB_DEV_CFG (R392) -/

/-- A write of a field changes the bits of the field and no other. -/
theorem testBit_setFld (x lo len v i : Nat) :
    (setFld x lo len v).testBit i = if lo ≤ i ∧ i < lo + len then v.testBit (i - lo) else x.testBit i := by
  have hsplit : x = 2 ^ lo * (2 ^ len * (x / 2 ^ lo / 2 ^ len) + x / 2 ^ lo % 2 ^ len) + x % 2 ^ lo := by
    rw [Nat.div_add_mod, Nat.div_add_mod]
  have hset : setFld x lo len v = 2 ^ lo * (2 ^ len * (x / 2 ^ lo / 2 ^ len) + v % 2 ^ len) + x % 2 ^ lo := by
    unfold setFld fld
    generalize x / 2 ^ lo % 2 ^ len = f at hsplit ⊢
    generalize x / 2 ^ lo / 2 ^ len = g at hsplit ⊢
    generalize x % 2 ^ lo = r at hsplit ⊢
    rw [hsplit, Nat.mul_add, Nat.mul_add, Nat.mul_comm (2 ^ lo) f, Nat.mul_comm (2 ^ lo) (v % 2 ^ len)]
    omega
  have hlow : x % 2 ^ lo < 2 ^ lo := Nat.mod_lt _ (Nat.two_pow_pos lo)
  have hmid (y : Nat) : y % 2 ^ len < 2 ^ len := Nat.mod_lt _ (Nat.two_pow_pos len)
  rw [hset, Nat.testBit_two_pow_mul_add _ hlow, Nat.testBit_two_pow_mul_add _ (hmid v)]
  by_cases hi : i < lo
  · rw [if_pos hi, if_neg (by omega), Nat.testBit_mod_two_pow, decide_eq_true hi, Bool.true_and]
  · by_cases hj : i < lo + len
    · rw [if_neg hi, if_pos (by omega), if_pos (by omega), Nat.testBit_mod_two_pow, decide_eq_true (by omega), Bool.true_and]
    · rw [if_neg hi, if_neg (by omega), if_neg (by omega), Nat.testBit_div_two_pow, Nat.testBit_div_two_pow]
      congr 1
      omega

section
variable (d : Dev) (lo len v : Nat)

theorem Dev.setDevCfg_bit {i : Nat} (hi : i < 32) : (d.setDevCfg lo len v).fab.devCfg.getLsbD i =
    if lo ≤ i ∧ i < lo + len then v.testBit (i - lo) else d.fab.devCfg.getLsbD i := by
  have hcfg : (d.setDevCfg lo len v).fab.devCfg = BitVec.ofNat 32 (setFld d.fab.devCfg.toNat lo len v) := rfl
  rw [hcfg, BitVec.getLsbD_ofNat, testBit_setFld, decide_eq_true hi, Bool.true_and]
  rfl

theorem Dev.number_bit (i : Nat) : d.number.getLsbD i = (decide (i < 14) && d.fab.devCfg.getLsbD (4 + i)) := by
  unfold Dev.number bvFld fld
  rw [BitVec.getLsbD_ofNat, Nat.testBit_mod_two_pow, Nat.testBit_div_two_pow, BitVec.getLsbD]
  cases decide (i < 14)
  · rfl
  · rw [Nat.add_comm]
    rfl

theorem Dev.injEpoch_bit : d.injEpoch = BitVec.ofBool (d.fab.devCfg.getLsbD 19) := by
  refine BitVec.eq_of_getLsbD_eq fun i hi => ?_
  obtain rfl : i = 0 := by omega
  unfold Dev.injEpoch bvFld fld
  rw [BitVec.getLsbD_ofNat, Nat.testBit_mod_two_pow, Nat.testBit_div_two_pow]
  unfold BitVec.getLsbD
  cases d.fab.devCfg.toNat.testBit 19 <;> simp

end

theorem ofBool_testBit_zero : ∀ e : BitVec 1, BitVec.ofBool (e.toNat.testBit 0) = e := by decide

/-- Field EPOCH holds the epoch that injects. -/
theorem Dev.setEpoch_injEpoch (d : Dev) (e : BitVec 1) : (d.setDevCfg 19 1 e.toNat).injEpoch = e := by
  rw [Dev.injEpoch_bit, Dev.setDevCfg_bit _ _ _ _ (by norm_num), if_pos ⟨le_rfl, by norm_num⟩, Nat.sub_self]
  exact ofBool_testBit_zero e

/-- The number stays where a field beside it is written. -/
theorem Dev.setDevCfg_number (d : Dev) {lo len v : Nat} (h : lo + len ≤ 4 ∨ 18 ≤ lo) : (d.setDevCfg lo len v).number = d.number := by
  refine BitVec.eq_of_getLsbD_eq fun i hi => ?_
  rw [Dev.number_bit, Dev.number_bit, Dev.setDevCfg_bit _ _ _ _ (by omega), if_neg (by omega)]

/-- The device that has noted when it left a version (R376). -/
def Dev.leaves (d : Dev) (l : Vector Nat 2) : Dev := { d with fab := { d.fab with leftAt := l } }

theorem Dev.leaves_number (d : Dev) (l : Vector Nat 2) : (d.leaves l).number = d.number := rfl

theorem Dev.setDevCfg_routes (d : Dev) (lo len v : Nat) :
    (d.setDevCfg lo len v).fab.routes0 = d.fab.routes0 ∧ (d.setDevCfg lo len v).fab.routes1 = d.fab.routes1 := ⟨rfl, rfl⟩

theorem Dev.flipTo_eq (d : Dev) (e : BitVec 1) : d.flipTo e = if e == d.injEpoch then d else
    (d.leaves (vsetN d.fab.leftAt d.injEpoch.toNat d.now)).setDevCfg 19 1 e.toNat := rfl

/-- The epoch that injects after a flip; number and routes stay (R376). -/
theorem Dev.flipTo_frame (d : Dev) (e : BitVec 1) : (d.flipTo e).injEpoch = e ∧ (d.flipTo e).number = d.number ∧
    (d.flipTo e).fab.routes0 = d.fab.routes0 ∧ (d.flipTo e).fab.routes1 = d.fab.routes1 := by
  rw [Dev.flipTo_eq]
  split
  · next h => exact ⟨(beq_iff_eq.mp h).symm, rfl, rfl, rfl⟩
  · generalize vsetN d.fab.leftAt d.injEpoch.toNat d.now = l
    obtain ⟨hroutes0, hroutes1⟩ := (d.leaves l).setDevCfg_routes 19 1 e.toNat
    exact ⟨(d.leaves l).setEpoch_injEpoch e,
      ((d.leaves l).setDevCfg_number (.inr (by norm_num))).trans (d.leaves_number l), hroutes0, hroutes1⟩

/-! ### What sending and injecting leave -/

section
variable (d : Dev)

/-- What no packet that leaves changes of the fabric: its configuration and routes. -/
def Dev.fabCfg (d : Dev) : BitVec 32 × List (Nat × BitVec 16) × List (Nat × BitVec 16) := (d.fab.devCfg, d.fab.routes0, d.fab.routes1)

/-- Sending a message changes the mesh, and appends it to what leaves. -/
theorem Dev.sendOn_only (n : LinkId) (p : OutPkt) : ∃ r m, d.sendOn n p = { d with
    mesh := m, meshIn := r
    fab := { d.fab with out := d.fab.out ++ [{ link := n, ready := d.now, epoch := d.injEpoch, pkt := p }] } } := by
  obtain ⟨r, m, h⟩ := d.carry_only prYard (prOfLink n) 0 false none p.bytes
  refine ⟨r, m, ?_⟩
  unfold Dev.sendOn
  rw [h]
  rfl

theorem Dev.sendOn_fabCfg (n : LinkId) (p : OutPkt) : (d.sendOn n p).fabCfg = d.fabCfg := by
  obtain ⟨r, m, h⟩ := d.sendOn_only n p
  rw [h]
  rfl

theorem Dev.inject_fabCfg (a : Option MeshEnd) (p : FabPkt) : (d.inject a p).fabCfg = d.fabCfg := by
  unfold Dev.inject
  dsimp only
  split
  · rfl
  · split
    · unfold Dev.fabCfg
      dsimp only
      rw [Dev.carryPkt, Dev.carry_fab]
    · rfl
  · rfl

theorem Dev.ackRoute_fabCfg (p : FabPkt) (status : Nat) : (d.ackRoute p status).fabCfg = d.fabCfg := by
  unfold Dev.ackRoute
  split
  · split
    · exact d.sendOn_fabCfg ..
    · rfl
  · exact d.inject_fabCfg ..

theorem Dev.injEpoch_of_fabCfg {d d' : Dev} (h : d'.fabCfg = d.fabCfg) : d'.injEpoch = d.injEpoch :=
  congrArg (fun c : BitVec 32 × List (Nat × BitVec 16) × List (Nat × BitVec 16) => BitVec.ofNat 1 (bvFld c.1 19 1)) h

theorem Dev.number_of_fabCfg {d d' : Dev} (h : d'.fabCfg = d.fabCfg) : d'.number = d.number :=
  congrArg (fun c : BitVec 32 × List (Nat × BitVec 16) × List (Nat × BitVec 16) => BitVec.ofNat 14 (bvFld c.1 4 14)) h

end

/-! ### Transit and injection (R371, R373, R375) -/

theorem exec_packetSwitch (n : LinkId) (p : FabPkt) (s : State) :
    exec (.packetSwitch n p) s = onEvent s (fun d => d.hasPkt n p) (packetSwitchEffect n p) := rfl

theorem exec_routeWrite (n : LinkId) (sender : BitVec 64) (p : FabPkt) (s : State) : exec (.routeWrite n sender p) s =
    onEvent s (fun d => d.running && (d.link n).state == .up) fun fz d => routeWriteEffect n sender p fz (d.freeFlits n 4) := rfl

theorem exec_epochFlip (n : LinkId) (sender : BitVec 64) (p : FabPkt) (s : State) : exec (.epochFlip n sender p) s =
    onEvent s (fun d => d.running && (d.link n).state == .up) fun fz d => epochFlipEffect n sender p fz (d.freeFlits n 4) := rfl

theorem exec_routeAck (n : LinkId) (sender : BitVec 64) (p : FabPkt) (s : State) : exec (.routeAck n sender p) s =
    onEvent s (fun d => d.running && (d.link n).state == .up && sender != 0#64) fun fz d =>
      routeAckEffect n sender p fz (d.freeFlits n 4) := rfl

section
variable {d : Dev} {n m : LinkId} {p : FabPkt} {dl : Bool} {fz : Fuse}

/-- The packet as it is injected: the epoch is stamped, and HOPS is 0 (R371 to R376). -/
def Dev.injected (d : Dev) (p : FabPkt) (dl : Bool) : FabPkt :=
  { p with src := d.number, epoch := d.injEpoch, dl := BitVec.ofBool dl, hops := 0#6 }

/-- A packet waits at its port (R371). -/
def Dev.waits (d : Dev) (m : LinkId) (q : FabPkt) : Dev :=
  { d with fab := { d.fab with out := d.fab.out ++ [{ link := m, ready := d.now, pkt := .packet q }] } }

section
variable (hhop : d.hop d.injEpoch p.dest p.tag (p.cls == 2#2) = .link m dl)
include hhop

theorem Dev.inject_none : d.inject none p = d.waits m (d.injected p dl) := by
  unfold Dev.inject
  dsimp only
  rw [hhop]
  rfl

theorem Dev.inject_some (a : MeshEnd) : d.inject (some a) p = (d.carryPkt a (prOfLink m) none p).waits m (d.injected p dl) := by
  unfold Dev.inject
  dsimp only
  rw [hhop]
  rfl

end

/-- A packet for another device, on a link that may carry it, is a matter of the switch. -/
theorem packetSwitchEffect_transit (hmine : d.isMine p = false) (hmgmt : p.cls = 2#2 → mgTree p = 0 ∧ d.trusts n p = true) :
    packetSwitchEffect n p fz d = switchEffect n p d := by
  unfold packetSwitchEffect
  dsimp only
  by_cases hcls : p.cls = 2#2
  · obtain ⟨htree, htrust⟩ := hmgmt hcls
    rw [hmine, htree, htrust]
    simp
  · rw [hmine, show (p.cls == 2#2) = false from beq_eq_false_iff_ne.mpr hcls]
    simp

variable (hcls : p.cls ≠ 3#2) (hlen : p.len.toNat ≤ 64)
include hcls hlen

/-- The header fields that the switch checks are good (R370). -/
theorem switch_passes : ¬ (p.cls == 3#2 || decide (64 < p.len.toNat)) = true := by
  simp [hcls, Nat.not_lt.mpr hlen]

theorem switchEffect_nowhere (hhop : d.hop p.epoch p.dest p.tag (p.cls == 2#2) = .nowhere) :
    switchEffect n p d = (d.freeFlits n (pktVc p)).dropRoute p := by
  unfold switchEffect
  dsimp only
  rw [if_neg (switch_passes hcls hlen), hhop]

theorem switchEffect_expired (hhop : d.hop p.epoch p.dest p.tag (p.cls == 2#2) = .link m dl) (hhops : p.hops = 63#6) :
    switchEffect n p d = (d.freeFlits n (pktVc p)).dropTtl p.src.toNat p.dest.toNat := by
  unfold switchEffect
  dsimp only
  rw [if_neg (switch_passes hcls hlen), hhop]
  exact if_pos (beq_iff_eq.mpr hhops)

theorem switchEffect_link (hhop : d.hop p.epoch p.dest p.tag (p.cls == 2#2) = .link m dl) (hhops : p.hops ≠ 63#6) :
    switchEffect n p d = { d.holdFlits n (pktVc p) with fab := { (d.holdFlits n (pktVc p)).fab with
      out := (d.holdFlits n (pktVc p)).fab.out ++ [{
        link := m, input := n.val, inVc := pktVc p, ready := d.now + 32
        pkt := .packet { p with hops := p.hops + 1, dl := p.dl ||| BitVec.ofBool dl } }] } } := by
  unfold switchEffect
  dsimp only
  rw [if_neg (switch_passes hcls hlen), hhop]
  exact if_neg (by simpa using hhops)

end

/-- A tree message that goes on: dropped after its 63rd hop, else sent with HOPS counted (R361, R373). -/
theorem Dev.passTree_some (d : Dev) (m : LinkId) (hops : BitVec 6) (q : BitVec 6 → OutPkt) :
    d.passTree (some m) hops q = if hops = 63#6 then d.dropTtl 0 0 else d.sendOn m (q (hops + 1)) := by
  unfold Dev.passTree
  simp only [beq_iff_eq]

section
variable {d : Dev} {n m : LinkId} {sender : BitVec 64} {p : FabPkt} {fz : Fuse}

theorem Dev.masterSent_down (htree : mgTree p = 2) : d.masterSent n sender p = d.fromMaster n sender :=
  if_pos (beq_iff_eq.mpr htree)

theorem Dev.mgForward_down (htree : mgTree p = 2) (hrec : d.recorded (BitVec.ofNat 64 (mgTarget p)) = some m) :
    d.mgForward p = if p.hops = 63#6 then d.dropTtl 0 0 else d.sendOn m (.packet { p with hops := p.hops + 1 }) := by
  unfold Dev.mgForward
  rw [if_neg (by simp [htree]), hrec]
  exact d.passTree_some m p.hops fun h => .packet { p with hops := h }

theorem Dev.mgMine_down (htree : mgTree p = 2) (htarget : mgTarget p ≠ fz.serial.toNat) : d.mgMine fz.serial p = false :=
  (if_pos (beq_iff_eq.mpr htree)).trans (beq_eq_false_iff_ne.mpr htarget)

section
variable (hsent : d.masterSent n sender p = false)
include hsent

theorem routeWriteEffect_refused : routeWriteEffect n sender p fz d = d.mgmtRefuse [n.val, sender.toNat] := by
  unfold routeWriteEffect
  exact if_pos (by rw [hsent]; rfl)

theorem epochFlipEffect_refused : epochFlipEffect n sender p fz d = d.mgmtRefuse [n.val, sender.toNat] := by
  unfold epochFlipEffect
  exact if_pos (by rw [hsent]; rfl)

end

section
variable (hsent : d.masterSent n sender p = true)
include hsent

theorem routeWriteEffect_forwards (hmine : (d.seeMaster p).mgMine fz.serial p = false) :
    routeWriteEffect n sender p fz d = (d.seeMaster p).mgForward p := by
  unfold routeWriteEffect
  dsimp only
  rw [if_neg (by rw [hsent]; decide), if_pos (by rw [hmine]; rfl)]

theorem epochFlipEffect_forwards (hmine : (d.seeMaster p).mgMine fz.serial p = false) :
    epochFlipEffect n sender p fz d = (d.seeMaster p).mgForward p := by
  unfold epochFlipEffect
  dsimp only
  rw [if_neg (by rw [hsent]; decide), if_pos (by rw [hmine]; rfl)]

variable (hmine : (d.seeMaster p).mgMine fz.serial p = true) (hok : pktWellFormed p = true)
include hmine hok

theorem epochFlipEffect_flips (hcode : mgCode p = 7) : epochFlipEffect n sender p fz d =
    ((d.seeMaster p).flipTo (BitVec.ofNat 1 (mgByte p 4))).ackRoute p 0 := by
  unfold epochFlipEffect
  dsimp only
  rw [if_neg (by rw [hsent]; decide), if_neg (by rw [hmine]; decide), if_neg (by simp [hok, hcode])]

/-- A route write that passes its checks: its entries are written where the version is open (R374, R376, R390). -/
theorem routeWriteEffect_checked (hcode : mgCode p = 5) (heven : p.size.toNat % 2 = 0) (hone : 1 ≤ p.size.toNat / 2)
    (hmax : p.size.toNat / 2 ≤ 2048) (hfits : fieldAt p.operand 6 2 + p.size.toNat / 2 ≤ 16384) : routeWriteEffect n sender p fz d =
      if (d.seeMaster p).routeOpen (BitVec.ofNat 1 (mgByte p 4)) = false then (d.seeMaster p).ackRoute p 1
      else ((d.seeMaster p).writeRoutes (BitVec.ofNat 1 (mgByte p 4)) (fieldAt p.operand 6 2)
        ((List.range (p.size.toNat / 2)).map fun i => BitVec.ofNat 16 (fieldAt p.payload (2 * i) 2))).ackRoute p 0 := by
  have hchecks : ¬ (!pktWellFormed p || mgCode p != 5 || p.size.toNat % 2 != 0 || p.size.toNat / 2 == 0 ||
      decide (2048 < p.size.toNat / 2) || decide (16384 < fieldAt p.operand 6 2 + p.size.toNat / 2)) = true := by
    simp [hok, hcode, heven, Nat.not_lt.mpr hmax, Nat.not_lt.mpr hfits]
    omega
  unfold routeWriteEffect
  dsimp only
  rw [if_neg (by rw [hsent]; decide), if_neg (by rw [hmine]; decide), if_neg hchecks]
  simp only [Bool.not_eq_true']

end

section
variable (htrust : d.trusted n = true) (hok : pktWellFormed p = true) (hcode : mgCode p = 6)
include htrust hok hcode

theorem routeAckEffect_passes (hmaster : d.isMaster = false) (htree : mgTree p = 1) (hparent : d.fab.parent = some m) :
    routeAckEffect n sender p fz d =
      if p.hops = 63#6 then (d.record sender n).dropTtl 0 0 else (d.record sender n).sendOn m (.packet { p with hops := p.hops + 1 }) := by
  unfold routeAckEffect
  rw [if_neg (by rw [htrust]; decide), if_neg (by simp [hok, hcode]), if_neg (by rw [hmaster]; exact Bool.false_ne_true),
    if_pos (beq_iff_eq.mpr htree), hparent]
  exact (d.record sender n).passTree_some m p.hops fun h => .packet { p with hops := h }

theorem routeAckEffect_counts (hmaster : d.isMaster = true) (hmine : mgTree p = 1 ∨ d.isMine p = true) (hrebuild : d.rebuild = none) :
    routeAckEffect n sender p fz d = d.takeRouteAck p := by
  have hkept : (d.takeRouteAck p).rebuild = none := by
    unfold Dev.takeRouteAck
    split <;> exact hrebuild
  unfold routeAckEffect
  rw [if_neg (by rw [htrust]; decide), if_neg (by simp [hok, hcode]), if_pos (by simpa [hmaster] using hmine), Dev.stepRebuild, hkept]

end

end

/-- A link that is UP on a running device, as the events of the links ask for. -/
theorem up_of {d : Dev} {n : LinkId} (hrun : d.running = true) (hup : (d.link n).state = .up) :
    (d.running && (d.link n).state == .up) = true := by rw [hrun, hup]; rfl

/-- Settles O37: what is injected, switched or passed on the tree is one packet more that leaves, or one that is dropped. -/
theorem hopsCountForwarding : Obligations.HopsCountForwarding := by
  unfold Obligations.HopsCountForwarding
  intro n m dl p sender s d freed held
  refine ⟨fun hhop => ?_, fun hhas hmine hmgmt hcls hlen => ?_, fun hrun hup => ?_, fun _ _ _ => rfl⟩
  · intro q sent
    refine ⟨Dev.inject_none hhop, fun a => (Dev.inject_some hhop a).trans ?_⟩
    have hfab : (d.carryPkt a (prOfLink m) none p).fab = d.fab := Dev.carry_fab ..
    have hnow : (d.carryPkt a (prOfLink m) none p).now = d.now := congrArg Clocks.nclk (Dev.carry_clk ..)
    have hwaits (e : Dev) (hfab : e.fab = d.fab) (hnow : e.now = d.now) : e.waits m q = sent e := by
      unfold Dev.waits
      rw [hfab, hnow]
    exact hwaits _ hfab hnow
  · have hswitch {e : Dev} (he : switchEffect n p d = e) : exec (.packetSwitch n p) s = .next (s.put e) :=
      exec_event (exec_packetSwitch n p s) hhas ((packetSwitchEffect_transit hmine hmgmt).trans he)
    exact ⟨fun hhop hhops => hswitch (switchEffect_link hcls hlen hhop hhops),
      fun hhop hhops => hswitch (switchEffect_expired hcls hlen hhop hhops), fun hhop => hswitch (switchEffect_nowhere hcls hlen hhop)⟩
  · intro f on
    refine ⟨fun htree hfrom htarget hrec => ?_, fun htree htrust hok hcode hmaster hsender hparent => ?_⟩
    · have hsent : f.masterSent n sender p = true := (Dev.masterSent_down htree).trans hfrom
      have hmine : (f.seeMaster p).mgMine s.fuse.serial p = false := Dev.mgMine_down htree htarget
      have hrec' : (f.seeMaster p).recorded (BitVec.ofNat 64 (mgTarget p)) = some m := by
        rw [Dev.seeMaster, if_pos (beq_iff_eq.mpr htree)]
        exact hrec
      have hforward : (f.seeMaster p).mgForward p = on (f.seeMaster p) := Dev.mgForward_down htree hrec'
      exact ⟨exec_event (exec_routeWrite n sender p s) (up_of hrun hup) ((routeWriteEffect_forwards hsent hmine).trans hforward),
        exec_event (exec_epochFlip n sender p s) (up_of hrun hup) ((epochFlipEffect_forwards hsent hmine).trans hforward)⟩
    · refine exec_event (exec_routeAck n sender p s) ?_ (routeAckEffect_passes htrust hok hcode hmaster htree hparent)
      rw [up_of hrun hup, Bool.true_and, bne_iff_ne]
      exact hsender

/-- Settles O42: whose message it is, and whether the version is open, decide; acknowledgements leave configuration and routes. -/
theorem routesWrittenByTheMaster : Obligations.RoutesWrittenByTheMaster := by
  unfold Obligations.RoutesWrittenByTheMaster
  intro n sender p s hrun hup f g first count version mine fits
  have hwrite {e : Dev} (he : routeWriteEffect n sender p s.fuse f = e) : exec (.routeWrite n sender p) s = .next (s.put e) :=
    exec_event (exec_routeWrite n sender p s) (up_of hrun hup) he
  have hflip {e : Dev} (he : epochFlipEffect n sender p s.fuse f = e) : exec (.epochFlip n sender p) s = .next (s.put e) :=
    exec_event (exec_epochFlip n sender p s) (up_of hrun hup) he
  refine ⟨fun hsent => ⟨hwrite (routeWriteEffect_refused hsent), hflip (epochFlipEffect_refused hsent)⟩,
    fun ⟨hsent, hmine, hok⟩ hcode ⟨heven, hone, hmax, hfits⟩ hopen => hwrite ?_,
    fun ⟨hsent, hmine, hok⟩ hcode ⟨heven, hone, hmax, hfits⟩ hopen => hwrite ?_,
    fun ⟨hsent, hmine, hok⟩ hcode => ⟨_, hflip (epochFlipEffect_flips hsent hmine hok hcode), ?_⟩,
    fun hsender htrust hok hcode hmaster hmine hrebuild => ?_⟩
  · refine (routeWriteEffect_checked hsent hmine hok hcode heven hone hmax hfits).trans (if_neg ?_)
    rw [hopen]
    decide
  · exact (routeWriteEffect_checked hsent hmine hok hcode heven hone hmax hfits).trans (if_pos hopen)
  · obtain ⟨hepoch, hnumber, hroutes0, hroutes1⟩ := g.flipTo_frame version
    have hcfg : ((g.flipTo version).ackRoute p 0).fabCfg = (g.flipTo version).fabCfg := Dev.ackRoute_fabCfg ..
    have hseen : g.fabCfg = f.fabCfg := by
      unfold g Dev.seeMaster
      split <;> rfl
    exact ⟨(Dev.injEpoch_of_fabCfg hcfg).trans hepoch, (Dev.number_of_fabCfg hcfg).trans (hnumber.trans (Dev.number_of_fabCfg hseen)),
      (congrArg (·.2.1) hcfg).trans (hroutes0.trans (congrArg (·.2.1) hseen)),
      (congrArg (·.2.2) hcfg).trans (hroutes1.trans (congrArg (·.2.2) hseen))⟩
  · have hack {e : Dev} (he : f.takeRouteAck p = e) : exec (.routeAck n sender p) s = .next (s.put e) := by
      refine exec_event (exec_routeAck n sender p s) ?_ ((routeAckEffect_counts htrust hok hcode hmaster hmine hrebuild).trans he)
      rw [up_of hrun hup, Bool.true_and, bne_iff_ne]
      exact hsender
    exact ⟨fun hstatus => hack (if_pos (beq_iff_eq.mpr hstatus)), fun hstatus => hack (if_neg (by simpa using hstatus))⟩

end Sys2Proof.Machine
end

section
/-!
PROOFS. Discovery, the election of the master and the numbers of the devices (R358 to R362).
-/
namespace Sys2Proof.Machine

theorem exec_discover (n : LinkId) (x : Discover) (s : State) : exec (.discover n x) s =
    onEvent s (fun d => d.running && (d.link n).state == .up) fun _ d => discoverEffect n x (d.freeFlits n 4) := rfl

theorem exec_candidate (n : LinkId) (c : BitVec 64) (prio : Nat) (s : State) : exec (.candidate n c prio) s =
    onEvent s (fun d => d.running && (d.link n).state == .up) fun fz d => candidateEffect n c prio fz (d.freeFlits n 4) := rfl

theorem exec_topologyReport (n : LinkId) (hops : BitVec 6) (t : Topology) (s : State) : exec (.topologyReport n hops t) s =
    onEvent s (fun d => d.running && (d.link n).state == .up) fun fz d => topologyEffect n hops t fz (d.freeFlits n 4) := rfl

theorem exec_assign (n : LinkId) (hops : BitVec 6) (sender target : BitVec 64) (number : BitVec 14) (s : State) :
    exec (.assign n hops sender target number) s = onEvent s (fun d => d.running && (d.link n).state == .up) fun fz d =>
      assignEffect n hops sender target number fz (d.freeFlits n 4) := rfl

theorem exec_masterElectionTimeout (s : State) : exec .masterElectionTimeout s = onEvent s electionEnabled electionEffect := rfl

/-! ### Discovery (R358) -/

section
variable {d : Dev} {n : LinkId} {x : Discover}

/-- The device that knows its neighbour on a link. -/
def Dev.meets (d : Dev) (n : LinkId) (x : Discover) : Dev :=
  { d with fab := { d.fab with neighbours := (n, x) :: d.fab.neighbours.filter fun q => q.1 != n } }

/-- The device that has found a neighbour that its hitch map does not name. -/
def Dev.mismatches (d : Dev) (n : LinkId) (x : Discover) : Dev :=
  (({ d with hitchFormed := false, fab := { d.fab with hitchOk := d.fab.hitchOk.filter (· != n) } }.setDevCfg 22 1 0).fabEvent 0x6027
    [n.val, x.serial.toNat]).alert alertFabric

theorem Dev.mismatches_frame (d : Dev) (n : LinkId) (x : Discover) : (d.mismatches n x).hitchFormed = false ∧
    (d.mismatches n x).alerts.getLsbD alertFabric = true ∧ (d.mismatches n x).fab.hitchOk = d.fab.hitchOk.filter (· != n) :=
  ⟨rfl, Dev.alert_getLsbD _ (by decide), rfl⟩

/-- What the device makes of a neighbour that it knows: a hitch link is checked against the map (R358). -/
def Dev.mapCheck (d : Dev) (n : LinkId) (x : Discover) : Dev :=
  match d.hitchLinks.find? fun h => h.1 == n with
  | none => d
  | some h =>
    if d.hitchMatch h.2 x then
      Dev.checkHitch { d with fab := { d.fab with hitchOk := if d.fab.hitchOk.contains n then d.fab.hitchOk else n :: d.fab.hitchOk } }
    else d.mismatches n x

theorem discoverEffect_eq : discoverEffect n x d = (d.meets n x).mapCheck n x := rfl

theorem Dev.mapCheck_unmapped (h : d.hitchLinks.find? (fun h => h.1 == n) = none) : d.mapCheck n x = d := by rw [Dev.mapCheck, h]

theorem Dev.mapCheck_mismatch {h : LinkId × Nat} (hfind : d.hitchLinks.find? (fun h => h.1 == n) = some h)
    (hmatch : d.hitchMatch h.2 x = false) : d.mapCheck n x = d.mismatches n x := by
  rw [Dev.mapCheck, hfind]
  exact if_neg (Bool.eq_false_iff.mp hmatch)

end

/-! ### Candidates (R360) -/

/-- The device with another mesh, and with other packets that leave. -/
def Dev.leaving (d : Dev) (m : List MeshPkt) (r : Vector (Vector Nat 8) 48) (l : List OutEntry) : Dev :=
  { d with mesh := m, meshIn := r, fab := { d.fab with out := l } }

/-- A message that the device sends on a link. -/
def Dev.entry (d : Dev) (p : OutPkt) (n : LinkId) : OutEntry := { link := n, ready := d.now, epoch := d.injEpoch, pkt := p }

section
variable (d : Dev) (m : List MeshPkt) (r : Vector (Vector Nat 8) 48) (l : List OutEntry)

theorem Dev.leaving_leaving (m' : List MeshPkt) (r' : Vector (Vector Nat 8) 48) (l' : List OutEntry) :
    (d.leaving m r l).leaving m' r' l' = d.leaving m' r' l' := rfl

theorem Dev.leaving_out : (d.leaving m r l).fab.out = l := rfl

theorem Dev.sendOn_leaving (n : LinkId) (p : OutPkt) : ∃ m r, d.sendOn n p = d.leaving m r (d.fab.out ++ [d.entry p n]) := by
  obtain ⟨r, m, h⟩ := d.sendOn_only n p
  exact ⟨m, r, h⟩

/-- One message sent on each of several links. -/
theorem Dev.foldl_sendOn (p : OutPkt) (ns : List LinkId) :
    ∃ m r, ns.foldl (fun d n => d.sendOn n p) d = d.leaving m r (d.fab.out ++ ns.map (d.entry p)) := by
  induction ns generalizing d with
  | nil => exact ⟨d.mesh, d.meshIn, by rw [List.map_nil, List.append_nil]; rfl⟩
  | cons n ns ih =>
    obtain ⟨m, r, hfirst⟩ := d.sendOn_leaving n p
    obtain ⟨m', r', hrest⟩ := ih (d.sendOn n p)
    refine ⟨m', r', ?_⟩
    rw [List.foldl_cons, hrest, hfirst, Dev.leaving_leaving, Dev.leaving_out, List.append_assoc]
    rfl

/-- What a report up the tree adds to the packets that leave (R361). -/
theorem Dev.reportUp_leaving {n : LinkId} (serial : BitVec 64) (hparent : d.fab.parent = some n) : ∃ m r, d.reportUp serial =
    d.leaving m r (d.fab.out ++ if d.role = 0 then [] else [d.entry (.topology 0#6 (d.myTopology serial)) n]) := by
  unfold Dev.reportUp
  rw [hparent]
  dsimp only
  by_cases h : d.role = 0
  · rw [if_pos (beq_iff_eq.mpr h), if_pos h, List.append_nil]
    exact ⟨d.mesh, d.meshIn, rfl⟩
  · rw [if_neg (by simpa using h), if_neg h]
    exact d.sendOn_leaving n _

end

section
variable {d : Dev} {n : LinkId} {c : BitVec 64} {prio : Nat} {fz : Fuse}

/-- The device that has adopted a candidate, heard of on a link (R360). -/
def Dev.adopts (d : Dev) (c : BitVec 64) (prio : Nat) (n : LinkId) : Dev :=
  { d with fab := { d.fab with best := some (c, prio), parent := some n, bestSince := d.now } }

theorem candidateEffect_untrusted (h : d.trusted n = false) : candidateEffect n c prio fz d = d.mgmtRefuse [n.val] :=
  if_pos (by rw [h]; rfl)

variable {b : BitVec 64} {q : Nat} (htrust : d.trusted n = true) (hassigned : d.electAssigned = false) (hbest : d.fab.best = some (b, q))
include htrust hassigned hbest

theorem candidateEffect_worse (h : betterCand c.toNat prio b.toNat q = false) : candidateEffect n c prio fz d = d := by
  unfold candidateEffect
  rw [if_neg (by rw [htrust]; decide), hassigned, hbest]
  dsimp only
  exact if_pos (by rw [if_neg Bool.false_ne_true, h]; rfl)

theorem candidateEffect_better (h : betterCand c.toNat prio b.toNat q = true) : candidateEffect n c prio fz d =
    (((d.adopts c prio n).trustedLinks.filter (· != n)).foldl (fun d m => d.sendOn m (.candidate c prio)) (d.adopts c prio n)).reportUp
      fz.serial := by
  unfold candidateEffect
  rw [if_neg (by rw [htrust]; decide), hassigned, hbest]
  dsimp only
  exact if_neg (by rw [if_neg Bool.false_ne_true, h]; decide)

/-- A better candidate is told to the other trusted links, and the device reports up its new tree (R360, R361). -/
theorem candidateEffect_adopts (h : betterCand c.toNat prio b.toNat q = true) : ∃ m r, candidateEffect n c prio fz d =
    (d.adopts c prio n).leaving m r (d.fab.out ++ (d.trustedLinks.filter (· != n)).map (d.entry (.candidate c prio)) ++
      if d.role = 0 then [] else [d.entry (.topology 0#6 (d.myTopology fz.serial)) n]) := by
  rw [candidateEffect_better htrust hassigned hbest h]
  obtain ⟨m, r, htold⟩ := (d.adopts c prio n).foldl_sendOn (.candidate c prio) ((d.adopts c prio n).trustedLinks.filter (· != n))
  rw [htold]
  obtain ⟨m', r', hreport⟩ := Dev.reportUp_leaving ((d.adopts c prio n).leaving m r _) fz.serial (n := n) rfl
  exact ⟨m', r', hreport⟩

end

/-! ### The master (R360, R362) -/

/-- Who is the master, whether it is the device itself, and what the lofts hold. -/
def Dev.mastery (d : Dev) : BitVec 64 × Bool × Vector Loft 48 := (d.fab.master, d.isMaster, d.lofts)

section
variable (d : Dev)

theorem Dev.sendOn_mastery (n : LinkId) (p : OutPkt) : (d.sendOn n p).mastery = d.mastery := by
  obtain ⟨m, r, h⟩ := d.sendOn_leaving n p
  rw [h]
  rfl

theorem Dev.setDevCfg_isMaster {lo len v : Nat} (h : lo + len ≤ 18) : (d.setDevCfg lo len v).isMaster = d.isMaster := by
  unfold Dev.isMaster
  rw [Dev.setDevCfg_bit _ _ _ _ (by norm_num), if_neg (by omega)]

theorem Dev.setDevCfg_mastery {lo len v : Nat} (h : lo + len ≤ 18) : (d.setDevCfg lo len v).mastery = d.mastery :=
  Prod.ext rfl (Prod.ext (d.setDevCfg_isMaster h) rfl)

/-- The device takes a number. -/
def Dev.takesNumber (d : Dev) (v : Nat) : Dev := (d.setDevCfg 4 14 v).setDevCfg 3 1 1

theorem Dev.takesNumber_mastery (v : Nat) : (d.takesNumber v).mastery = d.mastery :=
  (Dev.setDevCfg_mastery _ (by norm_num)).trans (d.setDevCfg_mastery (by norm_num))

theorem Dev.takesNumber_numbered (v : Nat) : (d.takesNumber v).numbered = true := by
  unfold Dev.numbered Dev.takesNumber
  rw [Dev.setDevCfg_bit _ _ _ _ (by norm_num), if_pos ⟨le_rfl, by norm_num⟩]
  rfl

theorem Dev.takesNumber_number (x : BitVec 14) : (d.takesNumber x.toNat).number = x := by
  unfold Dev.takesNumber
  rw [Dev.setDevCfg_number _ (.inl (by norm_num))]
  refine BitVec.eq_of_getLsbD_eq fun i hi => ?_
  rw [Dev.number_bit, decide_eq_true hi, Bool.true_and, Dev.setDevCfg_bit _ _ _ _ (by omega), if_pos (by omega), Nat.add_sub_cancel_left]
  rfl

theorem Dev.assignAll_mastery (serial : BitVec 64) : (d.assignAll serial).mastery = d.mastery := by
  unfold Dev.assignAll
  extract_lets all
  refine foldl_keeps Dev.mastery (fun e x => ?_) _ d
  dsimp only
  split
  · rfl
  split
  · exact e.takesNumber_mastery x.2
  split
  · exact e.sendOn_mastery _ _
  · rfl

theorem Dev.reportUp_mastery (serial : BitVec 64) : (d.reportUp serial).mastery = d.mastery := by
  unfold Dev.reportUp
  split
  · split
    · rfl
    · exact d.sendOn_mastery _ _
  · rfl

theorem Dev.setDevCfg_lofts (lo len v : Nat) : (d.setDevCfg lo len v).lofts = d.lofts := rfl

/-- The device that knows the master `c`, which it is itself where `own` holds (R360). -/
def Dev.knowsMaster (d : Dev) (c : BitVec 64) (own : Bool) : Dev :=
  { d with fab := { d.fab with master := c, masterDev := none } }.setDevCfg 18 1 (if own then 1 else 0)

theorem Dev.setMaster_isMaster (v : Nat) : (d.setDevCfg 18 1 v).isMaster = v.testBit 0 := by
  unfold Dev.isMaster
  rw [Dev.setDevCfg_bit _ _ _ _ (by norm_num), if_pos ⟨le_rfl, by norm_num⟩, Nat.sub_self]

theorem Dev.knowsMaster_isMaster (c : BitVec 64) (own : Bool) : (d.knowsMaster c own).isMaster = own := by
  refine (Dev.setMaster_isMaster _ _).trans ?_
  cases own <;> decide

theorem Dev.knowsMaster_lofts (c : BitVec 64) (own : Bool) : (d.knowsMaster c own).lofts = d.lofts := Dev.setDevCfg_lofts ..

theorem Dev.knowsMaster_mastery (c : BitVec 64) (own : Bool) : (d.knowsMaster c own).mastery = (c, own, d.lofts) := by
  unfold Dev.mastery
  rw [d.knowsMaster_isMaster, d.knowsMaster_lofts]
  rfl

theorem electionEffect_mastery {c : BitVec 64} {prio : Nat} {fz : Fuse} (h : d.fab.best = some (c, prio)) :
    (electionEffect fz d).mastery = (c, c == fz.serial, d.lofts) := by
  have heffect : electionEffect fz d =
      let e := ((d.knowsMaster c (c == fz.serial)).fabEvent 0x6025 [c.toNat]).reportUp fz.serial
      if c == fz.serial then e.assignAll fz.serial else e := by
    unfold electionEffect
    rw [h]
    rfl
  have hreport : (((d.knowsMaster c (c == fz.serial)).fabEvent 0x6025 [c.toNat]).reportUp fz.serial).mastery =
      (c, c == fz.serial, d.lofts) := (Dev.reportUp_mastery ..).trans (d.knowsMaster_mastery ..)
  rw [heffect]
  dsimp only
  split
  · exact (Dev.assignAll_mastery ..).trans hreport
  · exact hreport

end

/-! ### Reports and numbers (R361, R362) -/

section
variable {d : Dev} {n : LinkId} {hops : BitVec 6} {t : Topology} {fz : Fuse} {sender target : BitVec 64} {number : BitVec 14}

theorem Dev.record_recorded (serial : BitVec 64) : (d.record serial n).recorded serial = some n := by
  unfold Dev.recorded Dev.record
  simp

theorem topologyEffect_untrusted (h : d.trusted n = false) : topologyEffect n hops t fz d = d.mgmtRefuse [n.val] :=
  if_pos (by rw [h]; rfl)

theorem topologyEffect_passes (h : d.trusted n = true) (hmaster : d.isMaster = false) : topologyEffect n hops t fz d =
    (d.record t.serial n).passTree d.fab.parent hops fun h => .topology h t := by
  have hkept : (d.record t.serial n).isMaster = false := hmaster
  unfold topologyEffect
  dsimp only
  rw [if_neg (by rw [h]; decide), if_neg (by rw [hkept]; decide)]
  rfl

theorem assignEffect_refused (h : d.fromMaster n sender = false) :
    assignEffect n hops sender target number fz d = d.mgmtRefuse [n.val, sender.toNat] := if_pos (by rw [h]; rfl)

theorem assignEffect_own (h : d.fromMaster n sender = true) (htarget : target = fz.serial) :
    assignEffect n hops sender target number fz d = d.takesNumber number.toNat := by
  unfold assignEffect
  rw [if_neg (by rw [h]; decide), if_pos (beq_iff_eq.mpr htarget)]
  rfl

theorem assignEffect_passes (h : d.fromMaster n sender = true) (htarget : target ≠ fz.serial) :
    assignEffect n hops sender target number fz d = d.passTree (d.recorded target) hops fun h => .assign h target number := by
  unfold assignEffect
  rw [if_neg (by rw [h]; decide), if_neg (by simpa using htarget)]

end

/-- Settles O41: each message has one effect where its link is trusted, and what is sent is appended to the packets that leave. -/
theorem fabricElectsAndNumbers : Obligations.FabricElectsAndNumbers := by
  unfold Obligations.FabricElectsAndNumbers
  intro n x c sender target prio t hops number s d f up
  have hen (h : up) : (d.running && (d.link n).state == .up) = true := up_of h.1 h.2
  refine ⟨fun h hfind => ?_, fun hit h hfind hmatch => ?_, fun h hun => ⟨?_, ?_, ?_⟩,
    fun b q h htrust hassigned hbest => ⟨fun hw => ?_, fun hb => ?_⟩,
    fun he hbest => ?_, fun h htrust hmaster => ?_, fun m h hfrom htarget hrec hhops => ?_, fun h hfrom htarget => ?_⟩
  · exact exec_event (exec_discover n x s) (hen h) (discoverEffect_eq.trans (Dev.mapCheck_unmapped hfind))
  · obtain ⟨hformed, halert, hok⟩ := (f.meets n x).mismatches_frame n x
    exact ⟨_, exec_event (exec_discover n x s) (hen h) (discoverEffect_eq.trans (Dev.mapCheck_mismatch hfind hmatch)), hformed, halert, hok⟩
  · exact exec_event (exec_candidate n c prio s) (hen h) (candidateEffect_untrusted hun)
  · exact exec_event (exec_topologyReport n hops t s) (hen h) (topologyEffect_untrusted hun)
  · refine exec_event (exec_assign n hops sender target number s) (hen h) (assignEffect_refused ?_)
    rw [Dev.fromMaster, hun]
    rfl
  · exact exec_event (exec_candidate n c prio s) (hen h) (candidateEffect_worse htrust hassigned hbest hw)
  · obtain ⟨m, r, heffect⟩ := candidateEffect_adopts (fz := s.fuse) htrust hassigned hbest hb
    exact ⟨_, exec_event (exec_candidate n c prio s) (hen h) heffect, rfl, rfl, rfl, rfl⟩
  · have hmastery := electionEffect_mastery d (fz := s.fuse) hbest
    refine ⟨_, exec_event (exec_masterElectionTimeout s) he rfl, congrArg (·.1) hmastery, ?_, congrArg (·.2.2) hmastery⟩
    rw [show (electionEffect s.fuse s.dev).isMaster = (c == s.fuse.serial) from congrArg (·.2.1) hmastery, beq_iff_eq]
  · intro g
    have hreport {e : Dev} (he : g.passTree f.fab.parent hops (fun h => .topology h t) = e) :
        exec (.topologyReport n hops t) s = .next (s.put e) :=
      exec_event (exec_topologyReport n hops t s) (hen h) ((topologyEffect_passes htrust hmaster).trans he)
    refine ⟨Dev.record_recorded t.serial, fun hnone => hreport (by rw [hnone]; rfl),
      fun m hsome => ⟨fun hh => hreport ?_, fun hh => hreport ?_⟩⟩
    · rw [hsome, Dev.passTree_some, if_neg hh]
    · rw [hsome, Dev.passTree_some, if_pos hh]
  · refine exec_event (exec_assign n hops sender target number s) (hen h) ((assignEffect_passes hfrom htarget).trans ?_)
    rw [hrec, Dev.passTree_some, if_neg hhops]
  · have hmastery := f.takesNumber_mastery number.toNat
    exact ⟨_, exec_event (exec_assign n hops sender target number s) (hen h) (assignEffect_own hfrom htarget), f.takesNumber_numbered _,
      f.takesNumber_number number, congrArg (·.2.1) hmastery, congrArg (·.2.2) hmastery⟩

end Sys2Proof.Machine
end

section
/-!
PROOFS. Requests of the fabric at their destination (R364, R370, R383 to R387).
-/
namespace Sys2Proof.Machine

section
variable (n : LinkId) (p : FabPkt) (ecc : DramEcc) (s : State)

theorem exec_fabLoad : exec (.fabLoad n p ecc) s =
    onEvent s (requestEnabled n 1 p) (requestEffect n p (fun d k => d.doLoad k p ecc) 0x11) := rfl

theorem exec_fabStore : exec (.fabStore n p) s = onEvent s (requestEnabled n 2 p) (requestEffect n p (fun d k => d.doStore k p) 0x12) := rfl

theorem exec_fabAtomic : exec (.fabAtomic n p ecc) s =
    onEvent s (fun d => requestEnabled n 3 p d && d.counterTurn p) (requestEffect n p (fun d k => d.doAtomic k p ecc) 0x13) := rfl

theorem exec_fabTreduce : exec (.fabTreduce n p ecc) s =
    onEvent s (requestEnabled n 4 p) (requestEffect n p (fun d k => d.doReduce k p ecc) 0x12) := rfl

theorem exec_fabMessage : exec (.fabMessage n p) s =
    onEvent s (fun d => requestEnabled n 5 p d && d.messageTurn p) (requestEffect n p (fun d k => d.doMessage k p) 0x12) := rfl

end

/-! ### What every request has in common (R370, R383, R384) -/

theorem Dev.carryRequest_offLinks (d : Dev) (e : MeshEnd) (k : PadId) (p : FabPkt) : (d.carryRequest e k p).offLinks = d.offLinks := by
  unfold Dev.carryRequest
  split
  · rfl
  · split
    · refine foldl_keeps Dev.offLinks (fun x a => ?_) _ d
      exact x.carry_offLinks ..
    · exact d.carryPkt_offLinks ..

/-- The device once a request that stands at it has crossed the mesh to the place that it names (R328). -/
def Dev.requested (d : Dev) (n : LinkId) (k : PadId) (p : FabPkt) : Dev :=
  match d.pktFrom n p with
  | some e => (d.takePkt n p).carryRequest e k p
  | none => d.takePkt n p

theorem Dev.requested_now (d : Dev) (n : LinkId) (k : PadId) (p : FabPkt) : (d.requested n k p).now = d.now := by
  refine Dev.now_of_offLinks ?_
  unfold Dev.requested
  split
  · exact (Dev.carryRequest_offLinks ..).trans (d.takePkt_offLinks n p)
  · exact d.takePkt_offLinks n p

/-- A request that has been performed is answered, now or when its turn at the tile's ports has come (R384, R386). -/
def fabAnswered (k : PadId) (p : FabPkt) (rsp : Nat) (x : Dev × FabAnswer) : Dev :=
  match x.2 with
  | some (status, operand, payload) => x.1.inject (x.1.laEnd k p) (rspPkt p rsp status operand payload)
  | none => x.1

section
variable {n : LinkId} {p : FabPkt} {k : PadId} {d : Dev} {f : Dev → PadId → Dev × FabAnswer} {rsp : Nat} {fz : Fuse}

theorem requestEffect_malformed (h : (pktWellFormed p && (p.typ != 3#6 || atomicOk p)) = false) :
    requestEffect n p f rsp fz d = (d.takePkt n p).dropMalformed p := by
  unfold requestEffect
  exact if_pos (by rw [h]; rfl)

/-- The fields that the destination checks are good (R370, R385). -/
theorem formed_of (hok : pktWellFormed p = true) (hatomic : p.typ = 3#6 → atomicOk p = true) :
    (pktWellFormed p && (p.typ != 3#6 || atomicOk p)) = true := by
  by_cases h : p.typ = 3#6
  · simp [hok, hatomic h]
  · simp [hok, h]

section
variable (hok : (pktWellFormed p && (p.typ != 3#6 || atomicOk p)) = true)
include hok

theorem requestEffect_noBrand (hbrand : (d.takePkt n p).brandPad p.brand = none) :
    requestEffect n p f rsp fz d = (d.takePkt n p).rejectBrand p := by
  unfold requestEffect
  dsimp only
  rw [if_neg (by rw [hok]; decide), hbrand]

/-- A good request is performed on the paddock of its brand and answered. -/
theorem requestEffect_performed (hbrand : (d.takePkt n p).brandPad p.brand = some k)
    (hseal : (d.takePkt n p).sealedTakes fz n (d.fab.loop.contains p) k = true) :
    requestEffect n p f rsp fz d = fabAnswered k p rsp (f (d.requested n k p) k) := by
  have hperform : requestEffect n p f rsp fz d = match f (d.requested n k p) k with
      | (e, some (status, operand, payload)) => e.inject (e.laEnd k p) (rspPkt p rsp status operand payload)
      | (e, none) => e := by
    unfold requestEffect
    dsimp only
    rw [if_neg (by rw [hok]; decide), hbrand]
    refine (if_neg ?_).trans rfl
    rw [hseal]
    decide
  rw [hperform]
  rcases f (d.requested n k p) k with ⟨e, _ | ⟨status, operand, payload⟩⟩ <;> rfl

end

/-! ### Sizes of requests (R368) -/

theorem requestEnabled_typ {typ : Nat} (h : requestEnabled n typ p d = true) : p.typ.toNat = typ := by
  simp only [requestEnabled, Bool.and_eq_true, beq_iff_eq] at h
  exact h.2

theorem sizeOk_of_formed (h : pktWellFormed p = true) : sizeOk p.typ.toNat p.size.toNat p.len.toNat p.status.toNat = true := by
  unfold pktWellFormed at h
  simp only [Bool.and_eq_true] at h
  exact h.1.1.1.1.2

/-- A LOAD and a TREDUCE name at least one byte. -/
theorem size_ne_zero (h : pktWellFormed p = true) (htyp : p.typ.toNat = 1 ∨ p.typ.toNat = 4) : p.size.toNat ≠ 0 := by
  have hsize := sizeOk_of_formed h
  rcases htyp with h | h <;> rw [h] at hsize <;> simp [sizeOk] at hsize <;> omega

end

/-! ### DRAM (R384) -/

section
variable {d : Dev} {k : PadId} {p : FabPkt} {l : SiteId}

theorem Dev.doStore_dram (hspace : p.space = 0#3) (hstatus : d.dramStatus k p.laddr.toNat p.size.toNat = 0)
    (hl : finOf 48 (dramLoft p.laddr.toNat) = some l) : d.doStore k p =
      ((d.loftTouch l true (dramOff p.laddr.toNat) p.size.toNat).modLoft l fun lo =>
        lo.store (dramOff p.laddr.toNat) (p.payload.take p.size.toNat) d.now, some (0, [], [])) := by
  unfold Dev.doStore
  dsimp only
  rw [if_pos (beq_iff_eq.mpr hspace), hstatus, hl]
  rfl

theorem Dev.doStore_refused (hspace : p.space = 0#3) (hstatus : d.dramStatus k p.laddr.toNat p.size.toNat ≠ 0) :
    d.doStore k p = (d, fabNo (d.dramStatus k p.laddr.toNat p.size.toNat)) := by
  unfold Dev.doStore
  dsimp only
  rw [if_pos (beq_iff_eq.mpr hspace), if_pos (bne_iff_ne.mpr hstatus)]

/-- A range without an uncorrectable codeword begins with a good one. -/
theorem Loft.badOf_first {lo : Loft} {off n : Nat} (hn : n ≠ 0) (h : lo.badIn off n = none) : lo.badOf off 1 = [] :=
  Loft.badOf_one_of_nil hn (List.head?_eq_none_iff.mp (Option.map_eq_none_iff.mp h))

theorem Dev.doLoad_dram (hspace : p.space = 0#3) (hstatus : d.dramStatus k p.laddr.toNat p.size.toNat = 0)
    (hl : finOf 48 (dramLoft p.laddr.toNat) = some l) (hsize : p.size.toNat ≠ 0)
    (hgood : ((d.loftTouch l false (dramOff p.laddr.toNat) p.size.toNat).loft l).badIn (dramOff p.laddr.toNat) p.size.toNat = none) :
    d.doLoad k p .clean = (d.loftTouch l false (dramOff p.laddr.toNat) p.size.toNat,
      some (0, [], ((d.loftTouch l false (dramOff p.laddr.toNat) p.size.toNat).loft l).mem.readN (dramOff p.laddr.toNat) p.size.toNat)) := by
  unfold Dev.doLoad
  dsimp only
  rw [if_pos (beq_iff_eq.mpr hspace), hstatus, hl]
  dsimp only
  rw [Dev.dramCode_clean (Loft.badOf_first hsize hgood), hgood]
  rfl

/-- The tallies of a range are written both ways, for a read-and-zero that may yet have to leave them (R271, R286). -/
def Dev.tallied (d : Dev) (l : SiteId) (off n : Nat) : Dev :=
  d.modLoft l fun lo => (splitRow off n).foldl (fun lo a => lo.touchBoth a.addr) lo

theorem Dev.doReduce_dram (hloft : dramLoft p.laddr.toNat = dramLoft (p.laddr.toNat + 4 * p.size.toNat - 1))
    (hstatus : d.dramStatus k p.laddr.toNat (4 * p.size.toNat) = 0) (hl : finOf 48 (dramLoft p.laddr.toNat) = some l)
    (hsize : p.size.toNat ≠ 0)
    (hgood : ((d.tallied l (dramOff p.laddr.toNat) (4 * p.size.toNat)).loft l).badIn (dramOff p.laddr.toNat) (4 * p.size.toNat) = none) :
    d.doReduce k p .clean = ((d.tallied l (dramOff p.laddr.toNat) (4 * p.size.toNat)).modLoft l fun lo =>
      (splitRow (dramOff p.laddr.toNat) (4 * p.size.toNat)).foldl (fun lo a =>
        lo.tally a.addr a.n (a.addr - dramOff p.laddr.toNat) (p.payload.take p.size.toNat) d.now) lo, some (0, [], [])) := by
  have hclean : (d.tallied l (dramOff p.laddr.toNat) (4 * p.size.toNat)).dramCode l (dramOff p.laddr.toNat) .clean =
      d.tallied l (dramOff p.laddr.toNat) (4 * p.size.toNat) := Dev.dramCode_clean (Loft.badOf_first (by omega) hgood)
  unfold Dev.doReduce
  dsimp only
  rw [if_pos (beq_iff_eq.mpr hloft), hstatus, hl]
  unfold Dev.tallied at hclean hgood ⊢
  dsimp only
  rw [hclean, hgood]
  rfl

/-! ### Scratchpad, bells and messages (R384, R386, R529) -/

variable {st : SiteId}

theorem Dev.doStore_spad (hspace : p.space = 1#3) (hsite : d.laSite k p.laddr.toNat = some st)
    (hstatus : d.spadStatus k p.laddr.toNat p.size.toNat = 0) : d.doStore k p =
      (d.arrive st { msu := (d.tile st).fabMsu, kind := .write, addr := p.laddr.toNat % 2 ^ 25, left := p.size.toNat,
                     bytes := p.payload.take p.size.toNat, req := some p }, none) := by
  unfold Dev.doStore
  dsimp only
  rw [if_neg (by rw [hspace]; decide), hsite, hstatus]
  rfl

theorem Dev.doLoad_spad {ecc : DramEcc} (hspace : p.space = 1#3) (hsite : d.laSite k p.laddr.toNat = some st)
    (hstatus : d.spadStatus k p.laddr.toNat p.size.toNat = 0) : d.doLoad k p ecc =
      (d.arrive st { msu := (d.tile st).fabMsu, kind := .read, addr := p.laddr.toNat % 2 ^ 25, left := p.size.toNat, req := some p }, none) := by
  unfold Dev.doLoad
  dsimp only
  rw [if_neg (by rw [hspace]; decide), hsite, hstatus]
  rfl

theorem Dev.spadStatus_noSite {a n : Nat} (h : d.laSite k a = none) : d.spadStatus k a n = 1 := by rw [Dev.spadStatus, h]

theorem Dev.spadStatus_deep {a n : Nat} (h : d.laSite k a = some st) (hpower : 2 ≤ d.power st) : d.spadStatus k a n = 5 := by
  rw [Dev.spadStatus, h]
  exact if_pos hpower

section
variable (hspace : p.space = 1#3) (hstatus : d.spadStatus k p.laddr.toNat p.size.toNat ≠ 0)
include hspace hstatus

theorem Dev.doStore_spadRefused : d.doStore k p = (d, fabNo (d.spadStatus k p.laddr.toNat p.size.toNat)) := by
  unfold Dev.doStore
  dsimp only
  rw [if_neg (by rw [hspace]; decide)]
  cases hsite : d.laSite k p.laddr.toNat with
  | none => rw [Dev.spadStatus_noSite hsite]
  | some st => exact if_pos (bne_iff_ne.mpr hstatus)

theorem Dev.doLoad_spadRefused {ecc : DramEcc} : d.doLoad k p ecc = (d, fabNo (d.spadStatus k p.laddr.toNat p.size.toNat)) := by
  unfold Dev.doLoad
  dsimp only
  rw [if_neg (by rw [hspace]; decide)]
  cases hsite : d.laSite k p.laddr.toNat with
  | none => rw [Dev.spadStatus_noSite hsite]
  | some st => exact if_pos (bne_iff_ne.mpr hstatus)

end

section
variable {ecc : DramEcc} (hspace : p.space = 3#3) (hsite : d.laSite k p.laddr.toNat = some st)
include hspace hsite

theorem Dev.doAtomic_deep (hpower : 2 ≤ d.power st) : d.doAtomic k p ecc = (d, fabNo 5) := by
  unfold Dev.doAtomic
  dsimp only
  rw [hspace, hsite]
  exact if_pos hpower

theorem Dev.doAtomic_bell (hpower : d.power st < 2) (hbell : fld p.laddr.toNat 0 6 < 48) (hopen : d.runOpen (some k) = true) :
    d.doAtomic k p ecc =
      (d.arrive st { msu := (d.tile st).fabMsu, kind := .bell, addr := fld p.laddr.toNat 0 6,
                     left := fieldAt p.operand 0 8, req := some p }, none) := by
  unfold Dev.doAtomic
  dsimp only
  rw [hspace, hsite]
  exact (if_neg (Nat.not_le.mpr hpower)).trans ((if_neg (by omega)).trans (if_neg (by rw [hopen]; decide)))

end
end

/-- Settles O38: a good request is performed on its brand's paddock, and what that gives is answered; the rules of each space say what. -/
theorem requestsPerformedAndAnswered : Obligations.RequestsPerformedAndAnswered := by
  unfold Obligations.RequestsPerformedAndAnswered
  intro n p k s d t u a size here good ack
  have hu : u = d.requested n k p := rfl
  have hnow : u.now = d.now := d.requested_now n k p
  clear_value u
  have hformed (h : good) : (pktWellFormed p && (p.typ != 3#6 || atomicOk p)) = true := formed_of h.1 h.2.1
  have hperformed {f : Dev → PadId → Dev × FabAnswer} {rsp : Nat} {x : Dev × FabAnswer} {e : Dev} (h : good) (hx : f u k = x)
      (he : fabAnswered k p rsp x = e := by rfl) : requestEffect n p f rsp s.fuse d = e := by
    rw [requestEffect_performed (hformed h) h.2.2.1 h.2.2.2, ← hu, hx, he]
  have hbad (h : pktWellFormed p = false) : (pktWellFormed p && (p.typ != 3#6 || atomicOk p)) = false := by rw [h]; rfl
  have hstore {e : Dev} (h : here 2) (he : requestEffect n p (fun d k => d.doStore k p) 0x12 s.fuse d = e) :
      exec (.fabStore n p) s = .next (s.put e) := exec_event (exec_fabStore n p s) h he
  have hload {e : Dev} (h : here 1) (he : requestEffect n p (fun d k => d.doLoad k p .clean) 0x11 s.fuse d = e) :
      exec (.fabLoad n p .clean) s = .next (s.put e) := exec_event (exec_fabLoad n p .clean s) h he
  have hreduce {e : Dev} (h : here 4) (he : requestEffect n p (fun d k => d.doReduce k p .clean) 0x12 s.fuse d = e) :
      exec (.fabTreduce n p .clean) s = .next (s.put e) := exec_event (exec_fabTreduce n p .clean s) h he
  have hatomic {e : Dev} (h : here 3) (hturn : d.counterTurn p = true)
      (he : requestEffect n p (fun d k => d.doAtomic k p .clean) 0x13 s.fuse d = e) : exec (.fabAtomic n p .clean) s = .next (s.put e) :=
    exec_event (exec_fabAtomic n p .clean s) (Bool.and_eq_true_iff.mpr ⟨h, hturn⟩) he
  have hmessage {e : Dev} (h : here 5) (hturn : d.messageTurn p = true)
      (he : requestEffect n p (fun d k => d.doMessage k p) 0x12 s.fuse d = e) : exec (.fabMessage n p) s = .next (s.put e) :=
    exec_event (exec_fabMessage n p s) (Bool.and_eq_true_iff.mpr ⟨h, hturn⟩) he
  have hbellTurn (h : p.space = 3#3) : d.counterTurn p = true := by
    unfold Dev.counterTurn
    rw [h]
    rfl
  refine ⟨⟨fun h hb => hload h (requestEffect_malformed (hbad hb)), fun h hb => hstore h (requestEffect_malformed (hbad hb)),
      fun h hturn hb => hatomic h hturn (requestEffect_malformed ?_), fun h hb => hreduce h (requestEffect_malformed (hbad hb)),
      fun h hturn hb => hmessage h hturn (requestEffect_malformed (hbad hb))⟩,
    fun h hok hbrand => hstore h (requestEffect_noBrand (formed_of hok fun htyp => ?_) hbrand),
    fun l h hg hspace hstatus hl => hstore h (hperformed hg (Dev.doStore_dram hspace hstatus hl) ?_),
    fun st h hg hspace hsite hstatus => hstore h (hperformed hg (Dev.doStore_spad hspace hsite hstatus)),
    fun h hg hspace hstatus => hstore h (hperformed hg (Dev.doStore_refused hspace hstatus)),
    fun l h hg hloft hstatus hl => ?_, fun l h hg hspace hstatus hl => ?_,
    fun st h hg hspace hsite hstatus => hload h (hperformed hg (Dev.doLoad_spad hspace hsite hstatus)),
    fun h hg hspace hstatus => hstore h (hperformed hg (Dev.doStore_spadRefused hspace hstatus)),
    fun h hg hspace hstatus => hload h (hperformed hg (Dev.doLoad_spadRefused hspace hstatus)),
    fun st hsite hpower => ⟨Dev.spadStatus_deep hsite hpower, fun h hg hspace =>
      hatomic h (hbellTurn hspace) (hperformed hg (Dev.doAtomic_deep hspace hsite hpower))⟩,
    fun st h hg hspace hsite hpower hbell hopen =>
      hatomic h (hbellTurn hspace) (hperformed hg (Dev.doAtomic_bell hspace hsite hpower hbell hopen)),
    fun h hg hturn => ⟨fun e status he => hmessage h hturn (hperformed hg he),
      fun e he => hmessage h hturn (hperformed hg he)⟩⟩
  · have htyp : p.typ = 3#6 := BitVec.eq_of_toNat_eq (requestEnabled_typ h)
    rcases hb with hb | hb
    · exact hbad hb
    · rw [hb, htyp, Bool.and_eq_false_iff]
      exact .inr rfl
  · have hstoreTyp := requestEnabled_typ h
    rw [htyp] at hstoreTyp
    exact absurd hstoreTyp (by decide)
  · rw [hnow]
    rfl
  · intro off rows v hgood
    refine hreduce h (hperformed hg (Dev.doReduce_dram hloft hstatus hl (size_ne_zero hg.1 (.inr (requestEnabled_typ h))) hgood) ?_)
    rw [hnow]
    rfl
  · intro v hgood
    exact hload h (hperformed hg (Dev.doLoad_dram hspace hstatus hl (size_ne_zero hg.1 (.inl (requestEnabled_typ h))) hgood))

end Sys2Proof.Machine
end
